-- ==== Sys2Proof/Word.lean ====
section
/-! DEFINITION. The word types of the model (00 R6, R7). -/

namespace Sys2Proof

/-- One byte (00 R6). -/
abbrev Byte := BitVec 8

/-- One 8 B word, the unit of both stores (02 R26). -/
abbrev Word := BitVec 64

end Sys2Proof
end

