-- ==== Sys2Proof/Machine/Sparse.lean ====
section
/-! DEFINITION. Sparse data by number, in one canonical form: keys strictly rising, and no entry equal to
what an unlisted key reads as. Every table, register file and memory of State is held so. -/

namespace Sys2Proof.Machine

/-- Sparse data: a list of (key, value) pairs. With `Byte` values it is a list of `Host.Cell`. -/
abbrev SMap (α : Type) := List (Nat × α)

namespace SMap

variable {α : Type}

/-- The value at key `k`; `d` is what an unlisted key reads as. -/
def get (d : α) : SMap α → Nat → α
  | [], _ => d
  | (k', v) :: m, k => if k = k' then v else get d m k

/-- The entries of `m` with that of key `k`, if any, left out. -/
def erase (m : SMap α) (k : Nat) : SMap α := m.filter fun e => e.1 ≠ k

/-- `m` with key `k` reading as `v`, where `v` is not what an unlisted key reads as. -/
def insert (k : Nat) (v : α) : SMap α → SMap α
  | [] => [(k, v)]
  | (k', v') :: m =>
    if k < k' then (k, v) :: (k', v') :: m
    else if k = k' then (k, v) :: m
    else (k', v') :: insert k v m

/-- `m` with key `k` reading as `v`: writing what an unlisted key reads as removes the entry. -/
def set [DecidableEq α] (d : α) (m : SMap α) (k : Nat) (v : α) : SMap α :=
  if v = d then erase m k else insert k v m

/-- `m` with the value at `k` replaced by `f` of it. -/
def upd [DecidableEq α] (d : α) (m : SMap α) (k : Nat) (f : α → α) : SMap α := set d m k (f (get d m k))

/-- The canonical form: keys strictly rising and no entry equal to `d`. -/
def wf [DecidableEq α] (d : α) : SMap α → Bool
  | [] => true
  | [(_, v)] => v ≠ d
  | (k, v) :: (k', v') :: m => v ≠ d && k < k' && wf d ((k', v') :: m)

/-- `m` with each pair of `kvs` written in turn. -/
def setAll [DecidableEq α] (d : α) (m : SMap α) : List (Nat × α) → SMap α
  | [] => m
  | (k, v) :: kvs => setAll d (set d m k v) kvs

/-- `m` with `f k` applied to the value at each listed key `k`. -/
def mapVals [DecidableEq α] (d : α) (f : Nat → α → α) : SMap α → SMap α
  | [] => []
  | (k, v) :: m => set d (mapVals d f m) k (f k v)

/-- The values at keys `k` to `k + n - 1`. -/
def getRange (d : α) (m : SMap α) (k : Nat) : Nat → List α
  | 0 => []
  | n + 1 => get d m k :: getRange d m (k + 1) n

/-- `m` with the values of `vs` written at keys `k` onward. -/
def setRange [DecidableEq α] (d : α) (m : SMap α) (k : Nat) : List α → SMap α
  | [] => m
  | v :: vs => setRange d (set d m k v) (k + 1) vs

/-- `m` with every entry of keys `k` to `k + n - 1` left out. -/
def eraseRange (m : SMap α) (k n : Nat) : SMap α := m.filter fun e => e.1 < k || k + n ≤ e.1

end SMap

/-- Memory by byte address: a list of `Host.Cell`. An unlisted address reads as zero. -/
abbrev Memory := SMap Byte

namespace Memory

/-- One byte. -/
def read (m : Memory) (a : Nat) : Byte := SMap.get 0 m a

/-- One byte written. -/
def write (m : Memory) (a : Nat) (b : Byte) : Memory := SMap.set 0 m a b

/-- `n` bytes from address `a` upward. -/
def readBytes (m : Memory) (a n : Nat) : List Byte := SMap.getRange 0 m a n

/-- Bytes written from address `a` upward. -/
def writeBytes (m : Memory) (a : Nat) (bs : List Byte) : Memory := SMap.setRange 0 m a bs

/-- The canonical form of a memory. -/
def wf (m : Memory) : Bool := SMap.wf 0 m

/-- A little-endian number of `n` bytes (00 R7). -/
def readLE (m : Memory) (a n : Nat) : Nat :=
  (readBytes m a n).foldr (fun b acc => b.toNat + 256 * acc) 0

end Memory

end Sys2Proof.Machine
end

