-- ==== Sys2Proof/Machine/Types.lean ====
section
/-! DEFINITION. The operand types of the commands. -/

namespace Sys2Proof.Machine

/-- Virtual nib index, row × 64 + column (11 R334). -/
abbrev NibId := Fin 8192
/-- Quill number (00 R10). -/
abbrev QuillId := Fin 16
/-- Quire number (00 R11). -/
abbrev QuireId := Fin 16
/-- Reservoir queue of a nib (04 R135). -/
abbrev RqId := Fin 4
/-- Virtual channel of margin packets: 0 REQ-A, 1 REQ-B, 2 RSP-A, 3 RSP-B (09 R283). -/
abbrev VcId := Fin 4
/-- LAP session identifier (12 R360). -/
abbrev SessionId := BitVec 16

/-- An 8 B word of a nib's operand store or well that has been upset: its local address / 8, and how many of its bits are now in error
(02 R36). -/
structure Upset where
  word : Nat
  bits : Nat
deriving DecidableEq, Repr

/-- What the link ECC of a desk read burst found (06 R177): right, one bit corrected, `rereads` failed reads
before a good one, or every re-read failed as well. -/
inductive LinkEcc where
  | good
  | corrected
  | reread (times : Nat)
  | failed
deriving DecidableEq, Repr

/-- What goes wrong in desk memory (06 R177, R181): bits of a 64 B block, or of its check, in error; the outcome of the link ECC in the
next read of a block; and a next read that returns the block of an address that differs in one bit, 6 to 39. -/
inductive DeskError where
  | bits (block bits : Nat)
  | link (block : Nat) (found : LinkEcc)
  | astray (block bit : Nat)
deriving DecidableEq, Repr

/-- What the desk controller meets at one per-bank refresh (06 R176): the channel's MR4, and what has gone wrong in desk memory since the
refresh before. -/
structure RefreshReport where
  mr4 : Nat
  errors : List DeskError
deriving DecidableEq, Repr

/-- Why the reference is declared lost (07 R206, R215). -/
inductive RefCause where
  | noEdge
  | offFrequency
  | timeClockLock
deriving DecidableEq, Repr

/-- The slacks of a quire's twelve replica paths in one cycle, in ps, measured as if the cycle had the nominal period (07 R208). -/
abbrev Slacks := Vector Int 12

/-- What a quire's clock generator reports at the end of stretching (07 R210, R213): the cycles stretched since its last report, and the
samples since. -/
structure StretchReport where
  cycles : Nat
  samples : List Slacks
deriving DecidableEq, Repr

/-- A request of a time step (07 R212, R217): the session that writes it, and the stretched cycles of each quire since its last report. -/
structure StepOrder where
  session : SessionId
  cycles : List (QuireId × Nat)
deriving DecidableEq, Repr

/-- How a quire's clock generator fails (07 R211): by the in-use margin of a cycle, by its lock, or by both in one cycle. -/
inductive ClockFail where
  | margin (slacks : Slacks)
  | lock
  | both (slacks : Slacks)
deriving DecidableEq, Repr

/-- What takes a quill down (09 R281). -/
inductive DownCause where
  | missingFields
  | unacknowledged
  | framing
  | laneLock
  | goingDown
  | disabled
deriving DecidableEq, Repr

/-- A ruled frame as it stands on the wire: header, payload and trailer (08 R248, R249). -/
structure Frame where
  hdr : BitVec 256
  payload : List Byte
  trailer : BitVec 128
deriving DecidableEq, Repr

/-- What the quill FEC reports of the codewords of a stroke (09 R271): the codewords with 1 to 7 symbols corrected and how many, those
that are uncorrectable, and those whose framing symbol is not the expected one (09 R268). -/
structure FecReport where
  corrected : List (Nat × Nat)
  bad : List Nat
  framing : List Nat
deriving DecidableEq, Repr

/-- Where a LAP message comes from (12 R360). -/
inductive Source where
  | mailbox
  | udp (ip : List Byte) (port : Nat)
deriving DecidableEq, Repr

/-- What an Announce message says (07 R228): its sender's port identity, and the data set of its grandmaster with the steps to it, which
the best master clock algorithm compares. -/
structure PtpMaster where
  id : Nat
  priority1 : Nat
  clockClass : Nat
  accuracy : Nat
  variance : Nat
  priority2 : Nat
  grandmaster : Nat
  steps : Nat
deriving DecidableEq, Repr

/-- A PTP message as the port's time stamps see it (07 R228, R229). Times are in 1/16 ns; `master` is the sender's port identity and `seq`
the sequence number. `delayReq` is what the port itself sends; `sent` and `received` are that request's two times. -/
inductive PtpMsg where
  | announce (m : PtpMaster)
  | announceTimeout (master : Nat)
  | sync (master seq : Nat) (origin : Option Int) (arrival : Int)
  | followUp (master seq : Nat) (origin : Int)
  | delayReq (seq : Nat)
  | delayResp (master seq : Nat) (sent received : Int)
deriving DecidableEq, Repr

/-- A PTP frame (07 R228): its transport, the other end's address, none for multicast, its domain and its message. -/
structure PtpFrame where
  ipv6 : Bool
  addr : List Byte
  domain : Nat
  msg : PtpMsg
deriving DecidableEq, Repr

/-- A frame of the management port (14 R426, R427). `arp` and `neighbour` carry the address asked for, or in a reply the one
answered; `echo4` and `echo6` the other end's address and the data; `lap` the address and port it is sent to. -/
inductive MgmtFrame where
  | tagged
  | arp (ip : List Byte)
  | neighbour (ip : List Byte)
  | echo4 (ip : List Byte) (data : List Byte)
  | echo6 (ip : List Byte) (data : List Byte)
  | lap (src : Source) (dst : List Byte) (port : Nat) (fragment : Bool) (msg : List Byte)
  | ptp (f : PtpFrame)
  | other
deriving DecidableEq, Repr

/-- Where a margin request or response stands that a row serves: a receive buffer of a quill, or the
module's own loop of packets whose route has no hop (09 R285). -/
inductive MarginAt where
  | quill (q : QuillId) (vc : VcId)
  | own
deriving DecidableEq, Repr

/-- Sideband inputs (16 R466): 0 BLOT_IN_N, 1 HOLD_IN_N, 2 PPS_IN, 3 MOD_RST_N; the Ledger's subindex is one
more. -/
abbrev PinId := Fin 4

end Sys2Proof.Machine
end

