-- ==== Sys2Proof/Syntax.lean ====
section
/-! DEFINITION. The commands: one constructor per row of spec/opcode_table.json. -/

namespace Sys2Proof

open Sys2Proof.Machine

/-- A command to the module. The 26 rows of stroke-program instructions carry the nib that issues and the
whole 64-bit word (04 R100); a row that is a write of one Ledger object carries the writing session. -/
inductive Instr where
  /-- NOP (R101): The nop instruction (or an all-zero word) takes one issue cycle and does nothing else. -/
  | nop (n : NibId) (w : BitVec 64)
  /-- FENCE (R142): The fence instruction holds issue until all in-flight slots are free and/or all reservoir queues are retired, as its OPS and RES bits select. -/
  | fence (n : NibId) (w : BitVec 64)
  /-- HALT (R143): The halt instruction stops issue and records CODE, while the operations already issued run on. -/
  | halt (n : NibId) (w : BitVec 64)
  /-- HALTED (R143): A halting nib becomes HALTED once every operation and reservoir transfer it issued has completed; the halt count and the first-halt record update. -/
  | halted (n : NibId)
  /-- OVERLAY (R144): The overlay instruction copies CNT instruction pairs from the well into the instruction store and moves issue to TGT, with the faults of R144 and R467. -/
  | overlay (n : NibId) (w : BitVec 64)
  /-- DLOAD (R112): The dload instruction loads a 40 B descriptor entry from a local address, checks it and clears its escape record. -/
  | dload (n : NibId) (w : BitVec 64)
  /-- ESC (R121): The esc instruction writes a descriptor's escape record to a local address and/or clears it. -/
  | esc (n : NibId) (w : BitVec 64)
  /-- LOOP (R48): The loop instruction latches its count and enters a loop level, skips its body when the count is 0, or faults under R51. -/
  | loop (n : NibId) (w : BitVec 64)
  /-- CT (R139): The ct instruction changes a counter as its FN selects, and the comparator outputs are recomputed. -/
  | ct (n : NibId) (w : BitVec 64)
  /-- CMP (R47): The cmp instruction sets a comparator's counter, operand and relation. -/
  | cmp (n : NibId) (w : BitVec 64)
  /-- TWAIT (R124): The twait instruction dequeues N tokens from a queue one per cycle, checks their KIND and optionally stores the last VALUE in a counter. -/
  | twait (n : NibId) (w : BitVec 64)
  /-- SIGNAL (R123): The signal instruction enqueues a SIGNAL token in a local queue or sends it through the mesh to another nib. -/
  | signal (n : NibId) (w : BitVec 64)
  /-- TBIND (R125): The tbind instruction binds or unbinds the Prompt Window doorbell to a queue of this nib; held doorbell events are then delivered. -/
  | tbind (n : NibId) (w : BitVec 64)
  /-- MMA (R114): The mma instruction issues a matrix operation after the shape, format and address checks, taking an in-flight slot. -/
  | mma (n : NibId) (w : BitVec 64)
  /-- MMA_COMPLETE (R28): A matrix operation writes its results 16 cycles after its last input cycle, updates its escape record, emits its DONE token and frees its slot. -/
  | mmaComplete (n : NibId)
  /-- VOP (R117): The vop instruction issues an element-wise (optionally reducing) vector operation, taking an in-flight slot. -/
  | vop (n : NibId) (w : BitVec 64)
  /-- VOP_COMPLETE (R30): A vector operation writes its results after its latency, counts escapes and conversion events, emits its DONE token and frees its slot. -/
  | vopComplete (n : NibId)
  /-- CVT (R120): The cvt instruction issues a format conversion on the vector engine, taking an in-flight slot. -/
  | cvt (n : NibId) (w : BitVec 64)
  /-- CVT_COMPLETE (R97): A conversion writes its results and any MX scales, counts escapes and conversion events, emits its DONE token and frees its slot. -/
  | cvtComplete (n : NibId)
  /-- SEND (R130): The send instruction starts a stream message to a nib, to a quill's landing buffer, or to the margin engine, taking the stream engine. -/
  | send (n : NibId) (w : BitVec 64)
  /-- SEND_COMPLETE (R130): A send completes when its last flit has left the store; it emits its DONE token and frees its slot. -/
  | sendComplete (n : NibId)
  /-- RECV (R131): The recv instruction posts a receiving region for mesh messages of a queue, or copies a landed range from a landing buffer. -/
  | recv (n : NibId) (w : BitVec 64)
  /-- RECV_COMPLETE (R131): A recv completes when NMSG messages have been written whole, or its landing-buffer copy is done; it emits its DONE token and frees its slot. -/
  | recvComplete (n : NibId)
  /-- STREAM_PACKET_ARRIVAL (R57): A stream packet reaching a nib's local output is tag-tested, then written at its offset in the posted region, held until a recv is posted, or discarded by a faulted nib. -/
  | streamPacketArrival (n : NibId) (src : NibId)
  /-- REMOTE_SIGNAL_ARRIVAL (R123): A SIGNAL token from another nib arrives through the mesh and is enqueued, held for room, or dropped under R45. -/
  | remoteSignalArrival (n : NibId) (src : NibId)
  /-- RBASE (R135): The rbase instruction sets a reservoir queue's desk base register. -/
  | rbase (n : NibId) (w : BitVec 64)
  /-- RFETCH (R136): The rfetch instruction queues a transfer from desk memory into a well tensor, taking a reservoir queue entry. -/
  | rfetch (n : NibId) (w : BitVec 64)
  /-- RSTORE (R136): The rstore instruction queues a transfer from a well tensor to desk memory, taking a reservoir queue entry. -/
  | rstore (n : NibId) (w : BitVec 64)
  /-- RWAIT (R137): The rwait instruction holds issue until at most N transfers of a queue remain unretired, and raises RES for a transfer ended in error. -/
  | rwait (n : NibId) (w : BitVec 64)
  /-- KAPPEND (R154): The kappend instruction appends a draft node to a sequence context and copies its key and value entries. -/
  | kappend (n : NibId) (w : BitVec 64)
  /-- KAPPEND_COMPLETE (R155): A kappend writes its entries 6 cycles after its last input cycle, emits its DONE token and frees its slot. -/
  | kappendComplete (n : NibId)
  /-- KCOMMIT (R158): The kcommit instruction commits a path of draft nodes to fair copy, moves entries as needed, and keeps or drops the other drafts. -/
  | kcommit (n : NibId) (w : BitVec 64)
  /-- KERASE (R161): The kerase instruction drops every draft node of a context. -/
  | kerase (n : NibId) (w : BitVec 64)
  /-- KMASK (R156): The kmask instruction writes the draft attention mask of a context into a tensor, taking an in-flight slot. -/
  | kmask (n : NibId) (w : BitVec 64)
  /-- KMASK_COMPLETE (R157): A kmask writes its mask after its latency, emits its DONE token and frees its slot. -/
  | kmaskComplete (n : NibId)
  /-- KTAG (R127): The ktag instruction sets the nib's generation and epoch stamps and its accept masks. -/
  | ktag (n : NibId) (w : BitVec 64)
  /-- NIB_FAULTED (R146): A faulting nib enters FAULTED once its other in-flight operations have completed and emitted their tokens. -/
  | nibFaulted (n : NibId)
  /-- PATROL_SCRUB (R35): When a scrub interval falls due, the scrubber reads the next well row in an idle cycle, or forces a cycle after 65,536 cycles, and corrects or counts errors. -/
  | patrolScrub (n : NibId) (upsets : List Upset)
  /-- CHUNK_START (R188): A reservoir chunk starts in queue order, within the limit of 8 in flight, and is translated through the cache or a page-ledger walk. -/
  | chunkStart (n : NibId) (rq : RqId)
  /-- CHUNK_COMPLETE (R188): A chunk completes when its bytes are written to the well or accepted by the controller, advancing the transfer's progress mark. -/
  | chunkComplete (n : NibId) (rq : RqId) (chunk : Nat) (ecc : List LinkEcc)
  /-- CHUNK_FAULT (R195): A chunk that meets UNMAPPED, RIGHTS, DESK_UE, WELL_UE or BAD_ENTRY stops its transfer and is ABORTed or HELD by the cause's action. -/
  | chunkFault (n : NibId) (rq : RqId) (chunk : Nat) (ecc : List LinkEcc)
  /-- CHUNK_TIMEOUT (R192): A chunk that has not completed within 20 µs faults with cause DESK_UE. -/
  | chunkTimeout (n : NibId) (rq : RqId) (chunk : Nat)
  /-- TRANSFER_RETIRE (R137): A completed transfer retires once every older transfer of its queue has retired, releasing a waiting rwait. -/
  | transferRetire (n : NibId) (rq : RqId)
  /-- RESUME (R197): A write of RESUME to 0x4622:00 frees a HELD fault entry and restarts its transfer at the progress mark. -/
  | resumeTransfer (sess : SessionId) (entry : BitVec 6)
  /-- ABORT (R197): A write of ABORT to 0x4622:00 frees a HELD fault entry and ends its transfer in error. -/
  | abortTransfer (sess : SessionId) (entry : BitVec 6)
  /-- HOLD_LIMIT_EXPIRY (R198): A fault entry that stays HELD for the hold limit is aborted as if ABORT were written. -/
  | holdLimitExpiry (entry : BitVec 6)
  /-- TRANSLATION_FLUSH (R187): A write of 1 to 0x4623:00 starts a translation-cache flush. -/
  | translationFlush (sess : SessionId)
  /-- TRANSLATION_FLUSH_COMPLETE (R187): The flush completes when every chunk started under the old translation has completed, and 0x8035:00 reads 0. -/
  | translationFlushComplete
  /-- PER_BANK_REFRESH (R176): The desk controller issues per-bank refresh at the rate each device's MR4 requests. -/
  | perBankRefresh (ch : Fin 128) (found : RefreshReport)
  /-- REFRESH_MANAGEMENT (R176): The controller answers a device's refresh-management request. -/
  | refreshManagement (ch : Fin 128)
  /-- WCK2DQ_OSCILLATOR_READ (R176): Every 2 ms the part reads each channel's WCK2DQ oscillator and runs a staggered retraining window when drift exceeds its limit. -/
  | wck2dqOscillatorRead (ch : Fin 128) (overLimit : Bool)
  /-- WRITE_LINK_ECC_POLL (R177): Every 2 ms the part reads the devices' write link-ECC corrections and adds them to 0x8033. -/
  | writeLinkEccPoll (corrections : Nat)
  /-- DRAIN_DEADLINE (R199): At the drain deadline no chunk starts and each send stops at its next unstarted 4 KiB boundary. -/
  | drainDeadline (begun : List (NibId × Nat))
  /-- PREEMPTION_COMPLETE (R199): Once chunks and captured packets have settled, the records are written, 0x8036:00 reads 2 or 3, and CLOSING ends. -/
  | preemptionComplete
  /-- REF_LOSS (R206): A missing or off-frequency reference makes the part hold its quire clocks, stop issue, invalidate time and blot the job with reason CLOCK. -/
  | refLoss (cause : RefCause)
  /-- REF_RETURN (R206): A reference back within limits for 1 ms relocks every generator and sets the time state to FREE. -/
  | refReturn
  /-- STRETCH_START (R210): A nominal margin below 15 ps makes the quire stretch every cycle from two cycles later. -/
  | stretchStart (k : QuireId) (slacks : Slacks)
  /-- STRETCH_END (R210): Stretching ends after eight consecutive samples with a nominal margin of 15 ps or more. -/
  | stretchEnd (k : QuireId) (found : StretchReport)
  /-- STRETCH_OVERRUN (R213): A quire's stretch count reaching 2,950 in a line requests a pen-lift for line L + 2 when a plan is applied, and is counted. -/
  | stretchOverrun (k : QuireId) (cycles : Nat)
  /-- CLOCK_MARGIN (R211): An in-use margin below 0 ps or a loss of quire lock stops the quire clock and blots the job with reason CLOCK. -/
  | clockMargin (k : QuireId) (cause : ClockFail)
  /-- MARGIN_LOW (R209): At the end of each microsecond the lowest margin is recorded, and MARGIN_LOW is raised when it falls below the threshold. -/
  | marginLow (k : QuireId) (samples : List Slacks)
  /-- TIME_CLOCK_TICK (R215): Each 2 GHz tick advances the ruling-time counter by its increment and takes any stroke or line boundary reached. -/
  | timeClockTick
  /-- LINE_BOUNDARY (R236): At each line boundary the part fires or pauses the calendars, advances the plan line count, updates the time servo and writes the stroke-use maps. -/
  | lineBoundary (cycles : List (QuireId × Nat))
  /-- STEP_REQUEST (R233): A write of 1 to 0x4705:00 requests a step of ruling time, refused while R217 forbids it. -/
  | stepRequest (order : StepOrder)
  /-- TIME_BLOCK_RECEIVE (R222): A valid TIME block from a neighbour completes an exchange pair, from which the quill delay and offset are computed. -/
  | timeBlockReceive (q : QuillId) (block : BitVec 192) (arrival : Nat) (crcOk : Bool)
  /-- TIME_PARENT_LOSS (R224): A parent quill going down, or four consecutive TIME blocks from it missing, puts the module into HOLDOVER to seek a new parent. -/
  | timeParentLoss
  /-- HOLDOVER_LIMIT_EXPIRY (R224): HOLDOVER lasting longer than the holdover limit while a plan is applied blots the job with reason TIME_LOST. -/
  | holdoverLimitExpiry
  /-- PTP_MESSAGE_RECEIVE (R228): A PTP message on the management port is timestamped and used by the best master clock algorithm and the anchor servo. -/
  | ptpMessageReceive (f : PtpFrame)
  /-- PTP_LOSS (R232): No accepted Sync for 2 s, or no qualified master, makes an anchored root enter anchor holdover or fall back to PPS_IN. -/
  | ptpLoss
  /-- PPS_MISSING (R231): No PPS_IN edge accepted for 2 s makes the root fall back from anchor mode 2 to mode 1. -/
  | ppsMissing
  /-- STROKE_DECISION (R235): At each decision instant each TX calendar entry decides what its stroke's ruled frame holds: DATA, a catch-up copy, or a VOID reason. -/
  | strokeDecision (q : QuillId)
  /-- RX_FRAME_ARRIVAL (R242): A ruled frame arriving in its window is checked and handled by the RX entry of its stroke; a frame outside every window is discarded. -/
  | rxFrameArrival (q : QuillId) (arrival : Nat) (f : Frame) (fec : FecReport)
  /-- ARRIVAL_WINDOW_CLOSE (R242): An arrival window closing with no frame handles the stroke as VOID LOST and counts a missing control field. -/
  | arrivalWindowClose (q : QuillId)
  /-- QUILL_PACKET_ARRIVAL (R244): A KIND QUILL packet reaching the edge port writes its words and sets FULL marks, or waits for them to clear. -/
  | quillPacketArrival (q : QuillId) (src : NibId)
  /-- PENLIFT_BLOCK_RECEIVE (R258): A PENLIFT block received in link control is recorded and relayed on every other trained quill, or discarded as too late. -/
  | penliftBlockReceive (q : QuillId) (block : BitVec 64)
  /-- CONTROL_FIELD_SEND (R272): In every stroke each trained quill direction sends its control field and margin slot, with acknowledgements, credits, reports, items and any link frame. -/
  | controlFieldSend (q : QuillId)
  /-- CONTROL_FIELD_RECEIVE (R274): An intact control field delivers acknowledgements, credit returns, lost-frame reports and link signals; a field failing CCRC is ignored. -/
  | controlFieldReceive (q : QuillId) (ctl : List Byte) (fec : FecReport)
  /-- LINK_FRAME_RECEIVE (R276): A link frame is accepted in sequence, discarded as a duplicate, or discarded with NAKF set. -/
  | linkFrameReceive (q : QuillId) (ctl : List Byte) (slot : List Byte) (fec : FecReport)
  /-- ASEQ_ADVANCE (R277): After 8 accepted frames or 96 ns the receiver advances the cumulative acknowledgement it sends. -/
  | aseqAdvance (q : QuillId)
  /-- LINK_REPLAY (R278): A rising NAKF, or NAKF still set eight strokes after the last replay, makes the sender resend every unacknowledged link frame. -/
  | linkReplay (q : QuillId)
  /-- QUILL_DOWN (R281): A quill goes down on missing control fields, an unacknowledged frame, framing errors, lane lock loss, GOING_DOWN or disable, discarding its traffic and credits. -/
  | quillDown (q : QuillId) (cause : DownCause)
  /-- QUILL_ENABLE (R377): A write of 1 to 0x6041:qq opens the quill function, starting training, or is held while CLOSING. -/
  | quillEnable (sess : SessionId) (q : QuillId)
  /-- QUILL_DISABLE (R282): A write of 0 to 0x6041:qq closes the quill, which sends GOING_DOWN for 16 strokes and goes DOWN. -/
  | quillDisable (sess : SessionId) (q : QuillId)
  /-- QUILL_TRAINING_COMPLETE (R282): A training quill reaching FEC lock enters CHECK and begins IDENT records and TIME blocks. -/
  | quillTrainingComplete (q : QuillId)
  /-- IDENT_RECEIVE (R314): An intact IDENT record is checked against the cable plan, and the quill goes UP once its result is OK and four identical IDENTs have arrived. -/
  | identReceive (q : QuillId) (ctl : List Byte) (slot : List Byte)
  /-- CHECK_TIMEOUT (R314): A quill whose CHECK has lasted 25 ms is taken DOWN and retrains when enabled. -/
  | checkTimeout (q : QuillId)
  /-- MARGIN_PACKET_FORWARD (R285): A margin packet in transit is routed by its remaining DX and DY onto an UP quill, changing virtual channel at datelines, or is discarded. -/
  | marginPacketForward (q : QuillId) (vc : VcId)
  /-- MARGIN_REQUEST_EXECUTE (R296): A responder checks, filters and executes a margin request against nib space or desk, and sends its response. -/
  | marginRequestExecute (at_ : MarginAt)
  /-- MARGIN_RESPONSE_RECEIVE (R297): A response for an outstanding TXID writes its data at RADDR and enqueues the completion EVENT, or triggers an end-to-end re-send. -/
  | marginResponseReceive (at_ : MarginAt)
  /-- REQUEST_TIMEOUT (R301): A request whose timer expires, or whose first-hop quill goes down, is parked or completed ORPHAN. -/
  | requestTimeout (txid : BitVec 16)
  /-- PARK_LIMIT_EXPIRY (R301): A request parked for the park limit completes with status ORPHAN. -/
  | parkLimitExpiry (txid : BitVec 16)
  /-- FILTER_ENTRY_EXPIRY (R299): A duplicate-filter entry is released 1 ms after its request executed. -/
  | filterEntryExpiry
  /-- MIRROR_WRITE (R325): The mirror engine reads newly committed entries in idle well cycles and sends them to the partner as margin WRITEs. -/
  | mirrorWrite (n : NibId)
  /-- MIRROR_MARK (R325): Once every WRITE of a commit has completed OK, the engine sends the mark of the new C to the partner's mark table. -/
  | mirrorMark (n : NibId)
  /-- STAGE_OPEN (R371): Staging command OPEN starts an empty transaction owned by the session. -/
  | stageOpen (sess : SessionId)
  /-- STAGE_CHECK (R371): Staging command CHECK evaluates every apply rule of the staged objects against the present state. -/
  | stageCheck (sess : SessionId)
  /-- STAGE_APPLY (R372): Staging command APPLY schedules a checked transaction at the apply instant in 0x9000:02. -/
  | stageApply (sess : SessionId)
  /-- STAGE_CANCEL (R371): Staging command CANCEL removes a schedule, or is refused TOO_LATE within 10 µs of the apply instant. -/
  | stageCancel (sess : SessionId)
  /-- STAGE_DISCARD (R371): Staging command DISCARD drops the transaction and its staged values. -/
  | stageDiscard (sess : SessionId)
  /-- STAGE_APPLY_INSTANT (R373): At T_a the part re-checks the transaction and applies every staged value and its tied effects in one instant, or fails it. -/
  | stageApplyInstant
  /-- OPENING_END (R319): At the line boundary that ends OPENING, the binding becomes ON and nibs begin issue, or OPENING fails and the binding returns to OFF. -/
  | openingEnd
  /-- HOLD_IN_N_DRAIN (R451): At the first line boundary at least 10 µs after a HOLD_IN_N event, the part acts as if a disable of the job binding were applied. -/
  | holdInNDrain
  /-- PLACE_START (R348): A write of 1 to 0x2B12:00 starts the place engine on its list, or is refused while the binding is not OFF or the engine runs. -/
  | placeStart (sess : SessionId)
  /-- PUT (R344): A PUT entry copies bytes from desk memory into a space of a nib. -/
  | placePut
  /-- GET (R344): A GET entry copies bytes of a nib's space to desk memory. -/
  | placeGet
  /-- FILL (R344): A FILL entry writes zeros into a range of a nib's space. -/
  | placeFill
  /-- START (R347): A START entry marks a nib placed and sets its state fresh, kept, or resumed from the pre-emption record. -/
  | placeStartNib
  /-- PLACE_NOP (R344): A NOP entry of the place list does nothing. -/
  | placeNop
  /-- PLACE_LIST_COMPLETE (R348): When every entry has completed, the place engine sets status DONE. -/
  | placeListComplete
  /-- FAULT_RECORD_CLEAR (R354): A write of 1 to 0x2B15:00 clears the first-fault records, refused unless the binding is OFF. -/
  | faultRecordClear (sess : SessionId)
  /-- OPEN (R361): A LAP OPEN message opens a basic or authenticated expert session. -/
  | lapOpen
  /-- CLOSE (R360): A LAP CLOSE message ends the session, and its staging transaction is treated by state. -/
  | lapClose
  /-- READ (R365): A LAP READ message returns its read items, all seen at one instant. -/
  | lapRead
  /-- WRITE (R366): A LAP WRITE message handles its write items in order, each on its own. -/
  | lapWrite
  /-- KEEPALIVE (R364): A LAP KEEPALIVE message keeps the session alive. -/
  | lapKeepalive
  /-- NONCE (R361): A LAP NONCE message returns a 32 B nonce for one expert OPEN. -/
  | lapNonce
  /-- EVENT_ACK (R379): A LAP EVENT_ACK acknowledges every event record up to its ESEQ. -/
  | lapEventAck
  /-- LEDGER_REGISTER_WRITE (R358): A write item to a register with no row of its own is checked and takes effect, enters staging, or is persisted by its access right. -/
  | ledgerRegisterWrite (sess : SessionId) (index : BitVec 16) (sub : BitVec 8) (value : List Byte)
  /-- EVENT_REPEAT (R379): Every 1 ms the agent repeats unacknowledged event records, at most 8 times. -/
  | eventRepeat
  /-- SESSION_IDLE_TIMEOUT (R360): A session with no message for the idle limit is closed. -/
  | sessionIdleTimeout (sess : SessionId)
  /-- BLOB_ASSEMBLY_TIMEOUT (R365): A segmented BLOB write left incomplete for 1 s is discarded. -/
  | blobAssemblyTimeout (sess : SessionId)
  /-- NONCE_EXPIRY (R361): A nonce expires 1 s after issue. -/
  | nonceExpiry
  /-- PROGRESS_CHECK (R384): At each progress-window boundary every checked unit's counter is sampled and compared. -/
  | progressCheck
  /-- HOST_BLOT (R406): A write of 1 to 0x4C04:00 blots the running job with reason HOST. -/
  | hostBlot (sess : SessionId)
  /-- BLOT_ITEM_RECEIVE (R389): An intact BLOT item with a new key is relayed and, for this job, begins the abort; a known key is discarded. -/
  | blotItemReceive (q : QuillId) (item : BitVec 64)
  /-- BLOT_KEY_EXPIRY (R389): A kept BLOT key is released after 1 ms. -/
  | blotKeyExpiry
  /-- ABORT_END (R391): When everything is idle, or 100 µs after it began, the abort ends and the blotter record is written. -/
  | abortEnd
  /-- BLOTTER_RECORD_COMPLETE (R402): A blotter record is completed and the region header updated, after which any needed reset steps begin. -/
  | blotterRecordComplete
  /-- NIB_RESET_REQUEST (R397): A write of step 2 to 0x4C03:00 requests a nib reset of the named physical nib. -/
  | nibResetRequest (sess : SessionId) (nib : BitVec 14)
  /-- COMPUTE_RESET_REQUEST (R397): A write of step 3 to 0x4C03:00 requests a compute-domain reset. -/
  | computeResetRequest (sess : SessionId)
  /-- PART_RESET_REQUEST (R397): A write of step 4 to 0x4C03:00 requests a part reset. -/
  | partResetRequest (sess : SessionId)
  /-- RESET_ESCALATION (R393): A reset step whose timer runs out begins the next step with cause ESCALATION, or takes the part out of service. -/
  | resetEscalation
  /-- COMPUTE_HELD_LIMIT (R395): When the COMPUTE_HELD limit has elapsed, part reset follows. -/
  | computeHeldLimit
  /-- SERVICE_TIME_SAVE (R403): Every second the service time is written to the blotter region header. -/
  | serviceTimeSave
  /-- RETIREMENT_CLEAR (R404): A write of 1 to 0x4C05:00 clears the retirement record at the next part reset. -/
  | retirementClear (sess : SessionId)
  /-- BLOTTER_REGION_MOVE (R399): A write of 0x4C01:00 copies the region header to the new base for the next record. -/
  | blotterRegionMove (sess : SessionId) (base : BitVec 64)
  /-- RDU (R413): A TXL RDU reads a line uncached through a desk window or the control region, with the Prompt Window answered first. -/
  | rdu (tag : BitVec 12)
  /-- RDS (R417): A TXL RDS reads a COH line to be cached shared, allocating a directory entry. -/
  | rds (tag : BitVec 12)
  /-- RDX (R417): A TXL RDX reads a COH line to be cached exclusive, allocating a directory entry. -/
  | rdx (tag : BitVec 12)
  /-- WR (R413): A TXL WR writes enabled bytes through a desk window or the control region, invalidating any companion copy first. -/
  | wr (tag : BitVec 12)
  /-- WB (R417): A TXL WB writes back an E line and makes it I. -/
  | wb (tag : BitVec 12)
  /-- CLN (R417): A TXL CLN drops an S or E line unmodified. -/
  | cln (tag : BitVec 12)
  /-- BIRSP (R417): A TXL BIRSP answers a BINV, with or without modified data, letting the waiting access proceed. -/
  | birsp (tag : BitVec 12)
  /-- BINV_TIMEOUT (R418): A BINV unanswered within the limit takes the link down and clears the directory. -/
  | binvTimeout
  /-- TXL_FLIT_RECEIVE (R410): A TXL flit is corrected, checked and accepted in sequence, or discarded with NAK set; its acknowledgement and credits are taken. -/
  | txlFlitReceive (flit : List Byte)
  /-- TXL_ACK_ADVANCE (R410): The receiver advances ASEQ after 16 accepted flits or 32 ns. -/
  | txlAckAdvance
  /-- TXL_REPLAY (R410): On NAK rising the sender resends every unacknowledged PROTOCOL flit. -/
  | txlReplay
  /-- TXL_FLIT_TIMEOUT (R410): A flit unacknowledged for 10 µs takes the link down. -/
  | txlFlitTimeout
  /-- TXL_LINK_DOWN (R418): The TXL goes down, clears the directory, drops outstanding requests and retrains. -/
  | txlLinkDown
  /-- TXL_LINK_UP (R411): The TXL completes training with fresh sequence and credits, or fails with CREDITS. -/
  | txlLinkUp (rsp data req : Nat)
  /-- MAILBOX_SUBMIT (R425): A companion write of REQ = 1 hands the request buffer's message to the Ledger agent. -/
  | mailboxSubmit
  /-- MAILBOX_RSP_CLEAR (R425): Writing 1 to RSP clears it, letting a held response be placed. -/
  | mailboxRspClear
  /-- MAILBOX_EVT_CLEAR (R425): Writing 1 to EVT clears it, letting a held EVENT message be placed. -/
  | mailboxEvtClear
  /-- MGMT_FRAME_RECEIVE (R427): A management-port frame is served as ARP, neighbour discovery, echo, LAP or PTP, or discarded. -/
  | mgmtFrameReceive (f : MgmtFrame)
  /-- MGMT_AUTONEGOTIATION (R426): The management port auto-negotiates and trains 10GBASE-KR, with Clause 74 FEC when both ends request it. -/
  | mgmtAutonegotiation (partnerFec : Bool)
  /-- GRADE_AND_STEPPING (R428): SMBus command 0x01 returns grade and stepping. -/
  | gradeAndStepping (pec : Bool)
  /-- RECOVERY_STATE (R428): SMBus command 0x02 returns the recovery state. -/
  | recoveryState (pec : Bool)
  /-- DIE_TEMPERATURE (R428): SMBus command 0x03 returns the highest quire die temperature. -/
  | dieTemperature (pec : Bool) (sensors : List Int)
  /-- COOLANT_INLET_TEMPERATURE (R428): SMBus command 0x04 returns the coolant inlet temperature. -/
  | coolantInletTemperature (pec : Bool) (sensor : Int)
  /-- ENVIRONMENT_FLAGS (R428): SMBus command 0x05 returns the environment flags. -/
  | environmentFlags (pec : Bool) (die inlet millivolts : Int)
  /-- SERIAL_NUMBER (R428): SMBus command 0x10 returns the serial number block. -/
  | serialNumber (pec : Bool)
  /-- MAC_AND_IPV4_ADDRESS (R428): SMBus command 0x11 returns the management MAC and IPv4 address block. -/
  | macAndIpv4Address (pec : Bool)
  /-- READ_VIN (R429): PMBus READ_VIN returns the input voltage. -/
  | readVin (pec : Bool) (millivolts : Int)
  /-- READ_IIN (R429): PMBus READ_IIN returns the input current. -/
  | readIin (pec : Bool) (milliamps : Int)
  /-- READ_POUT (R429): PMBus READ_POUT returns the power. -/
  | readPout (pec : Bool) (milliwatts : Int)
  /-- READ_TEMPERATURE_1 (R429): PMBus READ_TEMPERATURE_1 returns the power-stage temperature. -/
  | readTemperature1 (pec : Bool) (eighths : Int)
  /-- READ_TEMPERATURE_2 (R429): PMBus READ_TEMPERATURE_2 returns the die temperature. -/
  | readTemperature2 (pec : Bool) (eighths : Int)
  /-- STATUS_WORD (R429): PMBus STATUS_WORD returns the status word. -/
  | statusWord (pec : Bool)
  /-- STATUS_INPUT (R429): PMBus STATUS_INPUT returns the input status. -/
  | statusInput (pec : Bool)
  /-- STATUS_TEMPERATURE (R429): PMBus STATUS_TEMPERATURE returns the temperature status. -/
  | statusTemperature (pec : Bool)
  /-- CLEAR_FAULTS (R429): PMBus CLEAR_FAULTS clears the reported faults. -/
  | clearFaults (pec : Bool)
  /-- PMBUS_UNSUPPORTED_COMMAND (R429): OPERATION, ON_OFF_CONFIG and output-setting commands are answered with NACK. -/
  | pmbusUnsupportedCommand (code : Byte)
  /-- POWER_UP (R431): With the input applied and MOD_RST_N low, the power stages bring up the rails and raise PWR_GOOD. -/
  | powerUp
  /-- BOOT_SEQUENCE (R431): On release of MOD_RST_N the ROM derives the identity, chooses a slot, verifies and runs stage one and stage two, and starts desk training and the link domain. -/
  | bootSequence
  /-- CONFIRM (R439): Firmware command CONFIRM marks the running TRIAL slot VALID and preferred. -/
  | fwConfirm (sess : SessionId)
  /-- RAISE_FLOOR (R439): Firmware command RAISE_FLOOR blows SVN fuses up to the running image's SVN. -/
  | fwRaiseFloor (sess : SessionId)
  /-- INSTALL (R439): Firmware command INSTALL checks an image in desk memory and writes it to the other slot as TRIAL. -/
  | fwInstall (sess : SessionId)
  /-- REVOKE (R439): Firmware command REVOKE blows the revocation bit of a signing key. -/
  | fwRevoke (sess : SessionId) (key : Byte)
  /-- FIRMWARE_COMMAND_COMPLETE (R439): A running firmware command completes and its status reads done or a failure code. -/
  | firmwareCommandComplete (flashOk : Bool)
  /-- MEAS2_EXTEND (R441): A write to 0x2D04:00 extends MEAS2 with the written value. -/
  | meas2Extend (sess : SessionId) (value : List Byte)
  /-- QUOTE_REQUEST (R443): A write of a nonce to 0x2D10:00 builds and signs a quote and keeps it for the session. -/
  | quoteRequest (sess : SessionId) (nonce : List Byte)
  /-- RESTORE_DEFAULTS (R382): A write of 1 to 0x1001:20 restores every RWP object to its default at the next part reset. -/
  | restoreDefaults (sess : SessionId)
  /-- BLOT_IN_N (R451): A BLOT_IN_N event blots the job with reason EXTERNAL while the binding is ON, and is otherwise ignored. -/
  | blotInN
  /-- HOLD_IN_N (R451): A HOLD_IN_N event schedules a drain of the job when enabled and the binding is ON. -/
  | holdInN
  /-- PPS_IN (R231): A PPS_IN event is timestamped in ruling time and accepted for time unless it is too soon. -/
  | ppsIn (edge : Nat)
  /-- MOD_RST_N_ASSERT (R451): A MOD_RST_N event begins a part reset and holds the module in reset while it stays asserted. -/
  | modRstNAssert
  /-- MOD_RST_N_RELEASE (R451): Deasserting MOD_RST_N starts the part-reset timer and the boot sequence. -/
  | modRstNRelease
  /-- SIDEBAND_REARM (R450): A sideband input deasserted for 1 µs is re-armed. -/
  | sidebandRearm (pin : PinId)
  /-- STUCK (R450): A sideband input asserted for more than 1 s is set STUCK and ignored. -/
  | sidebandStuck (pin : PinId)
  /-- SIDEBAND_REARM_WRITE (R450): A write to 0x4F10:00 clears STUCK on the named input. -/
  | sidebandRearmWrite (sess : SessionId) (value : Byte)
  /-- INPUT_UNDERVOLTAGE (R453): An input below 38 V for 1 ms releases PWR_GOOD and acts as MOD_RST_N low. -/
  | inputUndervoltage
  /-- INPUT_OVERVOLTAGE (R453): An input above 62 V for 1 ms shuts the rails down and releases PWR_GOOD. -/
  | inputOvervoltage
  /-- POWER_STAGE_OVERTEMPERATURE (R453): A power stage at 125 °C shuts the rails down until the input is removed. -/
  | powerStageOvertemperature
  /-- LINK_TEST_OFF (R458): Writing MODE 0 to 0x6060:qq stops the link test. -/
  | linkTestOff (sess : SessionId) (q : QuillId) (value : BitVec 32)
  /-- LINK_TEST_LANE (R460): Writing MODE 1 to 0x6060:qq starts per-lane PRBS generation, checking or loopback on a quill that is OFF. -/
  | linkTestLane (sess : SessionId) (q : QuillId) (value : BitVec 32)
  /-- LINK_TEST_FRAMED (R461): Writing MODE 2 to 0x6060:qq starts framed PRBS31 testing through the quill FEC on a quill that is OFF. -/
  | linkTestFramed (sess : SessionId) (q : QuillId) (value : BitVec 32)
  /-- CHECKER_LOCK (R463): A lane checker locks after 64 consecutive matching symbols. -/
  | checkerLock (q : QuillId) (lane : Fin 4) (symbols : List (BitVec 2))
  /-- CHECKER_LOCK_LOSS (R463): A lane checker with 64 errors in 1,024 symbols drops lock and relocks. -/
  | checkerLockLoss (q : QuillId) (lane : Fin 4) (errors : Nat)
  /-- BYPASS (R465): The JTAG BYPASS instruction selects the bypass register. -/
  | jtagBypass
  /-- IDCODE (R464): The JTAG IDCODE instruction returns the IDCODE. -/
  | jtagIdcode
  /-- SAMPLE_PRELOAD (R465): The JTAG SAMPLE/PRELOAD instruction samples or preloads the boundary register. -/
  | jtagSamplePreload (pins preload : List Bool)
  /-- EXTEST (R465): The JTAG EXTEST instruction drives pins from the boundary register while in reset with power good, or selects BYPASS. -/
  | jtagExtest
  /-- EXTEST_PULSE (R465): The JTAG EXTEST_PULSE instruction tests AC-coupled lanes under IEEE 1149.6, or selects BYPASS. -/
  | jtagExtestPulse
  /-- EXTEST_TRAIN (R465): The JTAG EXTEST_TRAIN instruction tests AC-coupled lanes with a pulse train, or selects BYPASS. -/
  | jtagExtestTrain
  /-- CLAMP (R465): The JTAG CLAMP instruction holds pins from the boundary register, or selects BYPASS. -/
  | jtagClamp
  /-- HIGHZ (R465): The JTAG HIGHZ instruction sets outputs to high impedance, or selects BYPASS. -/
  | jtagHighz
  /-- MANUFACTURING_INSTRUCTION (R465): A Volzin manufacturing instruction, disabled by fuse, selects BYPASS. -/
  | jtagManufacturing (code : Byte)
  /-- TAP_RESET (R464): TRST_N low resets the TAP. -/
  | jtagTapReset
  /-- RESET_STEP_COMPLETE (R393): An engine, nib or compute-domain reset step completes, for a compute-domain reset after the zero-fill of every store, and the module returns to rest with the binding OFF and the recovery state NORMAL. -/
  | resetStepComplete
  /-- TRANSACTION_ID_RELEASE (R295): A transaction ID whose request completed 2 ms earlier becomes free again, letting a KIND MARGIN send that waited for a free ID proceed. -/
  | transactionIdRelease (txid : BitVec 16)
  /-- TXL_REQUEST_COMPLETION (R416): A TXL access to a desk window becomes visible and the part sends its CMP or CMPD, possibly out of order with other requests. -/
  | txlRequestCompletion (tag : BitVec 12)
deriving DecidableEq, Repr

end Sys2Proof
end

