-- ==== Sys2Proof/Config.lean ====
section
/-! DEFINITION. What the spec leaves open: constants with no body, so that no proof can see their values
(log entries 6 and 7). -/

namespace Sys2Proof.Config

/-- The free values (log entry 6): each use takes the next number from the model's own counter `State.fresh`. -/
opaque free : Nat → Nat

/-- The 16-bit inline check of a desk block, from bits 39:6 of its desk-physical address and its 64 bytes (06 R181): the spec names what
it covers and finds, not the code. -/
opaque deskCheck : Nat → List Byte → BitVec 16

/-- ML-DSA verification in pure form (FIPS 204): parameter set 44 or 65, public key, context string, message, signature
(12 R361, 15 R435, R444; log entry 7). -/
opaque mldsaVerify : Nat → List Byte → List Byte → List Byte → List Byte → Bool

/-- The ML-DSA-44 public key that KeyGen_internal derives from ξ (15 R442; log entry 7). -/
opaque identityKey : List Byte → List Byte

/-- The hedged ML-DSA-44 signature by the key of ξ over a message with a context string; the last argument is the signer's
randomness (15 R444; log entry 7). -/
opaque identitySign : List Byte → List Byte → List Byte → Nat → List Byte

end Sys2Proof.Config
end

