-- ==== Sys2Proof/Machine/Bits.lean ====
section
/-! DEFINITION. Bit fields, byte strings and two's-complement readings (00 R7, R8). -/

namespace Sys2Proof.Machine

/-- Bits `hi` down to `lo`, both included, of a number (00 R7). -/
def field (x hi lo : Nat) : Nat := (x >>> lo) % 2 ^ (hi + 1 - lo)

/-- Bit `i` of a number. -/
def bit (x i : Nat) : Bool := field x i i = 1

/-- `x` with bits `hi` down to `lo` replaced by `v`. -/
def setField (x hi lo v : Nat) : Nat :=
  (x >>> (hi + 1)) <<< (hi + 1) + (v % 2 ^ (hi + 1 - lo)) <<< lo + x % 2 ^ lo

/-- The two's-complement reading of the low `n` bits of `x`. -/
def signed (n x : Nat) : Int :=
  let y := x % 2 ^ n
  if y < 2 ^ (n - 1) then (y : Int) else (y : Int) - (2 ^ n : Nat)

/-- The low `n` bits of an integer, as a number (two's complement). -/
def unsigned (n : Nat) (i : Int) : Nat := (i % ((2 ^ n : Nat) : Int)).toNat

/-- `n` bytes of `x`, least significant first (00 R7). -/
def bytesLE : Nat → Nat → List Byte
  | 0, _ => []
  | n + 1, x => BitVec.ofNat 8 x :: bytesLE n (x / 256)

/-- `n` bytes of `x`, most significant first: the order of fabric headers (00 R7, 08 R248). -/
def bytesBE (n x : Nat) : List Byte := (bytesLE n x).reverse

/-- The number a byte string spells, least significant byte first. -/
def natLE : List Byte → Nat
  | [] => 0
  | b :: bs => b.toNat + 256 * natLE bs

/-- The number a byte string spells, most significant byte first. -/
def natBE (bs : List Byte) : Nat := natLE bs.reverse

/-- The ASCII bytes of a text (12 R363, 13 R400). -/
def ascii (s : String) : List Byte := s.toList.map fun c => BitVec.ofNat 8 c.toNat

/-- `bs` cut or zero-filled to `n` bytes. -/
def padTo (n : Nat) (bs : List Byte) : List Byte := (bs ++ List.replicate (n - bs.length) 0).take n

/-- Bytes `off` to `off + n - 1` of a byte string. -/
def slice (bs : List Byte) (off n : Nat) : List Byte := (bs.drop off).take n

/-- Integer bounded below and above. -/
def clampInt (lo hi x : Int) : Int := if x < lo then lo else if hi < x then hi else x

/-- `x` divided by `y`, rounded up. -/
def ceilDiv (x y : Nat) : Nat := (x + y - 1) / y

/-! ### Fractions, for the servos of ruling time (07 R223, R230) -/

/-- A fraction; the denominator is positive in every fraction the model forms. -/
structure Frac where
  num : Int := 0
  den : Nat := 1
deriving DecidableEq, Repr

namespace Frac

/-- An integer. -/
def ofInt (i : Int) : Frac := ⟨i, 1⟩
/-- Sum. -/
def add (x y : Frac) : Frac := if x.den = y.den then ⟨x.num + y.num, x.den⟩ else ⟨x.num * y.den + y.num * x.den, x.den * y.den⟩
/-- Negation. -/
def neg (x : Frac) : Frac := ⟨-x.num, x.den⟩
/-- A fraction divided by a positive number. -/
def divNat (x : Frac) (n : Nat) : Frac := ⟨x.num, x.den * n⟩
/-- A fraction multiplied by an integer. -/
def mulInt (x : Frac) (i : Int) : Frac := ⟨x.num * i, x.den⟩
/-- x < y. -/
def lt (x y : Frac) : Bool := x.num * y.den < y.num * x.den
/-- The largest integer not above. -/
def floor (x : Frac) : Int := x.num / (x.den : Int)
/-- Bounded by `-b` and `b`. -/
def clampTo (b x : Frac) : Frac := if x.lt b.neg then b.neg else if b.lt x then b else x
/-- Magnitude. -/
def abs (x : Frac) : Frac := ⟨x.num.natAbs, x.den⟩

end Frac

end Sys2Proof.Machine
end

