-- ==== Sys2Proof/Machine/Dictionary.lean ====
section
/-! DEFINITION. The object dictionary of the Ledger (12 R355-R359), from the object tables of every chapter
(R60, R99, R148, R174, R204, R233, R263, R304, R330, R354, R382, R406, R430, R445, R466). -/

namespace Sys2Proof.Machine

/-- Types of Ledger values (R356). -/
inductive ObjType where
  | bool
  | u8
  | u16
  | u32
  | u64
  | i32
  | i64
  | str
  | blob
  | time64
deriving DecidableEq, Repr

/-- Access rights (R358). -/
inductive ObjRight where
  | ro
  | rw
  | rws
  | wo
  | rwp
deriving DecidableEq, Repr

/-- Type code (R356). -/
def ObjType.code : ObjType → Nat
  | .bool => 0
  | .u8 => 1
  | .u16 => 2
  | .u32 => 3
  | .u64 => 4
  | .i32 => 5
  | .i64 => 6
  | .str => 8
  | .blob => 9
  | .time64 => 10

/-- Size of a value of a fixed size (R356); 0 for STR and BLOB. -/
def ObjType.size : ObjType → Nat
  | .bool => 1
  | .u8 => 1
  | .u16 => 2
  | .u32 => 4
  | .u64 => 8
  | .i32 => 4
  | .i64 => 8
  | .time64 => 8
  | .str => 0
  | .blob => 0

/-- One row of an object table: indices `first` to `last`, subindices `lo` to `hi`, type, size of a BLOB or STR,
right, expert mark and numeric default. -/
structure ObjEntry where
  first : Nat
  last : Nat
  lo : Nat
  hi : Nat
  type : ObjType
  blob : Nat
  right : ObjRight
  expert : Bool
  dflt : Nat
deriving DecidableEq, Repr

/-- The objects of the Ledger, part 1. -/
def dictionary1 : List ObjEntry := [
  ⟨0x1000, 0x1000, 1, 1, .str, 21, .ro, false, 0⟩,
  ⟨0x1000, 0x1000, 2, 2, .u64, 0, .ro, false, 0⟩,
  ⟨0x1000, 0x1000, 3, 3, .u8, 0, .ro, false, 0⟩,
  ⟨0x1000, 0x1000, 4, 4, .u8, 0, .ro, false, 0⟩,
  ⟨0x1000, 0x1000, 5, 5, .u32, 0, .ro, false, 0⟩,
  ⟨0x1000, 0x1000, 6, 6, .u8, 0, .ro, false, 1⟩,
  ⟨0x1001, 0x1001, 1, 1, .u16, 0, .rwp, true, 6100⟩,
  ⟨0x1001, 0x1001, 2, 2, .blob, 4, .rwp, true, 0⟩,
  ⟨0x1001, 0x1001, 3, 3, .blob, 16, .rwp, true, 0⟩,
  ⟨0x1001, 0x1001, 4, 4, .blob, 6, .ro, false, 0⟩,
  ⟨0x1001, 0x1001, 5, 5, .u32, 0, .rw, true, 30000⟩,
  ⟨0x1001, 0x1001, 8, 8, .bool, 0, .rwp, true, 1⟩,
  ⟨0x1001, 0x1001, 16, 19, .blob, 32, .rwp, true, 0⟩,
  ⟨0x1001, 0x1001, 32, 32, .bool, 0, .wo, true, 0⟩,
  ⟨0x1002, 0x1002, 1, 1, .u16, 0, .ro, false, 0⟩,
  ⟨0x1002, 0x1002, 2, 2, .u16, 0, .ro, false, 64⟩,
  ⟨0x1002, 0x1002, 3, 3, .u32, 0, .ro, false, 3145728⟩,
  ⟨0x1002, 0x1002, 4, 4, .u32, 0, .ro, false, 262144⟩,
  ⟨0x1002, 0x1002, 5, 5, .u16, 0, .ro, false, 4096⟩,
  ⟨0x1002, 0x1002, 6, 6, .u16, 0, .ro, false, 512⟩,
  ⟨0x1002, 0x1002, 7, 7, .u8, 0, .ro, false, 16⟩,
  ⟨0x1002, 0x1002, 8, 8, .u8, 0, .ro, false, 4⟩,
  ⟨0x1002, 0x1002, 9, 9, .u8, 0, .ro, false, 4⟩,
  ⟨0x1002, 0x1002, 10, 10, .u32, 0, .ro, false, 65536⟩,
  ⟨0x1002, 0x1002, 11, 11, .u16, 0, .ro, false, 24⟩,
  ⟨0x1002, 0x1002, 12, 12, .u16, 0, .ro, false, 1024⟩,
  ⟨0x1002, 0x1002, 13, 13, .u8, 0, .ro, false, 64⟩,
  ⟨0x1002, 0x1002, 14, 14, .u8, 0, .ro, false, 1⟩,
  ⟨0x1002, 0x1002, 15, 15, .u8, 0, .ro, false, 4⟩,
  ⟨0x1003, 0x1003, 1, 1, .blob, 128, .ro, false, 0⟩,
  ⟨0x1003, 0x1003, 2, 2, .blob, 64, .ro, false, 0⟩,
  ⟨0x1004, 0x1004, 1, 6, .u16, 0, .ro, false, 0⟩,
  ⟨0x2600, 0x2600, 0, 63, .u64, 0, .ro, false, 0⟩,
  ⟨0x2601, 0x2601, 0, 63, .blob, 16, .ro, false, 0⟩,
  ⟨0x2620, 0x2620, 0, 0, .bool, 0, .rwp, false, 1⟩,
  ⟨0x2621, 0x2621, 0, 0, .u64, 0, .ro, false, 0⟩,
  ⟨0x2622, 0x2622, 0, 0, .u64, 0, .rws, true, 0⟩,
  ⟨0x2700, 0x2700, 0, 0, .time64, 0, .ro, false, 0⟩,
  ⟨0x2701, 0x2701, 0, 0, .u8, 0, .ro, false, 0⟩,
  ⟨0x2702, 0x2702, 0, 0, .u8, 0, .ro, false, 255⟩,
  ⟨0x2703, 0x2703, 0, 0, .u8, 0, .ro, false, 255⟩,
  ⟨0x2704, 0x2704, 0, 0, .i32, 0, .ro, false, 0⟩,
  ⟨0x2705, 0x2705, 0, 0, .i32, 0, .ro, false, 0⟩,
  ⟨0x2706, 0x2706, 0, 0, .u16, 0, .rws, false, 0⟩,
  ⟨0x2707, 0x2707, 0, 0, .u8, 0, .rws, false, 0⟩]

/-- The objects of the Ledger, part 2. -/
def dictionary2 : List ObjEntry := [
  ⟨0x2708, 0x2708, 0, 0, .i64, 0, .ro, false, 0⟩,
  ⟨0x2709, 0x2709, 0, 0, .u8, 0, .ro, false, 0⟩,
  ⟨0x2801, 0x2801, 0, 0, .u16, 0, .rws, false, 0⟩,
  ⟨0x2802, 0x2802, 0, 0, .u8, 0, .rws, false, 0⟩,
  ⟨0x2803, 0x2803, 0, 0, .u16, 0, .rws, false, 0⟩,
  ⟨0x2804, 0x2804, 0, 0, .u8, 0, .ro, false, 0⟩,
  ⟨0x2805, 0x2805, 0, 0, .u32, 0, .ro, false, 0⟩,
  ⟨0x2900, 0x2900, 0, 0, .u8, 0, .rwp, false, 0⟩,
  ⟨0x2901, 0x2901, 0, 0, .u8, 0, .rws, false, 0⟩,
  ⟨0x2A00, 0x2A00, 0, 0, .u16, 0, .rwp, false, 16383⟩,
  ⟨0x2A01, 0x2A01, 0, 0, .u32, 0, .rws, false, 0⟩,
  ⟨0x2A10, 0x2A10, 0, 0, .u8, 0, .rws, false, 0⟩,
  ⟨0x2A11, 0x2A11, 0, 0, .u8, 0, .ro, false, 0⟩,
  ⟨0x2A20, 0x2A20, 0, 0, .bool, 0, .rws, true, 0⟩,
  ⟨0x2A21, 0x2A21, 0, 0, .u16, 0, .rws, true, 16383⟩,
  ⟨0x2A22, 0x2A22, 0, 63, .u32, 0, .ro, false, 0⟩,
  ⟨0x2A23, 0x2A23, 0, 0, .u64, 0, .rws, true, 0⟩,
  ⟨0x2A24, 0x2A24, 0, 0, .u16, 0, .rws, true, 0⟩,
  ⟨0x2B00, 0x2B00, 0, 0, .blob, 64, .rws, true, 0⟩,
  ⟨0x2B01, 0x2B01, 0, 0, .u8, 0, .ro, false, 0⟩,
  ⟨0x2B02, 0x2B02, 0, 0, .blob, 32, .rws, true, 0⟩,
  ⟨0x2B10, 0x2B10, 0, 0, .u64, 0, .rw, true, 0⟩,
  ⟨0x2B11, 0x2B11, 0, 0, .u32, 0, .rw, true, 0⟩,
  ⟨0x2B12, 0x2B12, 0, 0, .bool, 0, .wo, false, 0⟩,
  ⟨0x2B13, 0x2B13, 0, 0, .u8, 0, .ro, false, 0⟩,
  ⟨0x2B14, 0x2B14, 0, 0, .u32, 0, .ro, false, 0⟩,
  ⟨0x2B15, 0x2B15, 0, 0, .bool, 0, .wo, false, 0⟩,
  ⟨0x2C00, 0x2C00, 0, 0, .u8, 0, .ro, false, 0⟩,
  ⟨0x2C01, 0x2C01, 0, 0, .u8, 0, .ro, false, 0⟩,
  ⟨0x2C02, 0x2C02, 0, 0, .u32, 0, .ro, false, 0⟩,
  ⟨0x2C03, 0x2C03, 0, 0, .u8, 0, .ro, false, 255⟩,
  ⟨0x2C04, 0x2C04, 0, 0, .blob, 16, .ro, false, 0⟩,
  ⟨0x2C05, 0x2C05, 0, 0, .u64, 0, .ro, false, 0⟩,
  ⟨0x2D00, 0x2D00, 0, 0, .u16, 0, .ro, false, 0⟩,
  ⟨0x2D01, 0x2D01, 0, 0, .blob, 1312, .ro, false, 0⟩,
  ⟨0x2D02, 0x2D02, 0, 0, .blob, 4096, .ro, false, 0⟩,
  ⟨0x2D03, 0x2D03, 1, 4, .blob, 32, .ro, false, 0⟩,
  ⟨0x2D04, 0x2D04, 0, 0, .blob, 32, .wo, false, 0⟩,
  ⟨0x2D05, 0x2D05, 1, 2, .blob, 16, .ro, false, 0⟩,
  ⟨0x2D06, 0x2D06, 0, 0, .u8, 0, .ro, false, 0⟩,
  ⟨0x2D07, 0x2D07, 0, 0, .u8, 0, .ro, false, 0⟩,
  ⟨0x2D08, 0x2D08, 0, 0, .u32, 0, .ro, false, 0⟩,
  ⟨0x2D10, 0x2D10, 0, 0, .blob, 32, .wo, false, 0⟩,
  ⟨0x2D11, 0x2D11, 0, 0, .blob, 2932, .ro, false, 0⟩,
  ⟨0x2D20, 0x2D20, 0, 0, .u16, 0, .wo, true, 0⟩]

/-- The objects of the Ledger, part 3. -/
def dictionary3 : List ObjEntry := [
  ⟨0x2D21, 0x2D21, 0, 0, .u8, 0, .ro, false, 0⟩,
  ⟨0x2E00, 0x2E00, 0, 0, .u64, 0, .rws, false, 0⟩,
  ⟨0x2E01, 0x2E01, 0, 0, .u64, 0, .rws, false, 0⟩,
  ⟨0x2E03, 0x2E03, 0, 0, .u8, 0, .ro, false, 0⟩,
  ⟨0x2E04, 0x2E04, 0, 0, .u32, 0, .rws, true, 0⟩,
  ⟨0x2E10, 0x2E10, 1, 8, .u64, 0, .rws, false, 0⟩,
  ⟨0x2F01, 0x2F01, 0, 0, .bool, 0, .rwp, false, 1⟩,
  ⟨0x2F02, 0x2F02, 0, 0, .bool, 0, .ro, false, 0⟩,
  ⟨0x2F10, 0x2F10, 1, 4, .u8, 0, .ro, false, 64⟩,
  ⟨0x4010, 0x4010, 0, 0, .u32, 0, .rw, true, 1024⟩,
  ⟨0x4011, 0x4011, 0, 0, .bool, 0, .rw, true, 1⟩,
  ⟨0x4602, 0x4602, 0, 0, .u8, 0, .rws, true, 0⟩,
  ⟨0x4620, 0x4620, 1, 5, .u8, 0, .rw, true, 0⟩,
  ⟨0x4621, 0x4621, 0, 0, .u32, 0, .rw, true, 10000⟩,
  ⟨0x4622, 0x4622, 0, 0, .u8, 0, .wo, true, 0⟩,
  ⟨0x4623, 0x4623, 0, 0, .bool, 0, .wo, true, 0⟩,
  ⟨0x4624, 0x4624, 0, 0, .u64, 0, .rws, true, 0⟩,
  ⟨0x4625, 0x4625, 0, 0, .u32, 0, .rw, true, 200⟩,
  ⟨0x4626, 0x4626, 0, 0, .u8, 0, .rw, true, 0⟩,
  ⟨0x4700, 0x4700, 0, 0, .u32, 0, .rw, true, 2000⟩,
  ⟨0x4701, 0x4701, 0, 0, .u8, 0, .rw, true, 0⟩,
  ⟨0x4702, 0x4702, 0, 0, .u8, 0, .rw, true, 0⟩,
  ⟨0x4703, 0x4703, 0, 0, .blob, 16, .rw, true, 0⟩,
  ⟨0x4704, 0x4704, 0, 0, .i32, 0, .rw, true, 5⟩,
  ⟨0x4705, 0x4705, 0, 0, .bool, 0, .wo, true, 0⟩,
  ⟨0x4800, 0x4800, 0, 0, .u32, 0, .rw, true, 8⟩,
  ⟨0x4801, 0x4801, 0, 0, .u32, 0, .rw, true, 4096⟩,
  ⟨0x4900, 0x4900, 0, 0, .u32, 0, .rw, true, 200⟩,
  ⟨0x4901, 0x4901, 0, 0, .u32, 0, .rw, true, 10000⟩,
  ⟨0x4902, 0x4902, 0, 0, .bool, 0, .rw, true, 1⟩,
  ⟨0x4C00, 0x4C00, 0, 0, .u32, 0, .rw, true, 50000⟩,
  ⟨0x4C01, 0x4C01, 0, 0, .u64, 0, .rwp, true, 1063004405760⟩,
  ⟨0x4C02, 0x4C02, 0, 0, .u32, 0, .rw, true, 60000⟩,
  ⟨0x4C03, 0x4C03, 0, 0, .u32, 0, .wo, true, 0⟩,
  ⟨0x4C04, 0x4C04, 0, 0, .bool, 0, .wo, true, 0⟩,
  ⟨0x4C05, 0x4C05, 0, 0, .bool, 0, .wo, true, 0⟩,
  ⟨0x4C06, 0x4C06, 0, 0, .bool, 0, .rw, true, 1⟩,
  ⟨0x4D00, 0x4D00, 0, 0, .u64, 0, .rw, true, 0⟩,
  ⟨0x4D01, 0x4D01, 0, 0, .u32, 0, .rw, true, 0⟩,
  ⟨0x4E00, 0x4E00, 0, 0, .u32, 0, .rw, true, 4000⟩,
  ⟨0x4F10, 0x4F10, 0, 0, .u8, 0, .wo, true, 0⟩,
  ⟨0x4F11, 0x4F11, 0, 0, .bool, 0, .rwp, true, 0⟩,
  ⟨0x5000, 0x500F, 0, 255, .blob, 16, .rw, true, 0⟩,
  ⟨0x6020, 0x6020, 0, 15, .i32, 0, .rws, true, 0⟩,
  ⟨0x6021, 0x6021, 0, 15, .u32, 0, .ro, false, 0⟩]

/-- The objects of the Ledger, part 4. -/
def dictionary4 : List ObjEntry := [
  ⟨0x6022, 0x6022, 0, 15, .u64, 0, .ro, false, 0⟩,
  ⟨0x6030, 0x6030, 0, 15, .blob, 8192, .rw, true, 0⟩,
  ⟨0x6031, 0x6031, 0, 15, .blob, 8192, .rw, true, 0⟩,
  ⟨0x6032, 0x6032, 0, 15, .blob, 4096, .rw, true, 0⟩,
  ⟨0x6033, 0x6033, 0, 15, .u64, 0, .ro, false, 0⟩,
  ⟨0x6034, 0x6034, 0, 15, .u64, 0, .ro, false, 0⟩,
  ⟨0x6035, 0x6035, 0, 15, .u64, 0, .ro, false, 0⟩,
  ⟨0x6036, 0x6036, 0, 15, .u64, 0, .ro, false, 0⟩,
  ⟨0x6037, 0x6037, 0, 15, .u64, 0, .ro, false, 0⟩,
  ⟨0x6038, 0x6038, 0, 15, .i32, 0, .ro, false, 0⟩,
  ⟨0x6039, 0x6039, 0, 15, .i32, 0, .ro, false, 0⟩,
  ⟨0x603A, 0x603A, 0, 15, .blob, 256, .ro, false, 0⟩,
  ⟨0x603B, 0x603B, 0, 15, .u64, 0, .ro, false, 0⟩,
  ⟨0x6040, 0x6040, 0, 15, .u8, 0, .ro, false, 0⟩,
  ⟨0x6041, 0x6041, 0, 15, .u8, 0, .rw, false, 1⟩,
  ⟨0x6042, 0x6042, 0, 15, .u64, 0, .ro, false, 0⟩,
  ⟨0x6043, 0x6043, 0, 15, .u64, 0, .ro, false, 0⟩,
  ⟨0x6044, 0x6044, 0, 15, .u64, 0, .ro, false, 0⟩,
  ⟨0x6045, 0x6045, 0, 15, .u64, 0, .ro, false, 0⟩,
  ⟨0x6046, 0x6046, 0, 15, .u64, 0, .ro, false, 0⟩,
  ⟨0x6047, 0x6047, 0, 15, .u32, 0, .ro, false, 0⟩,
  ⟨0x6048, 0x6048, 0, 15, .u32, 0, .rw, false, 0⟩,
  ⟨0x6049, 0x6049, 0, 15, .u64, 0, .ro, false, 0⟩,
  ⟨0x604B, 0x604B, 0, 15, .u64, 0, .ro, false, 0⟩,
  ⟨0x604C, 0x604C, 0, 15, .u64, 0, .ro, false, 0⟩,
  ⟨0x604D, 0x604D, 0, 15, .bool, 0, .rws, true, 0⟩,
  ⟨0x604E, 0x604E, 0, 15, .u64, 0, .ro, false, 0⟩,
  ⟨0x6050, 0x6050, 0, 15, .u64, 0, .rws, true, 0⟩,
  ⟨0x6052, 0x6052, 0, 15, .u8, 0, .ro, false, 0⟩,
  ⟨0x6053, 0x6053, 0, 15, .u32, 0, .ro, false, 0⟩,
  ⟨0x6054, 0x6054, 0, 15, .u64, 0, .ro, false, 0⟩,
  ⟨0x6058, 0x6058, 0, 15, .u8, 0, .ro, false, 0⟩,
  ⟨0x6060, 0x6060, 0, 15, .u32, 0, .rw, true, 0⟩,
  ⟨0x6061, 0x6061, 0, 15, .u64, 0, .ro, false, 0⟩,
  ⟨0x6062, 0x6062, 0, 15, .u64, 0, .ro, false, 0⟩,
  ⟨0x6063, 0x6063, 0, 15, .u64, 0, .ro, false, 0⟩,
  ⟨0x6064, 0x6064, 0, 15, .u64, 0, .ro, false, 0⟩,
  ⟨0x6065, 0x6065, 0, 15, .u64, 0, .ro, false, 0⟩,
  ⟨0x6066, 0x6066, 0, 15, .u32, 0, .ro, false, 0⟩,
  ⟨0x7010, 0x7010, 0, 15, .u64, 0, .ro, false, 0⟩,
  ⟨0x7011, 0x7011, 0, 15, .u64, 0, .ro, false, 0⟩,
  ⟨0x7012, 0x7012, 0, 15, .u64, 0, .ro, false, 0⟩,
  ⟨0x7013, 0x7013, 0, 15, .u64, 0, .ro, false, 0⟩,
  ⟨0x7014, 0x7014, 0, 15, .u64, 0, .ro, false, 0⟩,
  ⟨0x7015, 0x7015, 0, 15, .u64, 0, .ro, false, 0⟩]

/-- The objects of the Ledger, part 5. -/
def dictionary5 : List ObjEntry := [
  ⟨0x7016, 0x7016, 0, 15, .u64, 0, .ro, false, 0⟩,
  ⟨0x7017, 0x7017, 0, 15, .u64, 0, .ro, false, 0⟩,
  ⟨0x7018, 0x7018, 0, 15, .u64, 0, .ro, false, 0⟩,
  ⟨0x7019, 0x7019, 0, 15, .u64, 0, .ro, false, 0⟩,
  ⟨0x701A, 0x701A, 0, 15, .u64, 0, .ro, false, 0⟩,
  ⟨0x701B, 0x701B, 0, 15, .u64, 0, .ro, false, 0⟩,
  ⟨0x701C, 0x701C, 0, 15, .u64, 0, .ro, false, 0⟩,
  ⟨0x701D, 0x701D, 0, 15, .u64, 0, .ro, false, 0⟩,
  ⟨0x7020, 0x7020, 0, 15, .u32, 0, .ro, false, 4000⟩,
  ⟨0x7021, 0x7021, 0, 15, .u64, 0, .ro, false, 0⟩,
  ⟨0x7022, 0x7022, 0, 15, .u32, 0, .rw, false, 0⟩,
  ⟨0x7023, 0x7023, 0, 15, .u64, 0, .ro, false, 0⟩,
  ⟨0x7024, 0x7024, 0, 15, .i32, 0, .ro, false, 0⟩,
  ⟨0x7025, 0x7025, 0, 15, .i32, 0, .ro, false, 0⟩,
  ⟨0x7026, 0x7026, 0, 15, .u64, 0, .ro, false, 0⟩,
  ⟨0x7030, 0x7030, 0, 15, .u64, 0, .ro, false, 0⟩,
  ⟨0x8010, 0x8010, 0, 0, .u64, 0, .ro, false, 0⟩,
  ⟨0x8020, 0x8020, 0, 0, .u64, 0, .ro, false, 0⟩,
  ⟨0x8021, 0x8021, 0, 0, .u64, 0, .ro, false, 0⟩,
  ⟨0x8022, 0x8022, 0, 0, .u64, 0, .ro, false, 0⟩,
  ⟨0x8023, 0x8023, 0, 0, .u64, 0, .ro, false, 0⟩,
  ⟨0x8030, 0x8030, 0, 0, .u8, 0, .ro, false, 0⟩,
  ⟨0x8030, 0x8030, 1, 64, .blob, 16, .ro, false, 0⟩,
  ⟨0x8031, 0x8031, 0, 0, .u64, 0, .ro, false, 0⟩,
  ⟨0x8032, 0x8032, 0, 0, .u64, 0, .ro, false, 0⟩,
  ⟨0x8033, 0x8033, 0, 0, .u64, 0, .ro, false, 0⟩,
  ⟨0x8034, 0x8034, 0, 0, .u64, 0, .ro, false, 0⟩,
  ⟨0x8035, 0x8035, 0, 0, .bool, 0, .ro, false, 0⟩,
  ⟨0x8036, 0x8036, 0, 0, .u8, 0, .ro, false, 0⟩,
  ⟨0x8037, 0x8037, 0, 0, .u64, 0, .ro, false, 0⟩,
  ⟨0x8038, 0x8038, 0, 0, .u64, 0, .ro, false, 0⟩,
  ⟨0x8040, 0x8040, 0, 0, .u64, 0, .ro, false, 0⟩,
  ⟨0x8041, 0x8041, 0, 0, .u64, 0, .ro, false, 0⟩,
  ⟨0x8042, 0x8042, 0, 0, .u64, 0, .ro, false, 0⟩,
  ⟨0x8043, 0x8043, 0, 0, .time64, 0, .ro, false, 0⟩,
  ⟨0x8044, 0x8044, 0, 0, .u64, 0, .ro, false, 0⟩,
  ⟨0x8045, 0x8045, 0, 0, .u64, 0, .ro, false, 0⟩,
  ⟨0x8046, 0x8046, 0, 0, .u64, 0, .ro, false, 0⟩,
  ⟨0x8047, 0x8047, 0, 0, .u64, 0, .ro, false, 0⟩,
  ⟨0x8050, 0x8050, 0, 0, .u64, 0, .ro, false, 0⟩,
  ⟨0x8051, 0x8051, 0, 0, .u64, 0, .ro, false, 0⟩,
  ⟨0x8052, 0x8052, 0, 0, .u64, 0, .ro, false, 0⟩,
  ⟨0x8053, 0x8053, 0, 0, .u64, 0, .ro, false, 0⟩,
  ⟨0x8054, 0x8054, 0, 0, .u64, 0, .ro, false, 0⟩,
  ⟨0x8055, 0x8055, 0, 0, .u32, 0, .ro, false, 0⟩]

/-- The objects of the Ledger, part 6. -/
def dictionary6 : List ObjEntry := [
  ⟨0x8060, 0x8060, 1, 2, .u64, 0, .ro, false, 0⟩,
  ⟨0x8061, 0x8061, 1, 2, .u64, 0, .ro, false, 0⟩,
  ⟨0x8062, 0x8062, 0, 0, .u64, 0, .ro, false, 0⟩,
  ⟨0x8063, 0x8063, 0, 0, .u64, 0, .ro, false, 0⟩,
  ⟨0x8064, 0x8064, 0, 0, .u64, 0, .ro, false, 0⟩,
  ⟨0x8065, 0x8065, 0, 0, .u64, 0, .ro, false, 0⟩,
  ⟨0x8066, 0x8066, 0, 0, .u64, 0, .ro, false, 0⟩,
  ⟨0x8067, 0x8067, 0, 0, .u64, 0, .ro, false, 0⟩,
  ⟨0x8068, 0x8068, 0, 0, .u64, 0, .ro, false, 0⟩,
  ⟨0x8069, 0x8069, 0, 0, .u64, 0, .ro, false, 0⟩,
  ⟨0x8070, 0x8070, 0, 0, .u64, 0, .ro, false, 0⟩,
  ⟨0x8071, 0x8071, 0, 0, .u64, 0, .ro, false, 0⟩,
  ⟨0x8080, 0x8080, 0, 0, .u32, 0, .ro, false, 0⟩,
  ⟨0x8081, 0x8081, 0, 0, .u32, 0, .ro, false, 0⟩,
  ⟨0x8082, 0x8082, 0, 0, .u64, 0, .ro, false, 0⟩,
  ⟨0x8090, 0x8090, 0, 0, .u32, 0, .ro, false, 0⟩,
  ⟨0x8090, 0x8090, 1, 64, .blob, 24, .ro, false, 0⟩,
  ⟨0x8091, 0x8091, 0, 0, .u64, 0, .ro, false, 0⟩,
  ⟨0x8092, 0x8092, 0, 0, .u64, 0, .ro, false, 0⟩,
  ⟨0x8093, 0x8093, 0, 0, .u64, 0, .ro, false, 0⟩,
  ⟨0x8094, 0x8094, 0, 0, .u64, 0, .ro, false, 0⟩,
  ⟨0x80A0, 0x80A0, 0, 0, .u64, 0, .ro, false, 0⟩,
  ⟨0x80A1, 0x80A1, 0, 0, .u64, 0, .ro, false, 0⟩,
  ⟨0x80A2, 0x80A2, 0, 0, .u64, 0, .ro, false, 0⟩,
  ⟨0x80A3, 0x80A3, 0, 0, .u64, 0, .ro, false, 0⟩,
  ⟨0x80A4, 0x80A4, 0, 0, .u64, 0, .ro, false, 0⟩,
  ⟨0x80A5, 0x80A5, 1, 4, .u64, 0, .ro, false, 0⟩,
  ⟨0x80A6, 0x80A6, 0, 0, .u64, 0, .ro, false, 0⟩,
  ⟨0x80D0, 0x80D0, 0, 0, .u64, 0, .ro, false, 0⟩,
  ⟨0x80E0, 0x80E0, 0, 0, .u64, 0, .ro, false, 0⟩,
  ⟨0x80E1, 0x80E1, 0, 0, .u64, 0, .ro, false, 0⟩,
  ⟨0x80E2, 0x80E2, 0, 0, .u64, 0, .ro, false, 0⟩,
  ⟨0x80E3, 0x80E3, 0, 0, .u64, 0, .ro, false, 0⟩,
  ⟨0x80E4, 0x80E4, 0, 0, .u64, 0, .ro, false, 0⟩,
  ⟨0x80E5, 0x80E5, 0, 0, .u64, 0, .ro, false, 0⟩,
  ⟨0x80E6, 0x80E6, 0, 0, .u64, 0, .ro, false, 0⟩,
  ⟨0x80E7, 0x80E7, 0, 0, .u64, 0, .ro, false, 0⟩,
  ⟨0x80F0, 0x80F0, 0, 0, .u64, 0, .ro, false, 0⟩,
  ⟨0x80F1, 0x80F1, 0, 0, .u64, 0, .ro, false, 0⟩,
  ⟨0x80F2, 0x80F2, 1, 4, .u64, 0, .ro, false, 0⟩,
  ⟨0x80F3, 0x80F3, 1, 4, .u64, 0, .ro, false, 0⟩,
  ⟨0x80F4, 0x80F4, 0, 0, .u64, 0, .ro, false, 0⟩,
  ⟨0x9000, 0x9000, 1, 1, .u8, 0, .wo, false, 0⟩,
  ⟨0x9000, 0x9000, 2, 2, .time64, 0, .rw, false, 0⟩,
  ⟨0x9001, 0x9001, 0, 0, .u8, 0, .ro, false, 0⟩]

/-- The objects of the Ledger, part 7. -/
def dictionary7 : List ObjEntry := [
  ⟨0x9002, 0x9002, 0, 0, .u16, 0, .ro, false, 0⟩,
  ⟨0x9003, 0x9003, 0, 0, .u64, 0, .ro, false, 0⟩,
  ⟨0x9004, 0x9004, 0, 0, .u16, 0, .ro, false, 0⟩,
  ⟨0x9005, 0x9005, 0, 0, .time64, 0, .ro, false, 0⟩]

/-- The object dictionary. -/
def dictionary : List ObjEntry :=
  dictionary1 ++ dictionary2 ++ dictionary3 ++ dictionary4 ++ dictionary5 ++ dictionary6 ++ dictionary7

/-- Size in bytes of an object's value. -/
def ObjEntry.size (e : ObjEntry) : Nat := if e.type.size = 0 then e.blob else e.type.size

/-- Some object has this index. -/
def indexKnown (index : Nat) : Bool := dictionary.any fun e => e.first ≤ index && index ≤ e.last

/-- The table row of an object. -/
def lookupObj (index sub : Nat) : Option ObjEntry :=
  dictionary.find? fun e => e.first ≤ index && index ≤ e.last && e.lo ≤ sub && sub ≤ e.hi

/-- Default of a numeric object: its table's value; the five actions of 0x4620 read 0, 1, 1, 1, 1 (R204). -/
def objDefault (index sub : Nat) : Nat :=
  if index = 0x4620 then (if sub = 1 then 0 else 1)
  else
    match lookupObj index sub with
    | some e => e.dflt
    | none => 0

end Sys2Proof.Machine
end

