-- ==== Sys2Proof/Machine/Crc.lean ====
section
/-! DEFINITION. The cyclic redundancy codes of the fabric: most significant bit first, no reflection (08 R249; 09 R274,
R293). -/

namespace Sys2Proof.Machine

/-- One bit taken into a CRC register of `w` bits with generator `poly`. -/
def crcBit (w poly reg : Nat) (b : Bool) : Nat :=
  let r := reg * 2 % 2 ^ w
  if reg.testBit (w - 1) ^^ b then r ^^^ poly else r

/-- The low `n` bits of `x` taken into the register, most significant first. -/
def crcBits (w poly : Nat) : Nat → Nat → Nat → Nat
  | 0, _, reg => reg
  | n + 1, x, reg => crcBits w poly n x (crcBit w poly reg (x.testBit n))

/-- Bytes taken into the register in order. -/
def crcBytes (w poly : Nat) (bs : List Byte) (reg : Nat) : Nat :=
  bs.foldl (fun r b => crcBits w poly 8 b.toNat r) reg

/-- CRC-64 of bytes (R249). -/
def crc64 (bs : List Byte) : Nat := crcBytes 64 0x42F0E1EBA9EA3693 bs (2 ^ 64 - 1) ^^^ (2 ^ 64 - 1)

/-- CRC-32 of bytes (R274). -/
def crc32 (bs : List Byte) : Nat := crcBytes 32 0x1EDC6F41 bs (2 ^ 32 - 1) ^^^ (2 ^ 32 - 1)

/-- CRC-16 of the low `n` bits of a number (R293): it starts at zero and is not inverted. -/
def crc16 (n x : Nat) : Nat := crcBits 16 0x8BB7 n x 0

end Sys2Proof.Machine
end

