-- ==== Sys2Proof/Machine/BootState.lean ====
section
/-! DEFINITION. The state of boot, flash, fuses, the sideband pins and the TAP (15, 16). Plain data. -/

namespace Sys2Proof.Machine

/-- A slot record of the boot directory (R434); `st` is its STATE: 0 EMPTY, 1 VALID, 2 TRIAL, 3 BAD. -/
structure SlotRec where
  fwver : Nat := 0
  svn : Nat := 0
  st : Nat := 0
  tries : Nat := 0
  pref : Bool := false
  len : Nat := 0
deriving DecidableEq, Repr

/-- A persisted object whose latest flash write failed (12 R358): its key, and the numeric and BLOB entries that the flash still holds. -/
structure Unsaved where
  key : Nat
  num : Option Nat
  blob : List Byte
deriving DecidableEq, Repr

/-- The boot flash (R433): generation and slot records of the directory in force, the images, the retirement record, the
boot count and the identity certificate. The persisted RWP values are the values the module holds, those of `unsaved` apart (R358). -/
structure Flash where
  gen : Nat := 0
  slotA : SlotRec := { st := 1, pref := true }
  slotB : SlotRec := {}
  imageA : Memory := []
  imageB : Memory := []
  retired : List Byte := []
  boots : Nat := 0
  cert : List Byte := []
  unsaved : List Unsaved := []
deriving DecidableEq, Repr

/-- Where the module stands between power and stage two (R431, R440). -/
inductive BootPhase where
  | off
  | held
  | booting
  | running
  | failed (code : Nat)
deriving DecidableEq, Repr

/-- Boot (R431-R441): the slot booted, the code of a slot rejected in this boot, what the running image says of itself, when the
part-reset timer started, the firmware command that runs, and whether RWP defaults or a cleared retirement record wait for
the next part reset. -/
structure Boot where
  phase : BootPhase := .running
  slot : Nat := 0
  rejected : Nat := 0
  fwver : Nat := 0
  svn : Nat := 0
  key : Nat := 0
  started : Nat := 0
  job : Option (Nat × Nat) := none
  restore : Bool := false
deriving DecidableEq, Repr

/-- What the fuses hold (R3, R334, R382, R438). -/
structure Fuses where
  grade : Nat := 0
  stepping : Nat := 1
  serial : Nat := 0
  mac : List Byte := [0, 0, 0, 0, 0, 0]
  rowMap : List Nat := List.range 128
  colMap : List Nat := (List.range 64).map fun c => if c < 32 then c else c + 1
  keys : List (List Byte) := []
  revoked : List Nat := []
  floor : Nat := 0
  seed : List Byte := []
deriving DecidableEq, Repr

/-- A sideband input behind its glitch filter (R449, R450): `since` is when the level took its value. -/
structure Pin where
  armed : Bool := true
  stuck : Bool := false
  level : Bool := false
  since : Nat := 0
deriving DecidableEq, Repr

/-- The sideband pins (R449-R453): the inputs by PinId, when a drain of HOLD_IN_N may run, the latest PPS_IN event accepted, until
when BLOT_OUT_N is low, PWR_GOOD, and whether a power stage has tripped. -/
structure Pins where
  inputs : SMap Pin := []
  holdAt : Option Nat := none
  lastPps : Option Nat := none
  blotOutUntil : Nat := 0
  pwrGood : Bool := true
  tripped : Bool := false
deriving DecidableEq, Repr

/-- The TAP's instructions (R465). -/
inductive JtagInstr where
  | bypass
  | idcode
  | samplePreload
  | extest
  | extestPulse
  | extestTrain
  | clamp
  | highz
deriving DecidableEq, Repr

/-- The TAP (R464, R465): the current instruction, the data register captured, the boundary register's update stage, and the
instruction register's capture. -/
structure Tap where
  instr : JtagInstr := .idcode
  data : List Bool := []
  boundary : List Bool := []
  irCapture : Nat := 1
deriving DecidableEq, Repr

end Sys2Proof.Machine
end

