-- ==== Sys2Proof/Machine/DeskState.lean ====
section
/-! DEFINITION. The state of the desk domain (06): memory, translation, fault entries, pre-emption. Plain data. -/

namespace Sys2Proof.Machine

/-- A fault entry (R196), field by field, with the ruling time of the fault whole and the nib's virtual index. -/
structure FaultEntry where
  nib : Nat
  rq : Nat
  cause : Nat
  store : Bool
  pos : Nat
  st : Nat
  chunk : Nat
  va : Nat
  time : Nat
  virt : Nat := 0
deriving DecidableEq, Repr

/-- Pre-emption (R199): status 0 idle, 1 running, 2 complete, 3 incomplete, its apply instant, and whether the
deadline has passed. -/
structure Preempt where
  status : Nat := 0
  t0 : Nat := 0
  drained : Bool := false
deriving DecidableEq, Repr

/-- What the model keeps of one DRAM channel (R176): its refresh rate, the counts of per-bank refreshes, of refresh-management commands
and of retraining windows, and when the latest window ends. -/
structure Channel where
  mr4 : Nat := 0
  refreshes : Nat := 0
  rfm : Nat := 0
  retrains : Nat := 0
  retrainEnd : Nat := 0
deriving DecidableEq, Repr

/-- The companion's hold on a line (14 R417). -/
inductive Line where
  | shared
  | exclusive
deriving DecidableEq, Repr

/-- An entry of the coherence directory (14 R417): the desk line (address / 64), its state, and the TXL line address by which the
companion knows it. -/
structure DirEntry where
  line : Nat
  st : Line
  txl : Nat
deriving DecidableEq, Repr

/-- The desk domain. `ecc` holds how many bits of a 64 B block are in error, by block number (R181); `link` and `astray` what the next
read of a block will meet on the way (R177, R181); `eccOn` is the inline-ECC setting in force (R178); `selfRefresh` says that the
devices are in self refresh, and `trainings` counts the initial trainings, the only users of all-bank refresh (R176); `tlb` the translation cache, by virtual page (R187), `tlbGen` counts
flushes, and `flushing` holds the generation a flush in progress waits for; `directory` is in order of allocation, oldest first,
and `prompt` is the Prompt Window by offset (14 R417, R422). -/
structure Desk where
  mem : Memory := []
  ecc : SMap Nat := []
  link : SMap (Option LinkEcc) := []
  astray : SMap (Option Nat) := []
  eccOn : Bool := true
  selfRefresh : Bool := false
  trainings : Nat := 0
  tlb : SMap Nat := []
  tlbGen : Nat := 0
  flushing : Option Nat := none
  entries : SMap (Option FaultEntry) := []
  preempt : Preempt := {}
  channels : SMap Channel := []
  directory : List DirEntry := []
  prompt : Memory := []
deriving DecidableEq, Repr

end Sys2Proof.Machine
end

