-- ==== Sys2Proof/Machine/LedgerState.lean ====
section
/-! DEFINITION. The state of the Ledger agent: sessions, staging, events, functions (12). Plain data. -/

namespace Sys2Proof.Machine

/-- Status codes of the Ledger (R368), in the order of their codes. -/
inductive LapStatus where
  | ok
  | noObject
  | noSubindex
  | type
  | range
  | readOnly
  | writeOnly
  | level
  | noSession
  | noStage
  | stageBusy
  | state
  | tooLate
  | check
  | flash
  | busy
  | seq
  | auth
  | format
  | notStaged
  | partial_
deriving DecidableEq, Repr

/-- State of a function (R376). -/
inductive FnCode where
  | off
  | opening
  | on
  | closing
deriving DecidableEq, Repr

/-- A function: its state and the PENDING and FAILED flags (R376). -/
structure FnState where
  code : FnCode := .off
  pending : Bool := false
  failed : Bool := false
deriving DecidableEq, Repr

/-- The number of a function state (R376). -/
def FnCode.num : FnCode → Nat
  | .off => 0
  | .opening => 1
  | .on => 2
  | .closing => 3

/-- The state byte of a function (R376). -/
def FnState.byte (f : FnState) : Nat :=
  (if f.pending then 128 else 0) + (if f.failed then 64 else 0) + f.code.num

/-- A segmented BLOB write in progress (R365): object, total, the bytes written so far by offset, and when the
latest segment came. -/
structure Assembly where
  key : Nat
  total : Nat
  bytes : SMap (Option Byte)
  time : Nat
deriving DecidableEq, Repr

/-- An event record of the log (R378). -/
structure EventRec where
  eseq : Nat
  code : Nat
  param : Nat
  time : Nat
  detail : Nat
deriving DecidableEq, Repr

/-- An event record that a session has not acknowledged, and how often it was repeated (R379). -/
structure PendingEvent where
  record : EventRec
  repeats : Nat
  last : Nat
deriving DecidableEq, Repr

/-- An open session (R360-R367). -/
structure Session where
  id : Nat
  expert : Bool
  source : Source
  evmask : Nat
  lastUse : Nat
  highSeq : Option Nat := none
  kept : List (Nat × List Byte) := []
  assembly : Option Assembly := none
  events : List PendingEvent := []
  quote : List Byte := []
deriving DecidableEq, Repr

/-- A nonce issued to a source (R361). -/
structure Nonce where
  source : Source
  value : List Byte
  issued : Nat
deriving DecidableEq, Repr

/-- State of the staging transaction (R369). -/
inductive StageState where
  | idle
  | open_
  | checked
  | scheduled
  | applied
  | failed
deriving DecidableEq, Repr

/-- The code of a staging state (R369). -/
def StageState.num : StageState → Nat
  | .idle => 0
  | .open_ => 1
  | .checked => 2
  | .scheduled => 3
  | .applied => 4
  | .failed => 5

/-- The staging transaction (R369-R373): the staged values by key index × 256 + subindex, in order of index. -/
structure Staging where
  st : StageState := .idle
  owner : Nat := 0
  vals : SMap (List Byte) := []
  instant : Nat := 0
  firstFail : Nat := 0
  lastApply : Nat := 0
deriving DecidableEq, Repr

/-- A LAP message that waits for the agent (R366): its source and its bytes. -/
structure LapMsg where
  source : Source
  bytes : List Byte
deriving DecidableEq, Repr

/-- A message the agent has sent: where to, from which UDP port, and its bytes (R362, R379). -/
structure LapSent where
  dest : Source
  port : Nat
  bytes : List Byte
deriving DecidableEq, Repr

/-- The Ledger agent. `sent` holds what it has sent to UDP sources; what it sends to the mailbox waits there (14 R425). `lastStatus`
is the status with which the latest command that is a write of one object ended. -/
structure Agent where
  waiting : List LapMsg := []
  sessions : List Session := []
  nextId : Nat := 1
  nonces : List Nonce := []
  staging : Staging := {}
  eseq : Nat := 0
  log : List EventRec := []
  sent : List LapSent := []
  lastStatus : LapStatus := .ok
deriving DecidableEq, Repr

end Sys2Proof.Machine
end

