-- ==== Sys2Proof/Machine/Rounding.lean ====
section
/-! DEFINITION. Rounding of exact values (03 R90-R95): a value is `num / den * 2^e` with exact integers. -/

namespace Sys2Proof.Machine

/-- The rounding modes (R90). -/
inductive RMode where
  | rne
  | rtz
  | sr
deriving DecidableEq, Repr

/-- The 2-bit rounding-mode field; 3 is reserved and refused before any use (R90, R9). -/
def RMode.ofCode (c : Nat) : RMode := if c = 1 then .rtz else if c = 2 then .sr else .rne

/-- The function sr_bits of R91, on 32-bit unsigned integers. -/
def srBits (seed e k : Nat) : Nat :=
  let m := 2 ^ 32
  let x := (seed ^^^ ((e * 0x9E3779B1) % m) ^^^ ((k * 0x85EBCA77) % m)) % m
  let x := x ^^^ (x >>> 16)
  let x := (x * 0x7FEB352D) % m
  let x := x ^^^ (x >>> 15)
  let x := (x * 0x846CA68B) % m
  x ^^^ (x >>> 16)

/-- How one value is rounded: the mode, and the 32 bits that stochastic rounding compares with (R91, R92). -/
structure Rnd where
  mode : RMode
  bits : Nat
deriving DecidableEq, Repr

/-- Round to nearest, ties to even. -/
def Rnd.nearest : Rnd := ⟨.rne, 0⟩

/-- The integer that the quotient `a / b` (b positive) rounds to, and whether it differs from it (R90, R91). -/
def roundQuot (r : Rnd) (a : Int) (b : Nat) : Int × Bool :=
  let lo := a / (b : Int)
  let rem := (a % (b : Int)).toNat
  let up : Bool :=
    match r.mode with
    | .rne => if 2 * rem = b then lo % 2 ≠ 0 else b < 2 * rem
    | .rtz => a < 0 && rem ≠ 0
    | .sr => r.bits < rem * 2 ^ 32 / b
  (if up then lo + 1 else lo, rem ≠ 0)

/-- `num / den * 2^e` counted in units of `2^q` and rounded to an integer. -/
def roundUnits (r : Rnd) (num : Int) (den : Nat) (e q : Int) : Int × Bool :=
  if q ≤ e then roundQuot r (num * (2 ^ (e - q).toNat : Nat)) den
  else roundQuot r num (den * 2 ^ (q - e).toNat)

/-- floor(log2 (num / den)) for positive `num` and `den`. -/
def log2Quot (num den : Nat) : Int :=
  let l : Int := (num.log2 : Int) - (den.log2 : Int)
  let below : Bool := if 0 ≤ l then num < den * 2 ^ l.toNat else num * 2 ^ (-l).toNat < den
  if below then l - 1 else l

end Sys2Proof.Machine
end

