-- ==== Sys2Proof/Machine/Formats.lean ====
section
/-! DEFINITION. Element formats: what an encoding stands for and what a value is written as (03 R61-R65,
R93-R95). -/

namespace Sys2Proof.Machine

/-- The element formats of R61. -/
inductive Fmt where
  | fp32 | bf16 | fp16 | e4m3 | e5m2 | e3m2 | e2m3 | e2m1 | int8 | int4 | wide192 | wide64
deriving DecidableEq, Repr

/-- The format of a descriptor code; codes 0xC-0xF are reserved (R61). -/
def Fmt.ofCode : Nat → Option Fmt
  | 0 => some .fp32
  | 1 => some .bf16
  | 2 => some .fp16
  | 3 => some .e4m3
  | 4 => some .e5m2
  | 5 => some .e3m2
  | 6 => some .e2m3
  | 7 => some .e2m1
  | 8 => some .int8
  | 9 => some .int4
  | 10 => some .wide192
  | 11 => some .wide64
  | _ => none

/-- Bits of one element. -/
def Fmt.bits : Fmt → Nat
  | .fp32 => 32
  | .bf16 => 16
  | .fp16 => 16
  | .e4m3 => 8
  | .e5m2 => 8
  | .e3m2 => 6
  | .e2m3 => 6
  | .e2m1 => 4
  | .int8 => 8
  | .int4 => 4
  | .wide192 => 192
  | .wide64 => 64

/-- A WIDE format (R70, R77). -/
def Fmt.isWide : Fmt → Bool
  | .wide192 => true
  | .wide64 => true
  | _ => false

/-- A lane format of the vector engine in floating point (R118). -/
def Fmt.isLane : Fmt → Bool
  | .fp32 => true
  | .bf16 => true
  | .fp16 => true
  | _ => false

/-- INT8 or INT4. -/
def Fmt.isInt : Fmt → Bool
  | .int8 => true
  | .int4 => true
  | _ => false

/-- The formats that may carry block scales: MXFP8, MXFP6, MXFP4 and MXINT8 (R66). -/
def Fmt.mayScale : Fmt → Bool
  | .e4m3 => true
  | .e5m2 => true
  | .e3m2 => true
  | .e2m3 => true
  | .e2m1 => true
  | .int8 => true
  | _ => false

/-- Row bytes of `e` elements (R106). -/
def Fmt.rowBytes (f : Fmt) (e : Nat) : Nat :=
  match f with
  | .fp32 => 4 * e
  | .bf16 => 2 * e
  | .fp16 => 2 * e
  | .e4m3 => e
  | .e5m2 => e
  | .int8 => e
  | .e3m2 => 3 * ceilDiv e 4
  | .e2m3 => 3 * ceilDiv e 4
  | .e2m1 => ceilDiv e 2
  | .int4 => ceilDiv e 2
  | .wide64 => 8 * e
  | .wide192 => 24 * e

/-- Alignment of a descriptor's base and of its strides (R106). -/
def Fmt.baseAlign : Fmt → Nat
  | .fp32 => 4
  | .bf16 => 2
  | .fp16 => 2
  | .wide64 => 8
  | .wide192 => 8
  | _ => 1

/-- Alignment of strides (R106). -/
def Fmt.strideAlign : Fmt → Nat
  | .e3m2 => 3
  | .e2m3 => 3
  | f => f.baseAlign

/-- The value of one element or contribution: finite values are exact, `num / den * 2^e` with `num` not zero;
a zero keeps its sign (R95); OVF stands in WIDE formats only (R70). -/
inductive Val where
  | nan
  | ovf
  | inf (neg : Bool)
  | zero (neg : Bool)
  | fin (num : Int) (den : Nat) (e : Int)
deriving DecidableEq, Repr

/-- The exact value `num * 2^e`, a zero being +0. -/
def Val.dyadic (num e : Int) : Val := if num = 0 then .zero false else .fin num 1 e

/-- A value multiplied by `2^k`. -/
def Val.scale (v : Val) (k : Int) : Val :=
  match v with
  | .fin n d e => .fin n d (e + k)
  | v => v

/-- The value with its sign changed. -/
def Val.neg : Val → Val
  | .inf s => .inf (!s)
  | .zero s => .zero (!s)
  | .fin n d e => .fin (-n) d e
  | v => v

/-- The value is negative, −0 and −Inf among them. -/
def Val.isNeg : Val → Bool
  | .inf s => s
  | .zero s => s
  | .fin n _ _ => n < 0
  | _ => false

/-- Layout of a floating-point format (R61): exponent bits, mantissa bits, bias, the encoding of the largest
finite magnitude, and whether it has infinities and NaN. -/
structure FloatFmt where
  ebits : Nat
  mbits : Nat
  bias : Int
  maxCode : Nat
  hasInf : Bool
  hasNan : Bool
deriving DecidableEq, Repr

/-- The floating-point layouts of R61. -/
def Fmt.float : Fmt → Option FloatFmt
  | .fp32 => some ⟨8, 23, 127, 0x7F7FFFFF, true, true⟩
  | .bf16 => some ⟨8, 7, 127, 0x7F7F, true, true⟩
  | .fp16 => some ⟨5, 10, 15, 0x7BFF, true, true⟩
  | .e4m3 => some ⟨4, 3, 7, 0x7E, false, true⟩
  | .e5m2 => some ⟨5, 2, 15, 0x7B, true, true⟩
  | .e3m2 => some ⟨3, 2, 3, 0x1F, false, false⟩
  | .e2m3 => some ⟨2, 3, 1, 0x1F, false, false⟩
  | .e2m1 => some ⟨2, 1, 1, 0x7, false, false⟩
  | _ => none

/-- Canonical NaN of a format that has one (R63). -/
def Fmt.nanCode : Fmt → Nat
  | .fp32 => 0x7FC00000
  | .bf16 => 0x7FC0
  | .fp16 => 0x7E00
  | .e5m2 => 0x7F
  | .e4m3 => 0x7F
  | _ => 0

/-- Bits above the exponent field: the sign's weight. -/
def FloatFmt.signBit (f : FloatFmt) : Nat := 2 ^ (f.ebits + f.mbits)

/-- The value of a floating-point encoding (R62). -/
def FloatFmt.decode (f : FloatFmt) (x : Nat) : Val :=
  let neg : Bool := (x / f.signBit) % 2 = 1
  let mag := x % f.signBit
  let m := mag % 2 ^ f.mbits
  let ex := mag / 2 ^ f.mbits
  if f.maxCode < mag then
    if f.hasInf && m = 0 then .inf neg else .nan
  else if mag = 0 then .zero neg
  else
    let sig : Nat := if ex = 0 then m else 2 ^ f.mbits + m
    let e : Int := (if ex = 0 then 1 else (ex : Int)) - f.bias - f.mbits
    .fin (if neg then -(sig : Int) else sig) 1 e

/-- Magnitude code of `n * 2^k`, `n` positive and no more precise than the format allows. -/
def FloatFmt.magCode (f : FloatFmt) (n : Nat) (k : Int) : Nat :=
  let l := n.log2
  let ex : Int := l + k + f.bias
  if 1 ≤ ex then ex.toNat * 2 ^ f.mbits + (n * 2 ^ f.mbits / 2 ^ l - 2 ^ f.mbits)
  else n

/-- What a rounding gives: the encoding, whether R94 marks it for 0x7019, and whether for 0x701A. -/
structure Enc where
  code : Nat
  toZero : Bool := false
  saturated : Bool := false
deriving DecidableEq, Repr

/-- A finite nonzero value rounded into a floating-point format (R93, R94, R95). -/
def FloatFmt.encodeFin (f : FloatFmt) (r : Rnd) (num : Int) (den : Nat) (e : Int) : Enc :=
  let neg : Bool := num < 0
  let emin : Int := 1 - f.bias - f.mbits
  let q := max emin (log2Quot num.natAbs den + e - f.mbits)
  let n := (roundUnits r num den e q).1
  let s := if neg then f.signBit else 0
  if n = 0 then ⟨s, false, false⟩
  else
    let code := f.magCode n.natAbs q
    if f.maxCode < code then
      let c := if f.hasInf && r.mode ≠ .rtz then f.maxCode + 1 else f.maxCode
      ⟨s + c, false, true⟩
    else ⟨s + code, false, false⟩

/-- A value rounded into a floating-point format (R94). -/
def Fmt.encodeFloat (fmt : Fmt) (f : FloatFmt) (r : Rnd) (v : Val) : Enc :=
  match v with
  | .nan => if f.hasNan then ⟨fmt.nanCode, false, false⟩ else ⟨0, true, false⟩
  | .ovf => if f.hasNan then ⟨fmt.nanCode, false, false⟩ else ⟨0, true, false⟩
  | .inf s =>
    if f.hasInf then ⟨(if s then f.signBit else 0) + f.maxCode + 1, false, false⟩
    else ⟨(if s then f.signBit else 0) + f.maxCode, false, true⟩
  | .zero s => ⟨if s then f.signBit else 0, false, false⟩
  | .fin n d e => f.encodeFin r n d e

/-- A value rounded to a two's-complement integer of `n` bits (R94, class Z). -/
def encodeInt (n : Nat) (r : Rnd) (v : Val) : Enc :=
  let hi : Int := 2 ^ (n - 1) - 1
  let lo : Int := -(2 ^ (n - 1))
  match v with
  | .nan => ⟨0, true, false⟩
  | .ovf => ⟨0, true, false⟩
  | .inf s => ⟨unsigned n (if s then lo else hi), false, true⟩
  | .zero _ => ⟨0, false, false⟩
  | .fin num den e =>
    let x := (roundUnits r num den e 0).1
    ⟨unsigned n (clampInt lo hi x), false, x < lo || hi < x⟩

/-- Width of a WIDE format, and the exponent above its window at which a contribution is OVF (R71, R77). -/
def Fmt.wideBits : Fmt → Nat
  | .wide64 => 64
  | _ => 192

/-- A contribution of this magnitude in units of the window is above the window (R72, R77). -/
def Fmt.wideLimit : Fmt → Nat
  | .wide64 => 2 ^ 48
  | _ => 2 ^ 160

/-- A WIDE element (R70, R77). -/
inductive Wide where
  | nan
  | inf (neg : Bool)
  | ovf
  | fin (a : Int)
deriving DecidableEq, Repr

/-- A WIDE element of `n` bits as read (R70). -/
def Wide.decode (n x : Nat) : Wide :=
  let top := field x (n - 1) (n - 2)
  if top = 0 || top = 3 then .fin (signed n x)
  else if top = 2 && field x (n - 3) 2 = 0 then
    match x % 4 with
    | 0 => .nan
    | 1 => .inf false
    | 2 => .inf true
    | _ => .ovf
  else .nan

/-- A WIDE element of `n` bits as written (R70). -/
def Wide.encode (n : Nat) : Wide → Nat
  | .nan => 2 ^ (n - 1)
  | .inf false => 2 ^ (n - 1) + 1
  | .inf true => 2 ^ (n - 1) + 2
  | .ovf => 2 ^ (n - 1) + 3
  | .fin a => unsigned n a

/-- The value of a WIDE element in window `w`. -/
def Wide.val (w : Int) : Wide → Val
  | .nan => .nan
  | .inf s => .inf s
  | .ovf => .ovf
  | .fin a => Val.dyadic a w

/-- Escapes of an operation (R72, R73, R80): below-window, above-window and RANGE escapes, and the flags. -/
structure Escapes where
  below : Nat := 0
  above : Nat := 0
  special : Bool := false
  range : Bool := false
  ovf : Bool := false
deriving DecidableEq, Repr

/-- Escapes of two parts of an operation together. -/
def Escapes.add (x y : Escapes) : Escapes :=
  ⟨x.below + y.below, x.above + y.above, x.special || y.special, x.range || y.range, x.ovf || y.ovf⟩

/-- A contribution placed into window `w` of a WIDE format (R72). -/
def placeVal (f : Fmt) (w : Int) (r : Rnd) (v : Val) : Wide × Escapes :=
  match v with
  | .nan => (.nan, { special := true })
  | .ovf => (.ovf, {})
  | .inf s => (.inf s, { special := true })
  | .zero _ => (.fin 0, {})
  | .fin num den e =>
    let x := roundUnits r num den e w
    if f.wideLimit ≤ x.1.natAbs then (.ovf, { above := 1, ovf := true })
    else (.fin x.1, { below := if x.2 then 1 else 0 })

/-- The sum of two WIDE elements of one window, `n` bits wide (R73). -/
def Wide.add (n : Nat) (x y : Wide) : Wide × Escapes :=
  match x, y with
  | .nan, _ => (.nan, {})
  | _, .nan => (.nan, {})
  | .inf a, .inf b => (if a = b then .inf a else .nan, {})
  | .inf a, _ => (.inf a, {})
  | _, .inf b => (.inf b, {})
  | .ovf, _ => (.ovf, {})
  | _, .ovf => (.ovf, {})
  | .fin a, .fin b =>
    let c := a + b
    if -(2 ^ (n - 2) : Int) ≤ c && c < 2 ^ (n - 2) then (.fin c, {})
    else (.ovf, { above := 1, range := true })

/-- The negation of a WIDE element; that of the lowest finite one is OVF with a RANGE escape (R89). -/
def Wide.neg (n : Nat) : Wide → Wide × Escapes
  | .nan => (.nan, {})
  | .ovf => (.ovf, {})
  | .inf s => (.inf (!s), {})
  | .fin a => if a = -(2 ^ (n - 2) : Int) then (.ovf, { above := 1, range := true }) else (.fin (-a), {})

/-- One element read: its value before any block scale. `mx` says an INT8 tensor has a scale location
(R65); `w` is the descriptor's window exponent. -/
def Fmt.decode (fmt : Fmt) (mx : Bool) (w : Int) (x : Nat) : Val :=
  match fmt with
  | .int8 => (Val.dyadic (signed 8 x) 0).scale (if mx then -6 else 0)
  | .int4 => Val.dyadic (signed 4 x) 0
  | .wide192 => (Wide.decode 192 x).val w
  | .wide64 => (Wide.decode 64 x).val w
  | f =>
    match f.float with
    | some l => l.decode (x % 2 ^ f.bits)
    | none => .nan

/-- A value converted into a destination format (R93, R94), with the escapes of a WIDE destination. -/
def Fmt.encode (fmt : Fmt) (w : Int) (r : Rnd) (v : Val) : Enc × Escapes :=
  match fmt with
  | .int8 => (encodeInt 8 r v, {})
  | .int4 => (encodeInt 4 r v, {})
  | .wide192 =>
    let p := placeVal .wide192 w r v
    (⟨p.1.encode 192, false, false⟩, p.2)
  | .wide64 =>
    let p := placeVal .wide64 w r v
    (⟨p.1.encode 64, false, false⟩, p.2)
  | f =>
    match f.float with
    | some l => (f.encodeFloat l r v, {})
    | none => (⟨0, false, false⟩, {})

end Sys2Proof.Machine
end

