-- ==== Sys2Proof/Machine/Arith.lean ====
section
/-! DEFINITION. Exact arithmetic on values and the functions of the engines (03 R69, R82-R89). -/

namespace Sys2Proof.Machine

/-- The product of two values, formed exactly (R69). -/
def Val.mul (x y : Val) : Val :=
  match x, y with
  | .nan, _ => .nan
  | _, .nan => .nan
  | .ovf, _ => .nan
  | _, .ovf => .nan
  | .inf _, .zero _ => .nan
  | .zero _, .inf _ => .nan
  | .inf a, y => .inf (a ^^ y.isNeg)
  | x, .inf b => .inf (x.isNeg ^^ b)
  | .zero a, y => .zero (a ^^ y.isNeg)
  | x, .zero b => .zero (x.isNeg ^^ b)
  | .fin n d e, .fin n' d' e' => .fin (n * n') (d * d') (e + e')

/-- The sum of two values, formed exactly. An exact sum of zero is +0, unless both are −0 (R84). -/
def Val.add (x y : Val) : Val :=
  match x, y with
  | .nan, _ => .nan
  | _, .nan => .nan
  | .ovf, _ => .nan
  | _, .ovf => .nan
  | .inf a, .inf b => if a = b then .inf a else .nan
  | .inf a, _ => .inf a
  | _, .inf b => .inf b
  | .zero a, .zero b => .zero (a && b)
  | .zero _, y => y
  | x, .zero _ => x
  | .fin n d e, .fin n' d' e' =>
    let m := min e e'
    let s := n * (2 ^ (e - m).toNat : Nat) * d' + n' * (2 ^ (e' - m).toNat : Nat) * d
    if s = 0 then .zero false else .fin s (d * d') m

/-- The order of two values, neither NaN: negative, zero or positive as `x - y` is. −0 and +0 are equal. -/
def Val.cmp (x y : Val) : Int :=
  match x, y with
  | .inf a, .inf b => if a = b then 0 else if a then -1 else 1
  | .inf a, _ => if a then -1 else 1
  | _, .inf b => if b then 1 else -1
  | x, y =>
    match x.add y.neg with
    | .fin n _ _ => n
    | _ => 0

/-- x < y, false when either is NaN (R86). -/
def Val.lt (x y : Val) : Bool := x ≠ .nan && y ≠ .nan && x.cmp y < 0

/-- x = y, false when either is NaN; −0 equals +0 (R86). -/
def Val.eq (x y : Val) : Bool := x ≠ .nan && y ≠ .nan && x.cmp y = 0

/-- x stands below y for min and max, −0 below +0 (R86). -/
def Val.below (x y : Val) : Bool := x.cmp y < 0 || (x.cmp y = 0 && x.isNeg && !y.isNeg)

/-- The smaller value, or the one that is not NaN (R86). -/
def Val.min (x y : Val) : Val :=
  if x = .nan then y else if y = .nan then x else if y.below x then y else x

/-- The larger value, or the one that is not NaN (R86). -/
def Val.max (x y : Val) : Val :=
  if x = .nan then y else if y = .nan then x else if x.below y then y else x

/-- A value rounded to FP32: the value of the encoding, and whether R94 marks the rounding for 0x701A. -/
def roundFp32 (r : Rnd) (v : Val) : Val × Bool :=
  let c := (Fmt.fp32.encode 0 r v).1
  (Fmt.fp32.decode false 0 c.code, c.saturated)

/-! ### The approximate functions (R87, R88) -/

/-- Bits of the fixed-point numbers below. -/
def fixBits : Nat := 320

/-- Terms `t, t*x/1, t*x*x/2, ...` of the exponential series in fixed point, summed; `x` and `t` count units of
`2^-fixBits`. -/
def expSeries : Nat → Nat → Nat → Nat → Nat
  | 0, _, _, _ => 0
  | fuel + 1, k, x, t => t + expSeries fuel (k + 1) x (t * x / 2 ^ fixBits / (k + 1))

/-- Terms `t/1, t*z2/3, t*z2*z2/5, ...` in fixed point, summed. -/
def atanhSeries : Nat → Nat → Nat → Nat → Nat
  | 0, _, _, _ => 0
  | fuel + 1, k, z2, t => t / (2 * k + 1) + atanhSeries fuel (k + 1) z2 (t * z2 / 2 ^ fixBits)

/-- ln of `num / den` for a quotient from 1 to 2, in units of `2^-fixBits`: 2 atanh((x-1)/(x+1)). -/
def lnFix (num den : Nat) : Nat :=
  let z := (num - den) * 2 ^ fixBits / (num + den)
  2 * atanhSeries 110 0 (z * z / 2 ^ fixBits) z

/-- ln 2 in units of `2^-fixBits`. -/
def ln2Fix : Nat := lnFix 2 1

/-- 2^t for a value `t = num * 2^e`. A power of two is exact. Any other result is irrational, and is given to
`fixBits` bits, far beyond what the rounding to FP32 or the 32 bits of SR can tell apart. -/
def exp2Val (num : Int) (e : Int) : Val :=
  -- t as a number of units of 2^-fixBits, cut to the range in which FP32 can tell results apart
  let t : Int := if 0 ≤ e + fixBits then num * (2 ^ (e + fixBits).toNat : Nat)
    else num / (2 ^ (-(e + fixBits)).toNat : Nat)
  let t := clampInt (-(1024 * 2 ^ fixBits : Int)) (1024 * 2 ^ fixBits) t
  let k := t / (2 ^ fixBits : Nat)
  let f := (t % (2 ^ fixBits : Nat)).toNat
  if f = 0 then .fin 1 1 k
  else .fin (expSeries 110 0 (f * ln2Fix / 2 ^ fixBits) (2 ^ fixBits) : Nat) 1 (k - fixBits)

/-- log2 of a positive value `num * 2^e`; exact for a power of two. -/
def log2Val (num : Nat) (e : Int) : Val :=
  let l := num.log2
  let whole : Int := l + e
  if num = 2 ^ l then Val.dyadic whole 0
  else
    let f := lnFix num (2 ^ l) * 2 ^ fixBits / ln2Fix
    Val.dyadic (whole * (2 ^ fixBits : Nat) + f) (-(fixBits : Int))

/-- log2 e in FP32 and ln 2 in FP32 (R87). -/
def log2eVal : Val := Fmt.fp32.decode false 0 0x3FB8AA3B
/-- ln 2 in FP32 (R87). -/
def ln2Val : Val := Fmt.fp32.decode false 0 0x3F317218

/-- exp in an FP32 lane: the exact value that step 2 rounds (R87, R88). Step 1 is not among the roundings that R97 marks (log
entry 33). -/
def expVal (x : Val) : Val :=
  match x with
  | .zero _ => .fin 1 1 0
  | .inf true => .zero false
  | .inf false => .inf false
  | .fin _ _ _ =>
    match (roundFp32 Rnd.nearest (x.mul log2eVal)).1 with
    | .fin n _ e => exp2Val n e
    | .inf true => .zero false
    | .inf false => .inf false
    | _ => .fin 1 1 0
  | _ => .nan

/-- log in an FP32 lane (R87, R88). -/
def logVal (x : Val) : Val :=
  match x with
  | .zero _ => .inf true
  | .inf false => .inf false
  | .fin n _ e => if n < 0 then .nan else (roundFp32 Rnd.nearest (log2Val n.natAbs e)).1.mul ln2Val
  | _ => .nan

/-- rcp in an FP32 lane (R87, R88). -/
def rcpVal (x : Val) : Val :=
  match x with
  | .zero s => .inf s
  | .inf s => .zero s
  | .fin n d e => .fin (if n < 0 then -(d : Int) else d) n.natAbs (-e)
  | _ => .nan

/-! ### Sums -/

/-- Values summed exactly, from the first (R82). -/
def sumVals : List Val → Val
  | [] => .zero false
  | v :: vs => vs.foldl Val.add v

/-- Additions of neighbours at one level of a tree: each by `f` with its own number, an odd last value passing up
(R83, R89). -/
def pairLevel (f : Nat → Val → Val → Val × Bool) : Nat → List Val → List Val × Bool
  | j, a :: b :: vs =>
    let s := f j a b
    let t := pairLevel f (j + 1) vs
    (s.1 :: t.1, s.2 || t.2)
  | _, vs => (vs, false)

/-- A tree of additions over a list; `fuel` levels suffice for a list of `2 ^ fuel` values. The number of the
first addition of each level follows those before it (R92). -/
def pairTree (f : Nat → Val → Val → Val × Bool) : Nat → Nat → List Val → Val × Bool
  | 0, _, vs => (vs.headD (.zero false), false)
  | fuel + 1, j, vs =>
    if vs.length ≤ 1 then (vs.headD (.zero false), false)
    else
      let l := pairLevel f j vs
      let t := pairTree f fuel (j + vs.length / 2) l.1
      (t.1, l.2 || t.2)

/-- The additions of R83 in order SEQ, from group `g`. -/
def seqSum (rnd : Nat → Rnd) : Nat → Val → List Val → Val × Bool
  | _, acc, [] => (acc, false)
  | g, acc, v :: vs =>
    let s := roundFp32 (rnd (2 * g + 1)) (acc.add v)
    let t := seqSum rnd (g + 1) s.1 vs
    (t.1, s.2 || t.2)

/-- The groups of 16 of R82. -/
def groups16 : Nat → List Val → List (List Val)
  | 0, _ => []
  | fuel + 1, vs => if vs.isEmpty then [] else vs.take 16 :: groups16 fuel (vs.drop 16)

/-- Group sums rounded to FP32 (R82), from group `g`, with whether any is marked. -/
def groupSums (rnd : Nat → Rnd) : Nat → List (List Val) → List Val × Bool
  | _, [] => ([], false)
  | g, vs :: gs =>
    let s := roundFp32 (rnd (2 * g)) (sumVals vs)
    let t := groupSums rnd (g + 1) gs
    (s.1 :: t.1, s.2 || t.2)

/-- A dot product in FP32 groups: `products` along K, initial value `i`, `pair` the descriptor's ORDER;
`rnd k` is the rounding at point `k` of R92 (R82, R83). -/
def groupDot (rnd : Nat → Rnd) (pair : Bool) (i : Val) (products : List Val) : Val × Bool :=
  let g := groupSums rnd 0 (groups16 products.length products)
  if pair then
    let t := pairTree (fun j a b => roundFp32 (rnd (0x80000000 + j)) (a.add b)) 17 0 g.1
    let s := roundFp32 (rnd 0xFFFFFFFF) (i.add t.1)
    (s.1, g.2 || t.2 || s.2)
  else
    let s := seqSum rnd 0 i g.1
    (s.1, g.2 || s.2)

/-- A list cut into chunks of `n`. -/
def chunksOf {α : Type} (n : Nat) : Nat → List α → List (List α)
  | 0, _ => []
  | fuel + 1, vs => if vs.isEmpty then [] else vs.take n :: chunksOf n fuel (vs.drop n)

/-- The reduction tree of R89 over floating-point elements, `lanes` at a time: the total before its rounding into
the destination. -/
def reduceFloat (lanes : Nat) (vs : List Val) : Val :=
  let add := fun (_ : Nat) (a b : Val) => roundFp32 Rnd.nearest (a.add b)
  let sums := (chunksOf lanes vs.length vs).map fun c => (pairTree add 7 0 c).1
  match sums with
  | [] => .zero false
  | s :: ss => ss.foldl (fun a b => (add 0 a b).1) s

/-- WIDE elements of one window added in order, with the RANGE escapes met (R73). -/
def sumWide (n : Nat) : Wide → List Wide → Wide × Escapes
  | acc, [] => (acc, {})
  | acc, x :: xs =>
    let s := Wide.add n acc x
    let t := sumWide n s.1 xs
    (t.1, s.2.add t.2)

/-- Neighbouring WIDE elements added, one level of the tree of R89: an odd last one passes up. -/
def widePairs (n : Nat) : List Wide → List Wide × Escapes
  | a :: b :: xs =>
    let s := Wide.add n a b
    let t := widePairs n xs
    (s.1 :: t.1, s.2.add t.2)
  | xs => (xs, {})

/-- The tree of R89 over one chunk of WIDE elements; `fuel` levels suffice for `2 ^ fuel` of them. -/
def wideTree (n : Nat) : Nat → List Wide → Wide × Escapes
  | 0, xs => (xs.headD (.fin 0), {})
  | fuel + 1, xs =>
    if xs.length ≤ 1 then (xs.headD (.fin 0), {})
    else
      let l := widePairs n xs
      let t := wideTree n fuel l.1
      (t.1, l.2.add t.2)

/-- The reduction tree of R89 over WIDE elements, `lanes` at a time, the chunk sums added in order (R73). -/
def reduceWide (n lanes : Nat) (xs : List Wide) : Wide × Escapes :=
  let sums := (chunksOf lanes xs.length xs).map (wideTree n 7)
  let esc := sums.foldl (fun e s => e.add s.2) ({} : Escapes)
  match sums.map Prod.fst with
  | [] => (.fin 0, {})
  | w :: ws =>
    let t := sumWide n w ws
    (t.1, esc.add t.2)

/-- Contributions placed into a window (R72), with their escapes. -/
def placeAll (f : Fmt) (w : Int) (rnd : Nat → Rnd) : Nat → List Val → List Wide × Escapes
  | _, [] => ([], {})
  | k, v :: vs =>
    let p := placeVal f w (rnd k) v
    let t := placeAll f w rnd (k + 1) vs
    (p.1 :: t.1, p.2.add t.2)

end Sys2Proof.Machine
end

