-- ==== Sys2Proof/Machine/Tensor.lean ====
section
/-! DEFINITION. Tensor descriptors, the local address space and the elements of a tensor
(02 R24, R25, R33; 04 R105-R111). -/

namespace Sys2Proof.Machine

/-! ### The descriptor's fields (R105) -/

/-- LEN. -/
def descLen (d : Nat) : Bool := bit d 319
/-- LLVL. -/
def descLlvl (d : Nat) : Nat := field d 318 317
/-- LSTRIDE. -/
def descLstride (d : Nat) : Nat := field d 316 302
/-- SEED. -/
def descSeed (d : Nat) : Nat := field d 127 96
/-- SLSTRIDE. -/
def descSlstride (d : Nat) : Nat := field d 95 87
/-- SBASE. -/
def descSbase (d : Nat) : Nat := field d 86 64
/-- NDIM. -/
def descNdim (d : Nat) : Nat := field d 44 42
/-- SLOC. -/
def descSloc (d : Nat) : Nat := field d 41 40
/-- WEXP, the window exponent W. -/
def descWexp (d : Nat) : Int := signed 10 (field d 39 30)
/-- ORDER. -/
def descOrder (d : Nat) : Bool := bit d 29
/-- RMODE. -/
def descRmode (d : Nat) : Nat := field d 28 27
/-- FORMAT. -/
def descFormat (d : Nat) : Nat := field d 26 23
/-- BASE. -/
def descBase (d : Nat) : Nat := field d 22 0

/-- The extent field E_i, the extent minus 1. -/
def descE (d i : Nat) : Nat :=
  match i with
  | 0 => field d 143 128
  | 1 => field d 159 144
  | 2 => field d 175 160
  | 3 => field d 191 176
  | _ => field d 207 192

/-- The stride field S_i; dimension 0 has none. -/
def descS (d i : Nat) : Nat :=
  match i with
  | 1 => field d 230 208
  | 2 => field d 253 231
  | 3 => field d 278 256
  | 4 => field d 301 279
  | _ => 0

/-- Reserved bits and codes of a descriptor, the fields of dimensions it does not have among them
(R105, R106, R9). -/
def descReservedOk (d : Nat) : Bool :=
  field d 255 254 = 0 && field d 63 45 = 0 &&
  1 ≤ descNdim d && descNdim d ≤ 5 && descSloc d ≠ 3 && descRmode d ≠ 3 && descFormat d ≤ 11 &&
  (List.range 5).all fun i => i < descNdim d || (descE d i = 0 && descS d i = 0)

/-- An operand as an instruction takes it at issue: the descriptor with the effective bases of R108. -/
structure Tensor where
  handle : Nat
  raw : Nat
  base : Nat
  sbase : Nat
deriving DecidableEq, Repr

namespace Tensor

variable (t : Tensor)

/-- The element format. -/
def fmt : Fmt := (Fmt.ofCode (descFormat t.raw)).getD .fp32
/-- NDIM. -/
def ndim : Nat := descNdim t.raw
/-- Extent of dimension `i`. A dimension the tensor does not have counts as 1. -/
def ext (i : Nat) : Nat := descE t.raw i + 1
/-- Stride of dimension `i` in bytes. -/
def stride (i : Nat) : Nat := descS t.raw i
/-- Row bytes (R106). -/
def rowBytes : Nat := t.fmt.rowBytes (t.ext 0)
/-- Dimension-0 rows. -/
def rows : Nat := t.ext 1 * t.ext 2 * t.ext 3 * t.ext 4
/-- Bytes of the dense order (R111). -/
def denseSize : Nat := t.rows * t.rowBytes
/-- Elements. -/
def elements : Nat := t.rows * t.ext 0
/-- Blocks of 32 of one row (R109). -/
def rowBlocks : Nat := ceilDiv (t.ext 0) 32
/-- A scale location is given. -/
def scaled : Bool := descSloc t.raw ≠ 0
/-- W. -/
def wexp : Int := descWexp t.raw
/-- How the result element `e` is rounded at rounding point `k` (R90-R92). -/
def rnd (e k : Nat) : Rnd :=
  ⟨RMode.ofCode (descRmode t.raw), srBits (descSeed t.raw) (e % 2 ^ 32) (k % 2 ^ 32)⟩

/-- Address of dimension-0 row `r`; rows are enumerated with dimension 1 fastest (R107, R109). -/
def rowAddr (r : Nat) : Nat :=
  let i1 := r % t.ext 1
  let r2 := r / t.ext 1
  let i2 := r2 % t.ext 2
  let r3 := r2 / t.ext 2
  let i3 := r3 % t.ext 3
  let i4 := r3 / t.ext 3
  t.base + i1 * t.stride 1 + i2 * t.stride 2 + i3 * t.stride 3 + i4 * t.stride 4

/-- Address of the block scale of element `i` of row `r` (R109). -/
def scaleAddr (r i : Nat) : Nat := t.sbase + r * t.rowBlocks + i / 32

/-- Length of the bounding byte range from `base` (R107). -/
def span : Nat :=
  t.rowBytes + t.stride 1 * descE t.raw 1 + t.stride 2 * descE t.raw 2 + t.stride 3 * descE t.raw 3 +
    t.stride 4 * descE t.raw 4

/-- Bounding byte range as (address, length). -/
def range : Nat × Nat := (t.base, t.span)
/-- Range of the block scales as (address, length). -/
def scaleRange : Nat × Nat := (t.sbase, t.rows * t.rowBlocks)
/-- The ranges an operation names through this operand. -/
def ranges : List (Nat × Nat) := if t.scaled then [t.range, t.scaleRange] else [t.range]
/-- The row bytes of the tensor, row by row: what a stream or a reservoir transfer moves (R111). -/
def rowRanges : List (Nat × Nat) := (List.range t.rows).map fun r => (t.rowAddr r, t.rowBytes)
/-- The bytes an operation reads or writes, row by row. -/
def touched : List (Nat × Nat) := t.rowRanges ++ (if t.scaled then [t.scaleRange] else [])
/-- The bytes that writing every element writes whole: a row's last byte or group may be written in part and is merged
(R26, R64). -/
def wholeParts : List (Nat × Nat) :=
  (List.range t.rows).map (fun r => (t.rowAddr r, t.fmt.bits * t.ext 0 / 8)) ++ (if t.scaled then [t.scaleRange] else [])

end Tensor

/-! ### The local address space (R24, R25, R33) -/

/-- End of the operand store. -/
def opstoreEnd : Nat := 0x40000
/-- First byte of the well. -/
def wellBase : Nat := 0x400000
/-- End of the well. -/
def wellEnd : Nat := 0x700000
/-- The address lies in the operand store. -/
def inOpstore (a : Nat) : Bool := a < opstoreEnd
/-- The address lies in the well. -/
def inWell (a : Nat) : Bool := wellBase ≤ a && a < wellEnd

/-- The first byte of a range that lies outside the store the range starts in, if any (R25). -/
def rangeFault (r : Nat × Nat) : Option Nat :=
  if r.2 = 0 then none
  else if inOpstore r.1 then (if r.1 + r.2 ≤ opstoreEnd then none else some opstoreEnd)
  else if inWell r.1 then (if r.1 + r.2 ≤ wellEnd then none else some wellEnd)
  else some r.1

/-- Two byte ranges share a byte. -/
def overlaps (x y : Nat × Nat) : Bool := 0 < x.2 && 0 < y.2 && x.1 < y.1 + y.2 && y.1 < x.1 + x.2

/-- Some range of `xs` overlaps some range of `ys`. -/
def anyOverlap (xs ys : List (Nat × Nat)) : Bool := xs.any fun x => ys.any fun y => overlaps x y

/-- Alignment of base and strides in use (R106). -/
def Tensor.aligned (t : Tensor) : Bool :=
  t.base % t.fmt.baseAlign = 0 &&
    [1, 2, 3, 4].all fun i => t.ndim ≤ i || t.stride i % t.fmt.strideAlign = 0

/-- The detail of an ADDRESS fault for an offending byte: bits 22:5 of its local address, and 0 for an address past the 23 bits of
the local space, which is not local (R145; DESIGN CHOICE, log entry 22: an effective base past the space does not wrap). -/
def localDetail (a : Nat) : Nat := if a < 2 ^ 23 then field a 22 5 else 0

/-- The first byte at which the operand breaks R25, R106 or R109, if any: the ADDRESS fault. R145 does not say which byte a
misaligned stride offends at; the model takes BASE' (DESIGN CHOICE, log entry 22). -/
def Tensor.addressFault (t : Tensor) : Option Nat :=
  if !t.aligned then some t.base
  else
    match rangeFault t.range with
    | some a => some a
    | none =>
      if !t.scaled then none
      else
        match rangeFault t.scaleRange with
        | some a => some a
        | none =>
          if (if descSloc t.raw = 1 then inOpstore t.sbase else inWell t.sbase) then none else some t.sbase

/-- The first dimension at which a destination breaks R110, if any: the SHAPE fault. -/
def Tensor.destFault (t : Tensor) : Option Nat :=
  if 1 < t.ndim && t.stride 1 < t.rowBytes then some 1
  else [2, 3, 4].find? fun i => i < t.ndim && t.stride i < t.stride (i - 1) * t.ext (i - 1)

/-- A scale location on a format that has none: the FORMAT fault (R66). -/
def Tensor.scaleFault (t : Tensor) : Bool := t.scaled && !t.fmt.mayScale

/-! ### Elements -/

/-- The encoding of element `i` of the row at `a`, elements of `bits` bits packed from bit 0 (R64, R107). -/
def readCode (m : Memory) (a bits i : Nat) : Nat :=
  let o := bits * i
  (m.readLE (a + o / 8) ((o % 8 + bits + 7) / 8) >>> (o % 8)) % 2 ^ bits

/-- Element `i` of the row at `a` written; the other bits of its bytes are kept (R26, R64). -/
def writeCode (m : Memory) (a bits i code : Nat) : Memory :=
  let o := bits * i
  let n := (o % 8 + bits + 7) / 8
  let old := m.readLE (a + o / 8) n
  m.writeBytes (a + o / 8) (bytesLE n (setField old (o % 8 + bits - 1) (o % 8) code))

/-- A value under block scale byte `s` (R67). -/
def Val.block (v : Val) (s : Nat) : Val := if s = 255 then .nan else v.scale ((s : Int) - 127)

/-- The encoding of element `i` of row `r`. -/
def Tensor.code (t : Tensor) (m : Memory) (r i : Nat) : Nat := readCode m (t.rowAddr r) t.fmt.bits i

/-- The value of element `i` of row `r`, its block scale applied (R62, R65, R67). -/
def Tensor.val (t : Tensor) (m : Memory) (r i : Nat) : Val :=
  let v := t.fmt.decode t.scaled t.wexp (t.code m r i)
  if t.scaled then v.block (m.read (t.scaleAddr r i)).toNat else v

/-- Element `i` of row `r` written. -/
def Tensor.write (t : Tensor) (m : Memory) (r i code : Nat) : Memory :=
  writeCode m (t.rowAddr r) t.fmt.bits i code

/-- The bytes of a tensor in dense order (R111). -/
def Tensor.dense (t : Tensor) (m : Memory) : List Byte :=
  (List.range t.rows).flatMap fun r => m.readBytes (t.rowAddr r) t.rowBytes

/-- Local address of byte `o` of the dense order. -/
def Tensor.denseAddr (t : Tensor) (o : Nat) : Nat :=
  if t.rowBytes = 0 then t.base else t.rowAddr (o / t.rowBytes) + o % t.rowBytes

/-- Bytes written at dense offset `o` onward. -/
def Tensor.writeDense (t : Tensor) (m : Memory) (o : Nat) : List Byte → Memory
  | [] => m
  | b :: bs => Tensor.writeDense t (m.write (t.denseAddr o) b) (o + 1) bs

/-- Row `r` of tensor `t` seen from a destination row whose indices it shares, extents of 1 repeating
(R119). `d` is the tensor whose rows `r` counts. -/
def Tensor.bcastRow (t d : Tensor) (r : Nat) : Nat :=
  let i1 := r % d.ext 1
  let r2 := r / d.ext 1
  let i2 := r2 % d.ext 2
  let r3 := r2 / d.ext 2
  let i3 := r3 % d.ext 3
  let i4 := r3 / d.ext 3
  let j (i k : Nat) : Nat := if t.ext k = 1 then 0 else i
  j i1 1 + t.ext 1 * (j i2 2 + t.ext 2 * (j i3 3 + t.ext 3 * j i4 4))

end Sys2Proof.Machine
end

