-- ==== Sys2Proof/Machine/NibState.lean ====
section
/-! DEFINITION. The state of one nib, and of what its operations hold (02, 04, 05). Plain data. -/

namespace Sys2Proof.Machine

/-- Where a nib stands (R143, R146, R346, R350). -/
inductive RunState where
  | notPlaced
  | placed
  | running
  | halting
  | halted
  | faulting
  | faulted
  | stopped
deriving DecidableEq, Repr

/-- The wait of R52 that holds issue, if any; a twait says how many tokens it still needs, and whether EVENT is among the kinds
it takes (13 R383). -/
inductive Hold where
  | none
  | range
  | slots
  | queueFull
  | tokens (left : Nat) (event : Bool)
  | reservoir
  | reservoirFull
  | handle
  | stream
  | margin
  | fence
  | context
deriving DecidableEq, Repr

/-- A comparator: counter A, operand B and relation (R47). Reset setting: FALSE. -/
structure Cmp where
  a : Nat := 0
  rel : Nat := 0
  imm : Bool := false
  cb : Nat := 0
  val : Nat := 0
deriving DecidableEq, Repr

/-- An active loop level (R48-R50). -/
structure LoopLevel where
  first : Nat
  last : Nat
  count : Nat
  index : Nat
  exit : Option Nat
deriving DecidableEq, Repr

/-- The engine that runs a long-running operation; sends and receives of the stream engine are apart (R38). -/
inductive EngineUnit where
  | matrix
  | vector
  | sender
  | receiver
deriving DecidableEq, Repr

/-- Long-running operations (R37). -/
inductive OpKind where
  | mma
  | vop
  | cvt
  | kappend
  | kmask
  | send
  | recv
deriving DecidableEq, Repr

/-- The engine of an operation (R38). -/
def OpKind.engine : OpKind → EngineUnit
  | .mma => .matrix
  | .send => .sender
  | .recv => .receiver
  | _ => .vector

/-- A long-running operation in its in-flight slot, with everything it took at issue (R37, R39, R112, R164).
`nodes` is the context's node table as a kmask took it (R156); `left`, `admitted` and `partials` count the
messages of a recv (R131); `left` of a send counts the bytes that have not left the store (R130). `written`
says the results are written and the DONE token waits for room (R44); `esc`, `toZero` and `saturated` are what the
operation counts when its token is enqueued (R81, R97). `stop` is the byte of its message at which a send has been stopped (06 R199, 13 R391). -/
structure InFlight where
  slot : Nat
  kind : OpKind
  word : Nat
  addr : Nat
  gen : Nat
  epoch : Nat
  tensors : List Tensor
  reads : List (Nat × Nat)
  writes : List (Nat × Nat)
  nodes : List Nat := []
  left : Nat := 0
  admitted : Nat := 0
  partials : List Nat := []
  written : Bool := false
  esc : Escapes := {}
  toZero : Nat := 0
  saturated : Nat := 0
  stop : Option Nat := none
deriving DecidableEq, Repr

/-- A chunk of a reservoir transfer that has started (R188): its translation, or the cause it met (R186). `was` holds the well
bytes of a store's chunk as they stood at its start, one of the two values a word read of the well may have (R40). -/
structure Chunk where
  idx : Nat
  pa : Nat
  cause : Nat
  start : Nat
  trans : Nat
  was : List Byte := []
deriving DecidableEq, Repr

/-- Where a transfer stands (R195, R201). -/
inductive TransferState where
  | active
  | held (cause entry : Nat)
  | error (cause : Nat)
deriving DecidableEq, Repr

/-- A transfer of a reservoir queue (R136, R188): the descriptor as taken, the desk-virtual start address, the
next chunk to start, the chunks in flight, and the completed chunks. -/
structure Transfer where
  word : Nat
  va : Nat
  tensor : Tensor
  next : Nat := 0
  flight : List Chunk := []
  done : List Nat := []
  st : TransferState := .active
deriving DecidableEq, Repr

/-- The body of a packet of the STREAM class (R53, R56, R123, R130). `off` is the byte offset in the receiver's
region (NIB) or in the landing buffer (QUILL); `total` is the message's length, and `base` its offset; `from_` gives the
local address of each 64 B block of a QUILL packet (R244). -/
inductive PacketBody where
  | signal (queue value : Nat)
  | data (queue base total off : Nat) (bytes : List Byte) (last : Bool)
  | quill (off : Nat) (bytes : List Byte) (from_ : List Nat)
deriving DecidableEq, Repr

/-- Where a packet goes. -/
inductive PacketDest where
  | nib (n : Nat)
  | quill (q : Nat)
deriving DecidableEq, Repr

/-- A packet on its way, with its stamp (R56, R164). -/
structure Packet where
  src : Nat
  dst : PacketDest
  gen : Nat
  epoch : Nat
  body : PacketBody
deriving DecidableEq, Repr

/-- A packet that waits at a nib's local input: the router input port it came by (R57). -/
structure Waiting where
  port : Nat
  pkt : Packet
deriving DecidableEq, Repr

/-- A nib's copy of a sequence context (R149-R153): binding, committed length, draft count and the parent of
each draft node, 0x7F for the tail. `rest` holds the node-table bytes that a PUT has given to positions at or above the draft
count (R153, R347). -/
structure Context where
  binding : Nat := 0
  committed : Nat := 0
  drafts : Nat := 0
  parents : List Nat := []
  rest : List Nat := []
deriving DecidableEq, Repr

/-- A commit that the mirror engine has still to send (R326). -/
structure CommitRecord where
  ctx : Nat
  first : Nat
  count : Nat
  written : Nat := 0
  acked : Nat := 0
deriving DecidableEq, Repr

/-- The stamp and the accept masks (R127). -/
structure Tags where
  gen : Nat := 0
  epoch : Nat := 0
  gmask : Nat := 0xFF
  emask : Nat := 3
deriving DecidableEq, Repr

/-- Issue state of a nib. -/
structure Issue where
  run : RunState := .notPlaced
  addr : Nat := 0
  hold : Hold := .none
  loops : List LoopLevel := []
  haltCode : Nat := 0
  faultRec : Nat := 0
  placed : Bool := false
  resume : Bool := false
deriving DecidableEq, Repr

/-- The mirror engine's state of a nib (R325-R327). -/
structure Mirror where
  queue : List CommitRecord := []
  stale : SMap Bool := []
  marked : SMap Nat := []
deriving DecidableEq, Repr

/-- One nib. Local memory holds the operand store and the well by local address (R24); `ecc` holds how many bits
of an 8 B word are in error, by word address (R36). `progress` and `progressAt` hold the progress counters and the time of the
latest progress, by unit (13 R383, R401). `stash` holds the bytes of the STATE space that a PUT has written where no register of
the nib stands while the counts that go before them are smaller: later token-queue entries and loop levels (R347). `dloaded` marks
the descriptor-table entries that a dload has written since the loader last did (R104). -/
structure Nib where
  issue : Issue := {}
  tags : Tags := {}
  counters : SMap Nat := []
  cmps : SMap Cmp := []
  queues : SMap (List Nat) := []
  slots : List InFlight := []
  descs : SMap Nat := []
  escs : SMap Nat := []
  instrs : SMap Nat := []
  mem : Memory := []
  ecc : SMap Nat := []
  rbase : SMap Nat := []
  resq : SMap (List Transfer) := []
  ctxs : SMap Context := []
  inbox : List Waiting := []
  mirror : Mirror := {}
  stash : Memory := []
  dloaded : SMap Bool := []
  scrubRow : Nat := 0
  progress : SMap Nat := []
  progressAt : SMap Nat := []
deriving DecidableEq, Repr

/-- The nib a reset leaves (R394, R104). -/
def Nib.fresh : Nib := {}

end Sys2Proof.Machine
end

