-- ==== Sys2Proof/Machine/FabricState.lean ====
section
/-! DEFINITION. The state of the clocks, of ruling time and of the quills (07, 08, 09). Plain data. -/

namespace Sys2Proof.Machine

/-- The PTP port and PPS_IN of a module (R228-R232). Times in 1/80 ns: `pair` the latest Sync's origin and arrival,
`waitSync` a two-step Sync's master, sequence number and arrival, `delay` the mean path delay. `reqSeq` is the sequence number of the
latest Delay_Req, and `asked` says that its answer is awaited. `lastSync` and `edgeSeen` are instants by the time clock's ticks
(`State.real`), which no step moves. -/
structure PtpState where
  masters : List PtpMaster := []
  waitSync : Option (Nat × Nat × Int) := none
  pair : Option (Int × Int) := none
  delay : Option Int := none
  reqSeq : Nat := 0
  asked : Bool := false
  sum : Int := 0
  count : Nat := 0
  lastSync : Nat := 0
  edge : Option Nat := none
  edgeSeen : Nat := 0
  edgeOff : Int := 0
  fallen : Bool := false
  status : Nat := 0
  stepped : Bool := false
deriving DecidableEq, Repr

/-- Ruling time (R215-R224): `clock` counts 2^-32 ns and `carry` what is left below one unit; corrections in ns per
line; `st` is the time state of R218; `lineDone` is the last line boundary taken; `ticks` counts
the ticks since part reset (13 R403). `off` and `offA` are the latest measured offsets from the parent and from the anchor that no step has
removed, and `stepWanted` says that a step asked for at 0x4705 is still to be made (R217). -/
structure TimeState where
  clock : Nat := 0
  carry : Frac := {}
  adj : Frac := {}
  integ : Frac := {}
  integA : Frac := {}
  st : Nat := 0
  parent : Option Nat := none
  good : Nat := 0
  stepped : Bool := false
  theta : Frac := {}
  off : Option Frac := none
  offA : Option Frac := none
  stepWanted : Bool := false
  holdStart : Nat := 0
  refOk : Bool := true
  lineDone : Nat := 0
  ptp : PtpState := {}
  ticks : Nat := 0
deriving DecidableEq, Repr

/-- A quire's clock generator (R207-R213): `count` the stretched cycles of the line so far; `nominal` and `inUse` the margins of the
latest sampled cycle, the second in 1/2 ps; `marginTold` the line in which MARGIN_LOW was last raised. -/
structure Quire where
  running : Bool := true
  locked : Bool := true
  stretching : Bool := false
  count : Nat := 0
  overrun : Bool := false
  nominal : Int := 0
  inUse : Int := 0
  marginSeen : Bool := false
  marginTold : Option Nat := none
  meshMoves : Nat := 0
  meshAt : Nat := 0
deriving DecidableEq, Repr

/-- The time side of a quill (R220-R224). Times in 1/16 ns: departures of the blocks sent by SEQ, the latest valid
block received (`rxAt` by the time clock's ticks), the sums of θ (in 1/4000 ns) and of the delay (in 1/32 ns) over the line's exchanges. -/
structure TimePort where
  seq : Nat := 0
  departs : SMap Nat := []
  heard : Bool := false
  rxSeq : Nat := 0
  rxAt : Nat := 0
  rxTime : Nat := 0
  missed : Nat := 0
  flags : Nat := 0
  hops : Nat := 0xFF
  root : Nat := 0
  thetaSum : Int := 0
  delaySum : Int := 0
  count : Nat := 0
deriving DecidableEq, Repr

/-- Link state of a quill (09 R282). -/
inductive LinkState where
  | down
  | training
  | check
  | up
  | closing
deriving DecidableEq, Repr

/-- The code of a link state at 0x6040 (R282). -/
def LinkState.num : LinkState → Nat
  | .down => 0
  | .training => 1
  | .check => 2
  | .up => 3
  | .closing => 4

/-- One copy of a quill's calendars and buffer table (08 R237, R243): raw entries by stroke, and by handle. -/
structure Calendar where
  tx : SMap Nat := []
  rx : SMap Nat := []
  bufs : SMap Nat := []
deriving DecidableEq, Repr

/-- What the landing buffer keeps of a 64 B block (08 R244): the stamp of what last wrote it, the order of that
write among the quill's writes, and the physical nib and local address it came from. -/
structure Block where
  gen : Nat := 0
  epoch : Nat := 0
  order : Nat := 0
  nib : Nat := 0
  addr : Nat := 0
deriving DecidableEq, Repr

/-- A frame that an RX FORWARD or REPLICATE entry holds (08 R238): handled as LOST or not, its arrival in 1/16 ns, and
the TX quills of its OMASK that have not taken it. -/
structure RxInput where
  frame : Frame
  lost : Bool
  arrival : Int
  left : Nat
deriving DecidableEq, Repr

/-- A kept copy of a DATA frame (08 R256): the stroke it left in, counted from ruling time 0, and whether a report marked
it lost. -/
structure Kept where
  stroke : Nat
  frame : Frame
  lost : Bool
deriving DecidableEq, Repr

/-- The ruled side of a quill (08): both copies of its calendars, its landing buffer with its marks by 8 B word, its entry
states by primary stroke, and the frames it holds. `decided` and `rxDone` are the latest strokes decided and handled,
counted from ruling time 0. `awaitOld` and `expectOld` are the states of the copy that was in force before the latest
apply, for the frames that left under it (R240). `out` is the frame of the latest decided stroke, `outBefore` that of the one before it with its stroke. `uses` is the stroke-use map
of the line in progress, `usesNext` of the line whose first stroke is decided before it begins, `usesDone` that of the last fired one. -/
structure RuledPort where
  plan0 : Calendar := {}
  plan1 : Calendar := {}
  land : Memory := []
  full : SMap Bool := []
  landed : SMap Bool := []
  blocks : SMap Block := []
  writes : Nat := 0
  edge : List Packet := []
  decided : Nat := 0
  rxDone : Nat := 0
  out : Option Frame := none
  outBefore : Option (Nat × Frame) := none
  owed : SMap Bool := []
  awaiting : SMap Bool := []
  holding : SMap Bool := []
  sent : SMap Nat := []
  expect : SMap Nat := []
  awaitOld : SMap Bool := []
  expectOld : SMap Nat := []
  kept : SMap (Option Kept) := []
  got : SMap (Option RxInput) := []
  offSeen : Bool := false
  uses : SMap Nat := []
  usesNext : SMap Nat := []
  usesDone : SMap Nat := []
  rlost : Nat := 0
deriving DecidableEq, Repr

/-- A link frame (09 R275): its sequence number, how many flits, which of them start a packet, their virtual channels, the
flits, and the stroke it was first sent in. -/
structure LinkFrame where
  fseq : Nat
  fcnt : Nat
  sop : Nat
  fvc : Nat
  flits : List Byte
  first : Nat
deriving DecidableEq, Repr

/-- Flits of a virtual channel freed at a receiver, whose credits are not returned yet (09 R284). -/
structure Freed where
  vc : Nat
  count : Nat
  time : Nat
deriving DecidableEq, Repr

/-- The link layer of a quill (09 R272-R284): the sending side with its replay buffer, packets queued to leave and the rest
of one partly sent, both by virtual channel, and the credits in use; the receiving side with the next sequence number
expected, the acknowledgement it sends, and its buffers. `early` counts the flits of a channel's
oldest packet that have left the buffer before the rest of it. `missing` counts consecutive missing control fields, `ctlSent` is
the latest stroke whose control field was sent; `lanesOut` holds the PAM4 levels of that stroke by lane. -/
structure LinkPort where
  fseq : Nat := 0
  unacked : List LinkFrame := []
  replay : List LinkFrame := []
  lastReplay : Option Nat := none
  nakSeen : Bool := false
  nakRose : Bool := false
  txq : SMap (List (List Byte)) := []
  part : SMap (List Byte) := []
  used : SMap Nat := []
  expected : Nat := 0
  anyAccepted : Bool := false
  aseq : Nat := 0
  fresh : Nat := 0
  oldest : Nat := 0
  nakf : Bool := false
  asm : SMap (List Byte) := []
  rxBuf : SMap (List (List Byte)) := []
  early : SMap Nat := []
  freed : List Freed := []
  missing : Nat := 0
  framing : Nat := 0
  framingBefore : Nat := 0
  framingAt : Nat := 0
  farewell : Nat := 0
  farewellSeen : Bool := false
  ctlSent : Nat := 0
  ctlOut : List Byte := []
  slotOut : List Byte := []
  lanesOut : List (List Nat) := []
deriving DecidableEq, Repr

/-- What a quill in CHECK has seen (10 R314): the latest intact IDENT, how many identical ones in a row, when it entered CHECK, and the mean
delay of the first full line of TIME exchanges since, in 1/16 ns. -/
structure CheckPort where
  ident : Option Nat := none
  same : Nat := 0
  since : Nat := 0
  delay : Option Int := none
deriving DecidableEq, Repr

/-- An item that waits for a control field (09 R273): its word, and when it was queued. -/
structure Item where
  word : Nat
  time : Nat
deriving DecidableEq, Repr

/-- The checker of a lane under link test (16 R463). -/
structure LaneTest where
  locked : Bool := false
deriving DecidableEq, Repr

/-- A quill. `fn` is its enable function (09 R282, 12 R376). -/
structure Quill where
  fn : FnState := {}
  link : LinkState := .down
  laneLock : Bool := true
  ruled : RuledPort := {}
  port : LinkPort := {}
  check : CheckPort := {}
  penlifts : List Item := []
  blots : List Item := []
  time : TimePort := {}
  lanes : SMap LaneTest := []
deriving DecidableEq, Repr

/-- An announced pen-lift (08 R257, R258): the line it names, the job tag, the first requester and the cause. -/
structure Announced where
  line : Nat
  tag : Nat
  origin : Nat
  cause : Nat
deriving DecidableEq, Repr

/-- Lines and plan counts (08 R236, R240, R259, R260). `fired` numbers the fired lines; `planLine` is the plan line count
and `counting` says it runs; `applyLine` is the line of the latest apply and `copyBefore` the copy in force before it, `firstFired` and `firstOn` the fired lines in
which the VOID IDLE rule holds; `lifts` lists the lines of the job's pen-lifts in the window. -/
structure Lines where
  fired : Nat := 0
  planLine : Nat := 0
  counting : Bool := false
  applyLine : Nat := 0
  copyBefore : Nat := 0
  firstFired : Option Nat := none
  firstOn : Option Nat := none
  announced : List Announced := []
  lifts : List Nat := []
deriving DecidableEq, Repr

/-- Who issued a margin request: a nib's send, or the mirror engine for a commit of a nib (09 R294; 10 R325). -/
inductive Requester where
  | send
  | mirrorData
  | mirrorMark
deriving DecidableEq, Repr

/-- An outstanding margin request (09 R295): the header as sent, its payload, when it was last sent, its first hop, and when it was
parked. `nib`, `ctx` and `first` name the mirror record it serves, and `rel` is the
offset the nib gave, before its endpoint's base was added. -/
structure Request where
  hdr : Nat
  payload : List Byte
  sentAt : Nat
  hop : Option Nat
  parked : Option Nat
  who : Requester := .send
  nib : Nat := 0
  ctx : Nat := 0
  first : Nat := 0
  rel : Nat := 0
deriving DecidableEq, Repr

/-- An entry of the duplicate filter (09 R299). -/
structure FilterEntry where
  src : Nat
  txid : Nat
  status : Nat
  result : List Byte
  time : Nat
deriving DecidableEq, Repr

/-- A margin completion event held for room in a queue (02 R44, 09 R297). -/
structure MarginEvent where
  nib : Nat
  queue : Nat
  token : Nat
deriving DecidableEq, Repr

/-- The margin engine (09 R288-R303): both copies of the Endpoint Table by entry, the request store by transaction ID, the IDs
that completed less than 2 ms ago, the next ID in rotation, the duplicate filter, packets whose route has no hop, and the
quill profile in force (R265). `order` names the buffers in which the requests that end here stand, in the order in which they
reached the module (R296). `recalls` names, by SRC and TXID, the requests that wait for a line the companion holds, and `lost`
those whose line the TXL took down with it (14 R418). -/
structure MarginState where
  held : List MarginEvent := []
  eps0 : SMap Nat := []
  eps1 : SMap Nat := []
  requests : SMap (Option Request) := []
  ended : SMap (Option Nat) := []
  nextId : Nat := 0
  filter : List FilterEntry := []
  own : List (List Byte) := []
  order : List Nat := []
  profile : Nat := 0
  recalls : List (Nat × Nat) := []
  lost : List (Nat × Nat) := []
deriving DecidableEq, Repr

end Sys2Proof.Machine
end

