-- ==== Sys2Proof/Machine/RecoveryState.lean ====
section
/-! DEFINITION. The state of recovery (13) and of the job binding (10 R319, 11, 16 R451). Plain data. -/

namespace Sys2Proof.Machine

/-- A key of a BLOT item, kept for 1 ms (R389). -/
structure BlotKey where
  tag : Nat
  origin : Nat
  bseq : Nat
  time : Nat
deriving DecidableEq, Repr

/-- An abort in progress or the latest one (R391): its instant, reason, origin and BSEQ. -/
structure Abort where
  time : Nat
  reason : Nat
  origin : Nat
  bseq : Nat
deriving DecidableEq, Repr

/-- A reset step in progress (R393): step 1 to 4, physical nib, unit, cause and when it began. -/
structure ResetStep where
  step : Nat
  nib : Nat
  unit : Nat
  cause : Nat
  start : Nat
deriving DecidableEq, Repr

/-- A blotter record being written (R402): the base of its region as the record began (R399), slot, number, trigger and reason. -/
structure BlotterJob where
  base : Nat
  slot : Nat
  seq : Nat
  trigger : Nat
  reason : Nat
  time : Nat
deriving DecidableEq, Repr

/-- Recovery (R386-R404). `abort` is the abort in progress; `lastAbort` the one a record names; `record` the blotter
record being written; `wanted` the steps that begin once it is complete; `steps` those in progress. `ended` says that the job has
been aborted and no later one opened: what is left of it is dropped (R391). `headerRead` says that desk memory has been started, so that
the region header can be written (R400), and `lateParts` counts the part resets begun while it could not. -/
structure Recovery where
  abort : Option Abort := none
  lastAbort : Option Abort := none
  bseq : Nat := 0
  keys : List BlotKey := []
  record : Option BlotterJob := none
  recordDone : Option Nat := none
  wanted : List ResetStep := []
  steps : List ResetStep := []
  held : Option Nat := none
  retired : Option Nat := none
  clearAsked : Bool := false
  storeUe : Bool := false
  ended : Bool := false
  newestSeq : Nat := 0
  newestSlot : Nat := 0xFF
  headerRead : Bool := true
  lateParts : Nat := 0
  serviceMs : Nat := 0
  savedMs : Nat := 0
  tc1 : Option Nat := none
  tc2 : Option Nat := none
  samples : SMap (Option Nat) := []
  lastBoundary : Nat := 0
  faultAt : SMap (Option Nat) := []
deriving DecidableEq, Repr

/-- The job binding (10 R319, 12 R376): its function, the line boundary at which OPENING ends and whether the place engine ran
when it began, the drain deadline of CLOSING, the doorbell's binding and held events, and the halts of the job (11 R352). -/
structure Binding where
  fn : FnState := {}
  openLine : Option Nat := none
  placeBusy : Bool := false
  drainAt : Option Nat := none
  doorbell : Option (Nat × Nat) := none
  heldBells : List Nat := []
  halted : Nat := 0
  firstHalt : Nat := 0
  firstHaltAt : Nat := 0
deriving DecidableEq, Repr

/-- The place engine (11 R344-R349): while it runs, `next` is the first entry that has not completed, `done` holds those after it
that have, and `failed` the entry that has faulted, with its cause, while earlier ones are in flight. -/
structure Place where
  running : Bool := false
  next : Nat := 0
  base : Nat := 0
  count : Nat := 0
  status : Nat := 0
  fault : Nat := 0
  done : List Nat := []
  failed : Option (Nat × Nat) := none
deriving DecidableEq, Repr

end Sys2Proof.Machine
end

