-- ==== Sys2Proof/Machine/TxlState.lean ====
section
/-! DEFINITION. The state of the Tamyx Link, its mailbox, and the management and SMBus ports (14). Plain data. -/

namespace Sys2Proof.Machine

/-- State of the TXL (R430, 0x2E03:00). -/
inductive TxlLink where
  | down
  | training
  | up
  | credits
deriving DecidableEq, Repr

/-- The number of a TXL state (R430). -/
def TxlLink.num : TxlLink → Nat
  | .down => 0
  | .training => 1
  | .up => 2
  | .credits => 4

/-- A TXL message: header (R412) and the data slots. -/
structure TxlMsg where
  hdr : Nat
  data : List Byte
deriving DecidableEq, Repr

/-- A request in progress (R416): its message, the desk-physical address of its line, the COH bit of its page, and whether
the way of an evicted line is already allocated to it (R417). -/
structure TxlReq where
  msg : TxlMsg
  pa : Nat
  coh : Bool
  alloc : Bool := false
deriving DecidableEq, Repr

/-- A BINV that the part has sent (R417, R418): the line, its tag, when it was sent, whether a WB has answered it, and the tag of
the request that waits for the way. -/
structure Binv where
  line : Nat
  tag : Nat
  sent : Nat
  done : Bool := false
  evictFor : Option Nat := none
deriving DecidableEq, Repr

/-- A flit that the part has sent (R409): its header and its slots, zero after those given. -/
structure TxlSent where
  hdr : Nat
  slots : List Byte
deriving DecidableEq, Repr

/-- A PROTOCOL flit kept for replay with its contents (R410). -/
structure TxlKept where
  fseq : Nat
  flit : TxlSent
  sent : Nat
deriving DecidableEq, Repr

/-- The Tamyx Link. `expect` is the FSEQ awaited, `aseq` the acknowledgement sent, none before the first, `fresh` the flits accepted
since with the time of the first, `nak` the NAK bit sent and `nakSeen` a NAK that rose and awaits its replay; `reqCr`, `rspCr` and
`dataCr` are the credits held, `giveReq`, `giveRsp` and `giveData` slots freed and not yet returned, `peerReq`, `peerRsp` and `peerData`
the credits that the companion holds (R409-R411). `wire` is every flit sent, oldest first, `out` waits for credits, with whether it is a
Prompt Window response. `reqBuf`,
`rspBuf` and `evtBuf` are the mailbox buffers, `req`, `rsp` and `evt` the bits of MBCTRL, and `rspWait` and `evtWait` what
the mailbox holds (R425). -/
structure Txl where
  link : TxlLink := .down
  expect : Nat := 0
  aseq : Option Nat := none
  fresh : Nat := 0
  freshAt : Nat := 0
  nak : Bool := false
  nakSeen : Bool := false
  nakLevel : Bool := false
  next : Nat := 0
  kept : List TxlKept := []
  reqCr : Nat := 0
  rspCr : Nat := 0
  dataCr : Nat := 0
  giveReq : Nat := 0
  giveRsp : Nat := 0
  giveData : Nat := 0
  peerReq : Nat := 0
  peerRsp : Nat := 0
  peerData : Nat := 0
  wire : List TxlSent := []
  rx : List TxlMsg := []
  reqs : List TxlReq := []
  binvs : List Binv := []
  binvTag : Nat := 0
  out : List (TxlMsg × Bool) := []
  reqBuf : Memory := []
  rspBuf : Memory := []
  evtBuf : Memory := []
  req : Bool := false
  rsp : Bool := false
  evt : Bool := false
  rspWait : List (List Byte) := []
  evtWait : List (List Byte) := []
deriving DecidableEq, Repr

/-- The management port (R426, R427): the replies it has sent, oldest first. -/
structure MgmtPort where
  sent : List MgmtFrame := []
deriving DecidableEq, Repr

/-- The SMBus and PMBus ports (R428, R429): the latest answer, none for NACK, and the latched status bits of PMBus. -/
structure SmBus where
  reply : Option (List Byte) := none
  status : Nat := 0
deriving DecidableEq, Repr

end Sys2Proof.Machine
end

