-- ==== Sys2Proof/Machine/State.lean ====
section
/-! DEFINITION. The state of the module, the outcomes of a command, and the state after reset. Plain data. -/

namespace Sys2Proof.Machine

/-- Why a step stops with a fault. -/
inductive Fault where
  /-- Raised by the row of a stroke-program instruction whose word is another instruction's word, or by a row whose
  operands spell no command of that row: the queue holds an ill-formed command (log entry 1). Safe. -/
  | illFormed
deriving DecidableEq, Repr

/-- Why a step is refused. -/
inductive Refusal where
  /-- The command has no meaning in the model yet: raised by the dispatcher only. Safe. -/
  | notModelled (mnemonic : String)
deriving DecidableEq, Repr

/-- The module. `objs` and `blobs` hold the Ledger objects that no other field holds, by index × 256 + subindex; an
object not listed reads as its default. -/
structure State where
  pending : List Instr := []
  fresh : Nat := 0
  nibs : SMap Nib := []
  mesh : List Packet := []
  desk : Desk := {}
  time : TimeState := {}
  lines : Lines := {}
  quires : SMap Quire := []
  quills : SMap Quill := []
  binding : Binding := {}
  place : Place := {}
  agent : Agent := {}
  recovery : Recovery := {}
  fuses : Fuses := {}
  flash : Flash := {}
  boot : Boot := {}
  pins : Pins := {}
  margin : MarginState := {}
  txl : Txl := {}
  mgmt : MgmtPort := {}
  smbus : SmBus := {}
  tap : Tap := {}
  objs : SMap (Option Nat) := []
  blobs : SMap (List Byte) := []
deriving DecidableEq, Repr

/-- The module after a part reset, with stage two running and before the link domain has started: every quill is OFF (13 R394, 15 R431;
log entry 4). -/
def State.reset : State := {}

end Sys2Proof.Machine
end

