-- ==== Sys2Proof/Machine/Lap.lean ====
section
/-! DEFINITION. LAP messages as bytes and their way out (12 R362-R365, R378; 14 R425). -/

namespace Sys2Proof.Machine

/-- An event record (R378). -/
def EventRec.bytes (r : EventRec) : List Byte :=
  bytesLE 8 r.detail ++ bytesLE 8 r.time ++ bytesLE 2 r.param ++ bytesLE 1 0 ++ bytesLE 1 r.code ++ bytesLE 4 r.eseq

/-- The header of a message with a given CRC field (R363). -/
def lapHeader (type status sess seq count len time crc : Nat) : List Byte :=
  [0x4C, 0x41, 1] ++ bytesLE 1 type ++ [1] ++ bytesLE 1 status ++ bytesLE 2 sess ++ bytesLE 4 seq ++ bytesLE 2 count ++
    bytesLE 2 len ++ bytesLE 8 time ++ bytesLE 4 crc ++ [0, 0, 0, 0]

/-- A response or an event of the agent (R363). -/
def lapMessage (type status sess seq count time : Nat) (payload : List Byte) : List Byte :=
  let crc := crc32 (lapHeader type status sess seq count payload.length time 0 ++ payload)
  lapHeader type status sess seq count payload.length time crc ++ payload

/-- Bytes of a mailbox buffer (14 R421). -/
def mailboxSize : Nat := 4160

namespace State

/-- The UDP port of the agent, 0x1001:01 (R362). -/
def lapPort (s : State) : Nat := (SMap.get none s.objs 0x100101).getD (objDefault 0x1001 1)

/-- A response that waits is placed in the mailbox's response buffer once RSP is clear (14 R425). -/
def placeRsp (s : State) : State :=
  match s.txl.rsp, s.txl.rspWait with
  | false, m :: ms =>
    { s with txl := { s.txl with rsp := true, rspWait := ms, rspBuf := Memory.writeBytes [] 0 (padTo mailboxSize m) } }
  | _, _ => s

/-- An EVENT message that waits is placed in the mailbox's event buffer once EVT is clear (14 R425). -/
def placeEvt (s : State) : State :=
  match s.txl.evt, s.txl.evtWait with
  | false, m :: ms =>
    { s with txl := { s.txl with evt := true, evtWait := ms, evtBuf := Memory.writeBytes [] 0 (padTo mailboxSize m) } }
  | _, _ => s

/-- A response leaves for its source (R362, 14 R425). -/
def lapRespond (s : State) (dest : Source) (m : List Byte) : State :=
  match dest with
  | .udp _ _ => { s with agent := { s.agent with sent := s.agent.sent ++ [⟨dest, s.lapPort, m⟩] } }
  | .mailbox => ({ s with txl := { s.txl with rspWait := s.txl.rspWait ++ [m] } } : State).placeRsp

/-- An EVENT message of a session leaves with its records (R379). The spec gives its SEQ no value: a free one. -/
def lapEvent (s : State) (x : Session) (rs : List EventRec) (seq : Nat) : State :=
  let m := lapMessage 0x10 0 x.id (seq % 2 ^ 32) rs.length (s.time.clock / 2 ^ 32 % 2 ^ 64) (rs.flatMap EventRec.bytes)
  match x.source with
  | .udp _ _ => { s with agent := { s.agent with sent := s.agent.sent ++ [⟨x.source, s.lapPort, m⟩] } }
  | .mailbox => ({ s with txl := { s.txl with evtWait := s.txl.evtWait ++ [m] } } : State).placeEvt

end State

end Sys2Proof.Machine
end

