-- ==== Sys2Proof/Machine/Ops.lean ====
section
/-! DEFINITION. The named operations over the state: objects, counters, nibs, free values, events. -/

namespace Sys2Proof.Machine

/-- The outcome of a command. -/
abbrev Out := Host.Outcome State Fault Refusal

/-- Key of a Ledger object. -/
def objKey (index sub : Nat) : Nat := index * 256 + sub

namespace State

/-! ### Ledger objects -/

/-- The numeric value of a Ledger object held in `objs`. -/
def obj (s : State) (index sub : Nat) : Nat := (SMap.get none s.objs (objKey index sub)).getD (objDefault index sub)

/-- A numeric Ledger object written; its default is held as no entry. -/
def setObj (s : State) (index sub v : Nat) : State :=
  { s with objs := SMap.set none s.objs (objKey index sub) (if v = objDefault index sub then none else some v) }

/-- A 64-bit counter raised by `k`. -/
def bump (s : State) (index sub k : Nat) : State := s.setObj index sub ((s.obj index sub + k) % 2 ^ 64)

/-- The bytes of a BLOB object held in `blobs`; its default is `n` zeros. -/
def blob (s : State) (index sub n : Nat) : List Byte := padTo n (SMap.get [] s.blobs (objKey index sub))

/-- A BLOB object written; all zeros are held as no entry. -/
def setBlob (s : State) (index sub : Nat) (v : List Byte) : State :=
  { s with blobs := SMap.set [] s.blobs (objKey index sub) (if v.all (· = 0) then [] else v) }

/-! ### Free values (log entry 6) -/

/-- The next free value. -/
def free (s : State) : Nat := Config.free s.fresh
/-- The counter of free values advanced past the one taken. -/
def took (s : State) : State := { s with fresh := s.fresh + 1 }

/-! ### Time -/

/-- Ruling time T in ns (R12, R215). -/
def now (s : State) : Nat := s.time.clock / 2 ^ 32

/-! ### Nibs -/

/-- The nib of a virtual index. -/
def nib (s : State) (n : Nat) : Nib := SMap.get Nib.fresh s.nibs n
/-- A nib replaced. -/
def setNib (s : State) (n : Nat) (x : Nib) : State := { s with nibs := SMap.set Nib.fresh s.nibs n x }
/-- A nib changed by `f`. -/
def updNib (s : State) (n : Nat) (f : Nib → Nib) : State := s.setNib n (f (s.nib n))

/-- Physical row of virtual row `r` (R334). -/
def physRow (s : State) (r : Nat) : Nat := s.fuses.rowMap.getD r 0
/-- Physical column of virtual column `c` (R334). -/
def physCol (s : State) (c : Nat) : Nat := s.fuses.colMap.getD c 0
/-- Physical nib index, row × 66 + column, of a virtual nib index (R147). -/
def physNib (s : State) (n : Nat) : Nat := s.physRow (n / 64) * 66 + s.physCol (n % 64)
/-- Quire of a physical position: 16 rows by 33 columns, row-major over 8 × 2 (R11). -/
def quireOf (r c : Nat) : Nat := r / 16 * 2 + c / 33
/-- Quire of a virtual nib. -/
def nibQuire (s : State) (n : Nat) : Nat := quireOf (s.physRow (n / 64)) (s.physCol (n % 64))
/-- The virtual nib that stands at a physical nib index, if any. -/
def virtNib (s : State) (p : Nat) : Option Nat :=
  match s.fuses.rowMap.findIdx? (· = p / 66), s.fuses.colMap.findIdx? (· = p % 66) with
  | some r, some c => some (r * 64 + c)
  | _, _ => none
/-- Rows of the exposed virtual grid (R1). -/
def gridRows (s : State) : Nat :=
  match s.fuses.grade with
  | 0 => 128
  | 1 => 120
  | _ => 112

/-- A quill. -/
def quill (s : State) (q : Nat) : Quill := SMap.get {} s.quills q
/-- A quill replaced. -/
def setQuill (s : State) (q : Nat) (x : Quill) : State := { s with quills := SMap.set {} s.quills q x }
/-- A quill changed by `f`. -/
def updQuill (s : State) (q : Nat) (f : Quill → Quill) : State := s.setQuill q (f (s.quill q))

/-! ### Declared grid (11 R331) -/

/-- Rows and columns of the virtual grid the running binary declares. -/
def declGrid (s : State) : Nat × Nat :=
  let d := s.blob 0x2B00 0 64
  (natLE (slice d 0 2), natLE (slice d 2 2))

/-- A virtual [row, column] lies in the declared grid. -/
def inGrid (s : State) (row col : Nat) : Bool := row < s.declGrid.1 && col < s.declGrid.2

/-! ### Events of the Ledger (R378, R379) -/

/-- A session that selected an event's code (R379). -/
def eventFor (x : Session) (code : Nat) : Bool := bit x.evmask code

/-- An event raised: it enters the ring of the latest 64 records, and every session whose EVMASK has its bit is sent it and owes an
acknowledgement. -/
def event (s : State) (code param detail : Nat) : State :=
  let n := s.agent.eseq + 1
  let r : EventRec := ⟨n, code, param % 2 ^ 16, s.now % 2 ^ 64, detail % 2 ^ 64⟩
  let log := s.agent.log ++ [r]
  let told := s.agent.sessions.filter fun x => eventFor x code
  let s : State := { s with agent := { s.agent with
      eseq := n
      log := log.drop (log.length - 64)
      sessions := s.agent.sessions.map fun x => if eventFor x code then { x with events := x.events ++ [⟨r, 0, s.now⟩] } else x } }
  if told.isEmpty then s else told.foldl (fun t x => t.lapEvent x [r] s.free) s.took

end State

end Sys2Proof.Machine
end

