-- ==== Sys2Proof/Machine/Mesh.lean ====
section
/-! DEFINITION. The mesh: routers and their STREAM buffers, routes, quire-crossing FIFOs, and what a waiting packet holds back
(02 R53-R60). Flits of the reservoir classes pass waiting STREAM flits (R57) and are within the chunks of 06; each STREAM packet
is one record until it reaches its destination, and a waiting one stands in the buffers from the destination's router back along
its route. -/

namespace Sys2Proof.Machine

/-- Flits of a packet (R53, R56). -/
def Packet.flits (p : Packet) : Nat :=
  match p.body with
  | .signal _ _ => 1
  | .data _ _ _ _ bs _ => ceilDiv bs.length 64
  | .quill _ bs _ => ceilDiv bs.length 64

/-- An input port of a router on a route: 0 north, 1 east, 2 south, 3 west, 4 local. `sender` is the quire whose crossing FIFO
stands before it, if its link crosses a quire boundary (R53, R58). -/
structure Hop where
  row : Nat
  col : Nat
  port : Nat
  sender : Option Nat
deriving DecidableEq, Repr

/-- Number of an input port of a router. -/
def Hop.key (h : Hop) : Nat := (h.row * 66 + h.col) * 5 + h.port
/-- Flits of one class that stand at an input port: its buffer of 4, and the 4 entries of a crossing FIFO before it
(R53, R58). -/
def Hop.room (h : Hop) : Nat := if h.sender.isSome then 8 else 4
/-- Quire of the router. -/
def Hop.quire (h : Hop) : Nat := State.quireOf h.row h.col

/-- The hop from router `a` to its neighbour `b`. -/
def hopTo (a b : Nat × Nat) (port : Nat) : Hop :=
  ⟨b.1, b.2, port,
    if State.quireOf a.1 a.2 = State.quireOf b.1 b.2 then none else some (State.quireOf a.1 a.2)⟩

/-- `n` hops along the row from column `c` eastward, or westward. -/
def rowHops (r c : Nat) (east : Bool) : Nat → List Hop
  | 0 => []
  | n + 1 =>
    let c' := if east then c + 1 else c - 1
    hopTo (r, c) (r, c') (if east then 3 else 1) :: rowHops r c' east n

/-- `n` hops along the column from row `r` southward, or northward. -/
def colHops (r c : Nat) (south : Bool) : Nat → List Hop
  | 0 => []
  | n + 1 =>
    let r' := if south then r + 1 else r - 1
    hopTo (r, c) (r', c) (if south then 0 else 2) :: colHops r' c south n

/-- The route between two physical places: the sender's local port, then along the row, then along the column (R54). -/
def route (a b : Nat × Nat) : List Hop :=
  ⟨a.1, a.2, 4, none⟩ :: rowHops a.1 a.2 (a.2 < b.2) (max a.2 b.2 - min a.2 b.2) ++
    colHops a.1 b.2 (a.1 < b.1) (max a.1 b.1 - min a.1 b.1)

/-- The sending quires of the crossings of a route. -/
def crossings (hs : List Hop) : List Nat := hs.filterMap Hop.sender

/-- Physical place of a nib's router. -/
def State.nibPlace (s : State) (n : Nat) : Nat × Nat := (s.physRow (n / 64), s.physCol (n % 64))

/-- Physical place of a packet's destination: a nib's router, or a quill's edge port (R59). -/
def State.destPlace (s : State) : PacketDest → Nat × Nat
  | .nib n => s.nibPlace n
  | .quill q => if q < 8 then (16 * q + 8, 0) else (16 * (q - 8) + 8, 65)

/-- The route of a packet. -/
def State.routeOf (s : State) (src : Nat) (d : PacketDest) : List Hop := route (s.nibPlace src) (s.destPlace d)

/-- Router input port a packet comes by: along the row first, then along the column, in physical coordinates (R54). -/
def inputPort (srcRow srcCol dstRow dstCol : Nat) : Nat :=
  if srcRow < dstRow then 0
  else if dstRow < srcRow then 2
  else if srcCol < dstCol then 3
  else if dstCol < srcCol then 1
  else 4

/-- The port by which a packet of nib `src` reaches nib `n`. -/
def State.portOf (s : State) (src n : Nat) : Nat :=
  inputPort (s.physRow (src / 64)) (s.physCol (src % 64)) (s.physRow (n / 64)) (s.physCol (n % 64))

/-! ### What waiting packets hold (R44, R53, R57, R58) -/

/-- Flits that stand at the input ports of the mesh, by port. -/
abbrev Held := SMap Nat

/-- `n` flits stand in the buffers of a route given from its destination back, each port up to its room. Flits that find none
are still in the sender's store. -/
def fillBack : List Hop → Nat → Held → Held
  | [], _, m => m
  | h :: hs, n, m =>
    let k := min n (h.room - SMap.get 0 m h.key)
    fillBack hs (n - k) (SMap.upd 0 m h.key (· + k))

/-- Packets that wait at their destinations: at local inputs by the router port they came by, and at edge ports. A restored
parked packet stands at its nib and holds no port (port 5; 06 R202). -/
def State.waitingPackets (s : State) : List Packet :=
  s.nibs.flatMap (fun e => (e.2.inbox.filter fun w => w.port ≠ 5).map Waiting.pkt) ++
    s.quills.flatMap fun e => e.2.ruled.edge

/-- The flits that a list of waiting packets holds, in order. -/
def State.heldBy (s : State) (ps : List Packet) : Held :=
  ps.foldl (fun m p => fillBack (s.routeOf p.src p.dst).reverse p.flits m) []

/-- The flits that stand at input ports for waiting packets bound elsewhere than to `d`. -/
def State.heldFromOthers (s : State) (d : PacketDest) : Held :=
  s.heldBy (s.waitingPackets.filter fun p => p.dst ≠ d)

/-- A packet on this route cannot pass: a link of it is held by a packet that waits for another destination (R57). -/
def State.heldBack (s : State) (src : Nat) (d : PacketDest) : Bool :=
  let m := s.heldFromOthers d
  !m.isEmpty && (s.routeOf src d).any fun h => SMap.get 0 m h.key ≠ 0

/-- Flits that a sender's path takes: the room of its ports up to the first that another pair's waiting packets hold
(R53, R57, R58, R130). -/
def State.pathRoom (s : State) (n : Nat) (d : PacketDest) : Nat :=
  let m := s.heldBy (s.waitingPackets.filter fun p => p.src ≠ n || p.dst ≠ d)
  (((s.routeOf n d).takeWhile fun h => SMap.get 0 m h.key = 0).map Hop.room).sum

/-- Flits of nib `n` to a destination that have not been taken there (R130). -/
def State.flitsUnderway (s : State) (n : Nat) (d : PacketDest) : Nat :=
  let inMesh := (s.mesh.filter fun p => p.src = n && p.dst = d).foldl (fun k p => k + p.flits) 0
  match d with
  | .nib m => ((s.nib m).inbox.filter fun w => w.pkt.src = n).foldl (fun k w => k + w.pkt.flits) inMesh
  | .quill q => ((s.quill q).ruled.edge.filter fun p => p.src = n).foldl (fun k p => k + p.flits) inMesh

/-- Sending quires of the crossing FIFOs that a list of waiting packets fills (R58). -/
def State.fullCrossings (s : State) (ps : List Packet) : List Nat :=
  if ps.isEmpty then []
  else
    let m := s.heldBy ps
    ((ps.flatMap fun p => s.routeOf p.src p.dst).filterMap fun h =>
      if h.room ≤ SMap.get 0 m h.key then h.sender else none).eraseDups

/-- Sending quires of the crossings of a route whose receiving quire stretches (R58). -/
def State.slowCrossings (s : State) (hs : List Hop) : List Nat :=
  (hs.filterMap fun h => if (SMap.get {} s.quires h.quire).stretching then h.sender else none).eraseDups

/-- Quires `ks` have held their senders on a full crossing FIFO for some cycles more (R58, R60): how many is timing and a free
value. -/
def State.heldCycles (s : State) (ks : List Nat) : State :=
  ks.foldl (fun s k => s.took.bump 0x7015 k (s.free % 2 ^ 32)) s

/-! ### Progress (13 R383) -/

/-- A flit has moved through a port of quire `k`. -/
def State.flitMoved (s : State) (k : Nat) : State :=
  { s with quires := SMap.upd {} s.quires k fun x => { x with
    meshMoves := (x.meshMoves + 1) % 2 ^ 32, meshAt := s.now } }

/-- Flits of a packet have moved through every router of a route. -/
def State.meshMoved (s : State) (hs : List Hop) : State :=
  (hs.map Hop.quire).eraseDups.foldl State.flitMoved s

/-- Quires whose routers hold a flit: a packet on its way stands in its sender's quire (log entry 30), a waiting one in the
buffers it holds. -/
def State.meshQuires (s : State) : List Nat :=
  ((s.mesh.map fun p => s.nibQuire p.src) ++ s.waitingPackets.flatMap fun p =>
    let m := s.heldBy [p]
    ((s.routeOf p.src p.dst).filter fun h => SMap.get 0 m h.key ≠ 0).map Hop.quire).eraseDups

/-- Packets sent: they enter the mesh, and flits have moved through the sender's router. -/
def State.inject (s : State) (n : Nat) (ps : List Packet) : State :=
  State.flitMoved { s with mesh := s.mesh ++ ps } (s.nibQuire n)

/-! ### The packets of a send (R130) -/

/-- The destination that a send's word names; none for the margin engine. -/
def sendDest (w : Nat) : Option PacketDest :=
  match field w 44 43 with
  | 0 => some (.nib (field w 42 36 * 64 + field w 35 30))
  | 1 => some (.quill (field w 42 39))
  | _ => none

/-- The packet goes from nib `n` to `d` and carries a message. -/
def messageFor (n : Nat) (d : PacketDest) (p : Packet) : Bool :=
  p.src = n && p.dst = d &&
    match p.body with
    | .signal _ _ => false
    | _ => true

/-- Bytes of a send's message. -/
def InFlight.total (o : InFlight) : Nat := (o.tensors.map Tensor.denseSize).sum

/-- Packets of a send's message that have not been taken from the mesh: of those between its ends the latest, up to the message's
number (R56). -/
def State.ownPackets (s : State) (n : Nat) (o : InFlight) : List Packet :=
  match sendDest o.word with
  | none => []
  | some d =>
    let ps := s.mesh.filter (messageFor n d)
    ps.drop (ps.length - ceilDiv o.total 1024)

/-- The mesh with only the first `k` packets of messages from `n` to `d`. -/
def keepPackets (n : Nat) (d : PacketDest) : Nat → List Packet → List Packet
  | _, [] => []
  | k, p :: ps =>
    if !messageFor n d p then p :: keepPackets n d k ps
    else
      match k with
      | 0 => keepPackets n d 0 ps
      | k + 1 => p :: keepPackets n d k ps

/-- A send stops: the packets after the first `k` of its own in the mesh never leave its store, and its message ends there. -/
def State.stopSend (s : State) (n : Nat) (o : InFlight) (k : Nat) : State :=
  match sendDest o.word with
  | none => s
  | some d =>
    let own := (s.ownPackets n o).length
    let before := (s.mesh.filter (messageFor n d)).length - own
    let sent := ceilDiv o.total 1024 - own
    let s : State := { s with mesh := keepPackets n d (before + k) s.mesh }
    s.updNib n fun x => { x with slots := x.slots.map fun p =>
      if p.slot = o.slot then { p with stop := some (min o.total (1024 * (sent + k))) } else p }

/-- Packets of a send that have begun to leave its store at most: those before the last of which the path has no room for all
(R130). -/
def State.mayHaveBegun (s : State) (n : Nat) (o : InFlight) : Nat :=
  match sendDest o.word with
  | none => 0
  | some d =>
    let room := s.pathRoom n d
    let own := s.ownPackets n o
    let ahead := s.flitsUnderway n d - (own.map Packet.flits).sum
    let rec count (used : Nat) : List Packet → Nat
      | [] => 0
      | p :: ps => if used < room then 1 + count (used + p.flits) ps else 0
    count ahead own

/-- The oldest packet in the mesh from nib `src` to a destination, and the mesh without it (R56). -/
def takePacket (src : Nat) (d : PacketDest) : List Packet → Option (Packet × List Packet)
  | [] => none
  | p :: ps =>
    if p.src = src && p.dst = d then some (p, ps)
    else (takePacket src d ps).map fun r => (r.1, p :: r.2)

end Sys2Proof.Machine
end

