-- ==== Sys2Proof/Machine/Ruled.lean ====
section
/-! DEFINITION. Calendars, buffer tables, landing buffers and pen-lift requests (08 R236-R247, R257, R258), the mirror queue
(10 R325-R327). -/

namespace Sys2Proof.Machine

/-! ### Calendar entries and regions (R237, R243) -/

/-- OP of a calendar entry: 0 IDLE, 1 ORIGINATE, 2 FORWARD, 3 TERMINATE, 4 COMBINE, 5 REPLICATE. -/
def entOp (e : Nat) : Nat := field e 63 61
/-- CU: a catch-up entry. -/
def entCu (e : Nat) : Bool := bit e 60
/-- HASCU: a primary with a catch-up entry. -/
def entHasCu (e : Nat) : Bool := bit e 59
/-- LINK. -/
def entLink (e : Nat) : Nat := field e 58 49
/-- INQ. -/
def entInq (e : Nat) : Nat := field e 48 45
/-- ARR. -/
def entArr (e : Nat) : Nat := field e 44 35
/-- OMASK. -/
def entOmask (e : Nat) : Nat := field e 34 19
/-- BUF. -/
def entBuf (e : Nat) : Nat := field e 18 11
/-- The primary stroke of the entry at stroke `st`. -/
def entPrimary (e st : Nat) : Nat := if entCu e then entLink e else st

/-- First byte of a region. -/
def regBase (r : Nat) : Nat := 64 * field r 127 118
/-- Payload bytes of a region. -/
def regLen (r : Nat) : Nat := 8 * field r 117 108
/-- RKIND: 0 unused, 1 SEND, 2 LAND, 3 COMBINE. -/
def regKind (r : Nat) : Nat := field r 107 106
/-- CFMT: the elements are WIDE192, not WIDE64. -/
def regWide192 (r : Nat) : Bool := bit r 105
/-- WEXP. -/
def regWexp (r : Nat) : Nat := field r 104 95
/-- COMB. -/
def regComb (r : Nat) : Bool := bit r 94
/-- First byte of the hold part of a COMBINE region. -/
def regHold (r : Nat) : Nat := regBase r + 64 * ceilDiv (regLen r) 64
/-- Bytes that a region occupies. -/
def regSpan (r : Nat) : Nat := if regKind r = 3 then 2 * (64 * ceilDiv (regLen r) 64) else regLen r

/-- A copy of a quill's calendars. -/
def Quill.plan (x : Quill) (copy : Nat) : Calendar := if copy = 1 then x.ruled.plan1 else x.ruled.plan0

/-- Some entry of the copy is not idle. -/
def Calendar.active (c : Calendar) : Bool := c.tx.any (fun e => entOp e.2 ≠ 0) || c.rx.any fun e => entOp e.2 ≠ 0

namespace State

/-- The plan epoch: the copy in force (R239). -/
def planCopy (s : State) : Nat := s.obj 0x2802 0

/-- Some quill of the list holds a copy with an entry that is not idle. -/
def copyActive (s : State) (copy : Nat) : Bool := s.quills.any fun q => (q.2.plan copy).active

/-- A stroke plan is applied: some entry of the copy in force is not idle (R213, R224, R319). -/
def planApplied (s : State) : Bool := s.copyActive s.planCopy

/-- Every calendar entry of both copies is idle (R217). -/
def calendarsIdle (s : State) : Bool := !s.copyActive 0 && !s.copyActive 1

/-- The ruling-time line (R12). -/
def line (s : State) : Nat := s.now / 24576

/-- The plan epoch that an apply scheduled for the boundary of a coming line brings: the decision for its first stroke comes before the
apply (R235, R240). -/
def epochAhead (s : State) (line : Nat) : Option Nat :=
  let staged := SMap.get [] s.agent.staging.vals (objKey 0x2802 0)
  if s.line < line && s.agent.staging.st = .scheduled && s.agent.staging.instant = 24576 * line && staged ≠ [] then
    some (natLE staged)
  else none

/-- The copy in force in a line (R239, R240): that of the line's own time before the latest apply, and at the decision for
the first stroke of the next line that of an apply scheduled for its boundary. -/
def planOf (s : State) (line : Nat) : Nat :=
  if line < s.lines.applyLine then s.lines.copyBefore else (s.epochAhead line).getD s.planCopy

/-- Every nib of the declared grid is placed (R319, R351). -/
def allPlaced (s : State) : Bool :=
  (List.range s.declGrid.1).all fun r => (List.range s.declGrid.2).all fun c => (s.nib (r * 64 + c)).issue.placed

/-- The job's own entries run in a line: the binding is ON, or OPENING ends at the line's boundary (R319). -/
def ownRuns (s : State) (line : Nat) : Bool :=
  match s.binding.fn.code with
  | .on => true
  | .opening => s.line < line && s.binding.openLine = some line && s.allPlaced
  | _ => false

/-- A pen-lift is announced for a line (R259). -/
def lifted (s : State) (line : Nat) : Bool := s.lines.announced.any fun a => a.line = line

/-- The number of the fired line that ruling-time line `line` is, for the line in progress and its neighbours. -/
def firedIndex (s : State) (line : Nat) : Nat :=
  let d := s.time.lineDone
  if line < d then s.lines.fired - (if s.lifted d then 0 else 1)
  else if line = d then s.lines.fired
  else s.lines.fired + (if s.lifted line then 0 else 1)

/-- The job's tag (0x2801:00). -/
def jobTag (s : State) : Nat := s.obj 0x2801 0
/-- The module's chip number (R310). -/
def chip (s : State) : Nat := s.obj 0x2A00 0

/-! ### Pen-lift requests (R257, R258) -/

/-- The PENLIFT block of R258. -/
def penliftBlock (a : Announced) : Nat :=
  (a.line % 2 ^ 16) <<< 48 + (a.tag % 2 ^ 12) <<< 36 + (a.origin % 2 ^ 14) <<< 22 + (a.cause % 4) <<< 20

/-- The quill leads to a module of the codex: its neighbour names the same time root, which one across a joining link of a diptych does
not (10 R308). -/
def inCodex (s : State) (q : Nat) : Bool :=
  let p := (s.quill q).time
  !p.heard || p.root = s.obj 0x2706 0

/-- A PENLIFT block queued on every UP quill of the codex but `skip` (R258). -/
def relayPenlift (s : State) (a : Announced) (skip : Option Nat) : State :=
  (List.range 16).foldl (fun s q =>
    if (s.quill q).link = .up && s.inCodex q && some q ≠ skip then
      s.updQuill q fun x => { x with penlifts := x.penlifts ++ [⟨penliftBlock a, s.now⟩] }
    else s) s

/-- A pen-lift is requested for the line two ahead, with cause 1 LATE or 2 STRETCH. The block of a line and job already
announced is not sent again; during an abort nothing is requested (R391). -/
def requestPenlift (s : State) (cause : Nat) : State :=
  let a : Announced := ⟨s.line + 2, s.jobTag, s.chip, cause⟩
  if s.recovery.abort.isSome || s.lines.announced.any (fun b => b.line = a.line && b.tag = a.tag) then s
  else State.relayPenlift { s with lines := { s.lines with announced := s.lines.announced ++ [a] } } a none

/-! ### The replay buffer (09 R279) -/

/-- Occupancy of a quill's replay buffer in bytes (0x6047): 576 B a link frame, 4,144 B a kept copy. -/
def occupancy (s : State) (q : Nat) : Nat :=
  let x := s.quill q
  576 * x.port.unacked.length + 4144 * x.ruled.kept.length

/-- The highest occupancy of a quill's replay buffer is kept (0x6048). -/
def noteOccupancy (s : State) (q : Nat) : State :=
  if s.obj 0x6048 q < s.occupancy q then s.setObj 0x6048 q (s.occupancy q) else s

/-! ### Landing buffers (R244-R247) -/

/-- The ruled side of a quill changed by `f`. -/
def updRuled (s : State) (q : Nat) (f : RuledPort → RuledPort) : State :=
  s.updQuill q fun x => { x with ruled := f x.ruled }

/-- The regions of a quill's buffer table in force that are in use. -/
def regions (s : State) (q : Nat) : List Nat :=
  (((s.quill q).plan s.planCopy).bufs.map Prod.snd).filter fun r => regKind r ≠ 0

end State

/-- 8 B words that a byte range touches. -/
def wordsOf (a len : Nat) : List Nat := if len = 0 then [] else (List.range ((a + len - 1) / 8 - a / 8 + 1)).map (· + a / 8)

/-- The byte lies in a LAND region or in the hold part of a COMBINE region. -/
def regTakes (rs : List Nat) (a : Nat) : Bool :=
  rs.any fun r => (regKind r = 2 && regBase r ≤ a && a < regBase r + regLen r) ||
    (regKind r = 3 && regHold r ≤ a && a < regHold r + regLen r)

/-- The byte lies in a SEND region or in the local part of a COMBINE region. -/
def regGives (rs : List Nat) (a : Nat) : Bool :=
  rs.any fun r => (regKind r = 1 || regKind r = 3) && regBase r ≤ a && a < regBase r + regLen r

namespace RuledPort

/-- Word `w` is FULL. -/
def isFull (p : RuledPort) (w : Nat) : Bool := SMap.get false p.full w
/-- Word `w` is LANDED. -/
def isLanded (p : RuledPort) (w : Nat) : Bool := SMap.get false p.landed w
/-- A mark set or cleared on words. -/
def mark (m : SMap Bool) (ws : List Nat) (v : Bool) : SMap Bool := ws.foldl (fun m w => SMap.set false m w v) m

/-- A packet of KIND QUILL bound for a word that is still FULL waits (R244). -/
def waits (p : RuledPort) (rs : List Nat) (off len : Nat) : Bool :=
  (wordsOf off len).any fun w => p.isFull w && regGives rs (8 * w)

/-- The stamps and sources of the blocks that a packet writes (R244). -/
def stampBlocks (p : RuledPort) (rs : List Nat) (gen epoch nib : Nat) : Nat → List Nat → RuledPort
  | _, [] => p
  | b, a :: as =>
    let p := if regTakes rs (64 * b) then p else
      { p with blocks := SMap.set {} p.blocks b ⟨gen, epoch, p.writes, nib, a⟩ }
    p.stampBlocks rs gen epoch nib (b + 1) as

/-- A packet written (R244): bytes of a LAND region or a hold part are discarded, every other word becomes FULL. -/
def put (p : RuledPort) (rs : List Nat) (off : Nat) (bytes : List Byte) (gen epoch nib : Nat) (from_ : List Nat) : RuledPort :=
  let ws := (wordsOf off bytes.length).filter fun w => !regTakes rs (8 * w)
  let cells := (bytes.mapIdx fun i b => (off + i, b)).filter fun c => !regTakes rs c.1
  let p := { p with writes := p.writes + 1, full := mark p.full ws true, land := SMap.setAll 0 p.land cells }
  p.stampBlocks rs gen epoch nib (off / 64) from_

/-- A region's local part is ready: every word is FULL (R244). -/
def ready (p : RuledPort) (r : Nat) : Bool := (wordsOf (regBase r) (regLen r)).all p.isFull

/-- A region's local part departs: its FULL marks clear (R244). -/
def depart (p : RuledPort) (r : Nat) : RuledPort := { p with full := mark p.full (wordsOf (regBase r) (regLen r)) false }

/-- The stamp of the block written last among the blocks of a range (R245). -/
def lastStamp (p : RuledPort) (a len : Nat) : Nat × Nat :=
  let bs := (List.range (ceilDiv len 64)).map fun i => SMap.get {} p.blocks (a / 64 + i)
  let b := bs.foldl (fun (m : Block) b => if m.order < b.order then b else m) (bs.headD {})
  (b.gen, b.epoch)

/-- A payload written into the words from `a` on, with its frame's stamp. -/
def fill (p : RuledPort) (a : Nat) (bytes : List Byte) (gen epoch : Nat) : RuledPort :=
  let bs := (List.range (ceilDiv bytes.length 64)).map (· + a / 64)
  { p with
    land := p.land.writeBytes a bytes
    writes := p.writes + 1
    blocks := bs.foldl (fun m b => SMap.upd {} m b fun x => { x with gen := gen, epoch := epoch, order := p.writes }) p.blocks }

/-- The words of a landed payload become LANDED (R246). -/
def setLanded (p : RuledPort) (a len : Nat) : RuledPort := { p with landed := mark p.landed (wordsOf a len) true }

end RuledPort

namespace State

/-- The packets at a quill's edge port are taken in order until one must wait (R57, R244). -/
def drainEdge : Nat → Nat → State → State
  | 0, _, s => s
  | fuel + 1, q, s =>
    let p := (s.quill q).ruled
    match p.edge with
    | [] => s
    | k :: ks =>
      match k.body with
      | .quill off bytes from_ =>
        let rs := s.regions q
        if p.waits rs off bytes.length then s
        else
          let nib := s.physNib k.src
          drainEdge fuel q (s.updRuled q fun p =>
            RuledPort.put { p with edge := ks } rs off bytes k.gen k.epoch nib from_)
      | _ => drainEdge fuel q (s.updRuled q fun p => { p with edge := ks })

/-- What waits at a quill's edge port is offered again. -/
def offerEdge (s : State) (q : Nat) : State := drainEdge (s.quill q).ruled.edge.length q s

/-- A send's range touches a LAND region or a hold part of the quill in force (R244). -/
def landTouched (s : State) (q off len : Nat) : Bool :=
  (s.regions q).any fun r => (regKind r = 2 && off < regBase r + regLen r && regBase r < off + len) ||
    (regKind r = 3 && off < regHold r + regLen r && regHold r < off + len)

/-- Every word of a range of a quill's landing buffer is LANDED (R246). -/
def landed (s : State) (q lo len : Nat) : Bool := (wordsOf lo len).all (s.quill q).ruled.isLanded

/-- The stamps of a landed range are accepted by nib `n` (R45, R246). -/
def landStampOk (s : State) (n q lo len : Nat) : Bool :=
  let t := (s.nib n).tags
  (List.range (ceilDiv len 64)).all fun i =>
    let b := SMap.get ({} : Block) (s.quill q).ruled.blocks (lo / 64 + i)
    bit t.gmask b.gen && bit t.emask b.epoch

/-- A landed range leaves the buffer: its words become unlanded (R246). -/
def takeLanded (s : State) (q lo len : Nat) : State × List Byte :=
  (s.updRuled q fun p => { p with landed := RuledPort.mark p.landed (wordsOf lo len) false },
    (s.quill q).ruled.land.readBytes lo len)

/-- Every owed, awaiting and holding state is dropped, and what waits at the edge ports (R391). -/
def vacate (s : State) : State :=
  { s with quills := SMap.mapVals {} (fun _ x => { x with ruled := { x.ruled with
      owed := [], awaiting := [], awaitOld := [], holding := [], edge := [] } }) s.quills }

/-- Ruling time was stepped: strokes are decided and handled from the new time on (R217). -/
def resync (s : State) : State :=
  (List.range 16).foldl (fun s q =>
    let dq := signed 32 (s.obj 0x6021 q)
    let rx : Int := (16 * (s.now : Int) - dq - 96) / 384
    s.updQuill q fun x => { x with
      ruled := { x.ruled with decided := (s.now + 16) / 24, rxDone := rx.toNat, rlost := 0 }
      port := { x.port with ctlSent := (s.now - 21) / 24 } }) s

/-! ### The mirror queue (R325-R327) -/

/-- The mirror is stopped: pending records are discarded (R327). -/
def stopMirror (s : State) : State :=
  { s with nibs := SMap.mapVals Nib.fresh (fun _ x => { x with mirror := { x.mirror with queue := [] } }) s.nibs }

/-- A context becomes STALE on a nib (R327). -/
def makeStale (s : State) (n ctx : Nat) : State :=
  if SMap.get false (s.nib n).mirror.stale ctx then s
  else
    let s := s.updNib n fun x => { x with mirror := { x.mirror with
      stale := SMap.set false x.mirror.stale ctx true
      queue := x.mirror.queue.filter fun r => r.ctx ≠ ctx } }
    (s.bump 0x8071 0 1).event 0x04 ctx n

/-- A kcommit of `count` positions from `first` enters the nib's mirror queue (R325, R327). -/
def noteCommit (s : State) (n ctx first count : Nat) : State :=
  let m := (s.nib n).mirror
  if s.obj 0x2A20 0 = 0 || SMap.get false m.stale ctx then s
  else if 64 ≤ m.queue.length then s.makeStale n ctx
  else s.updNib n fun x => { x with mirror := { x.mirror with queue := x.mirror.queue ++ [⟨ctx, first, count, 0, 0⟩] } }

end State

end Sys2Proof.Machine
end

