-- ==== Sys2Proof/Machine/Blot.lean ====
section
/-! DEFINITION. Function states, blots and the abort (12 R376, R377; 13 R386-R392). -/

namespace Sys2Proof.Machine


/-- The job binding takes a new function state; a change of STATE raises FUNCTION (R377). -/
def State.setBinding (s : State) (f : FnState) : State :=
  let old := s.binding.fn
  let s := { s with binding := { s.binding with fn := f } }
  if old.code = f.code then s else s.event 0x08 0x2A10 f.byte

/-- A transfer that no chunk of it holds up leaves its queue (R391). -/
def endTransfers (ts : List Transfer) : List Transfer := ts.filter fun t => !t.flight.isEmpty

/-- What the abort does to one nib at t_b (R391): issue stops, every receive is cancelled, waiting packets are dropped, and every
transfer with no chunk in flight ends. A nib that has executed halt and is not yet HALTED reads STOPPED too. -/
def abortNib (x : Nib) : Nib :=
  let run := if x.issue.run = .running || x.issue.run = .halting then .stopped else x.issue.run
  { x with
    issue := { x.issue with run := run, hold := .none }
    slots := x.slots.filter fun o => o.kind ≠ .recv
    inbox := []
    resq := (x.resq.map fun e => (e.1, endTransfers e.2)).filter fun e => !e.2.isEmpty }

/-- Every nib changed by `f`. -/
def State.mapNibs (s : State) (f : Nib → Nib) : State :=
  { s with nibs := SMap.mapVals Nib.fresh (fun _ x => f x) s.nibs }

/-- Every send in flight stops at its next packet boundary (R391): of its packets that the path may have begun to take, how many it
has taken is timing and a free choice; the others never leave the store. -/
def State.stopSends (s : State) : State :=
  let ops := s.nibs.flatMap fun e => (e.2.slots.filter fun o => o.kind = .send && !o.written).map fun o => (e.1, o)
  ops.foldl (fun s x =>
    let k := s.mayHaveBegun x.1 x.2
    if k = 0 then s.stopSend x.1 x.2 0 else s.took.stopSend x.1 x.2 (s.free % (k + 1))) s

/-- Every HELD fault entry is freed (R391). -/
def freeHeld (m : SMap (Option FaultEntry)) : SMap (Option FaultEntry) :=
  m.map fun e =>
    match e.2 with
    | some x => if x.st = 1 then (e.1, some { x with st := 3 }) else e
    | none => e

/-- The BLOT item of R388. -/
def blotItem (tag origin reason bseq time : Nat) : Nat :=
  (tag % 2 ^ 12) <<< 52 + (origin % 2 ^ 14) <<< 38 + (reason % 2 ^ 6) <<< 32 + (bseq % 256) <<< 24 + field time 33 10

/-- A BLOT item queued on every UP quill but `skip` (R387, R389). -/
def State.relayBlot (s : State) (item : Nat) (skip : Option Nat) : State :=
  (List.range 16).foldl (fun s q =>
    if (s.quill q).link = .up && some q ≠ skip then
      s.updQuill q fun x => { x with blots := x.blots ++ [⟨item, s.now⟩] }
    else s) s

/-- The abort of R391 begins at t_b. `failed` is set when it meets OPENING (R377, R392). -/
def State.beginAbort (s : State) (reason origin bseq : Nat) : State :=
  let f := s.binding.fn
  let wasOpening : Bool := f.code = .opening
  let s := { s with recovery := { s.recovery with abort := some ⟨s.now, reason, origin, bseq⟩ } }
  let s := s.bump 0x80A1 0 1
  let s := s.setBinding { code := .closing, pending := false, failed := f.failed || wasOpening }
  let s := if wasOpening then s.event 0x09 0x2A10 0 else s
  let s := { s with binding := { s.binding with openLine := none, drainAt := none } }
  let s := s.stopSends.mapNibs abortNib
  let s := { s with recovery := { s.recovery with ended := true } }
  let s := { s with desk := { s.desk with
    entries := freeHeld s.desk.entries
    preempt := if s.desk.preempt.status = 1 then { s.desk.preempt with status := 3 } else s.desk.preempt } }
  s.vacate.stopMirror

/-- A compute-domain reset is in progress, or the module is COMPUTE_HELD or out of service (R392, R395, R404). -/
def State.computeDown (s : State) : Bool :=
  s.recovery.held.isSome || s.recovery.retired.isSome || s.recovery.steps.any fun t => t.step = 3

/-- The job may be blotted: it runs, opens, or closes under pre-emption, no abort is in progress, and the compute domain is not in
reset (R386, R392). -/
def State.mayBlot (s : State) : Bool :=
  s.recovery.abort.isNone && !s.computeDown &&
    match s.binding.fn.code with
    | .on => true
    | .opening => true
    | .closing => s.desk.preempt.status = 1
    | .off => false

/-- The module originates a blot (R387). Without a job to abort nothing happens. -/
def State.blot (s : State) (reason : Nat) : State :=
  if !s.mayBlot then s
  else
    let bseq := (s.recovery.bseq + 1) % 256
    let item := blotItem s.jobTag s.chip reason bseq s.now
    let s := s.bump 0x80A0 0 1
    let keys := s.recovery.keys ++ [⟨s.jobTag, s.chip, bseq, s.now⟩]
    let s := { s with recovery := { s.recovery with bseq := bseq, keys := keys.drop (keys.length - 64) } }
    let s := s.relayBlot item none
    let s := if reason = 8 then s else { s with pins := { s.pins with blotOutUntil := s.now + 1000 } }
    let s := s.event 0x0A reason item
    s.beginAbort reason s.chip bseq

end Sys2Proof.Machine
end

