-- ==== Sys2Proof/Machine/Engines.lean ====
section
/-! DEFINITION. What an operation of the matrix or vector engine writes into the local stores, and the escapes
and conversion events it counts (03; 04 R114, R117-R120). -/

namespace Sys2Proof.Machine

/-- What an operation leaves: the stores, the escapes of its destination, and the element results marked for
0x7019 and 0x701A (R97). -/
structure OpResult where
  mem : Memory
  esc : Escapes := {}
  toZero : Nat := 0
  saturated : Nat := 0
deriving DecidableEq, Repr

/-- One element result: its encoding, escapes and marks. -/
structure ElemResult where
  code : Nat
  esc : Escapes := {}
  toZero : Bool := false
  saturated : Bool := false
deriving DecidableEq, Repr

/-- The element result of rounding value `v` into the destination (R93); `sat` says an earlier rounding of it
was marked. -/
def elemOfVal (t : Tensor) (e : Nat) (v : Val) (sat : Bool) : ElemResult :=
  let c := t.fmt.encode t.wexp (t.rnd e 0) v
  ⟨c.1.code, c.2, c.1.toZero, sat || c.1.saturated⟩

/-- An element result written at element `i` of row `r` and counted. -/
def OpResult.put (o : OpResult) (d : Tensor) (r i : Nat) (x : ElemResult) : OpResult :=
  ⟨d.write o.mem r i x.code, o.esc.add x.esc, o.toZero + (if x.toZero then 1 else 0),
    o.saturated + (if x.saturated then 1 else 0)⟩

/-- Every element of `d` computed by `f` from the stores as they were before the operation (R32). -/
def mapElems (d : Tensor) (m : Memory) (f : Nat → Nat → ElemResult) : OpResult :=
  (List.range d.rows).foldl (fun o r =>
    (List.range (d.ext 0)).foldl (fun o i => o.put d r i (f r i)) o) { mem := m }

/-! ### mma (R68, R70-R76, R82-R85, R114) -/

/-- The format pairs of R68: whether the pair is summed by window, or none for a pair that is refused. -/
def mmaPair (a b : Fmt) : Option Bool :=
  let small (f : Fmt) : Bool := f = .e3m2 || f = .e2m3 || f = .e2m1 || f = .int4
  let eight (f : Fmt) : Bool := f = .e4m3 || f = .e5m2 || f = .int8
  let half (f : Fmt) : Bool := f = .bf16 || f = .fp16
  if (small a || eight a) && (small b || eight b) then some true
  else if half a && half b || a = .fp32 && b = .fp32 then some false
  else none

/-- One output element in window arithmetic (R70-R78). Within R74 the order of addition has no effect; beyond it the spec gives none,
and the model adds to the destination's current value in ascending K (DESIGN CHOICE, log entry 23). -/
def windowElem (d : Tensor) (e : Nat) (cur : Option Nat) (products : List Val) : ElemResult :=
  let w := d.wexp
  let init : Wide × Escapes :=
    match cur with
    | none => (.fin 0, {})
    | some c =>
      if d.fmt = .wide192 then (Wide.decode 192 c, {})
      else placeVal .wide192 w (d.rnd e 0xFFFFFFFF) (d.fmt.decode false w c)
  let ps := placeAll .wide192 w (d.rnd e) 0 products
  let s := sumWide 192 init.1 ps.1
  let esc := init.2.add (ps.2.add s.2)
  if d.fmt = .wide192 then { code := s.1.encode 192, esc := esc }
  else
    let x := elemOfVal d e (s.1.val w) false
    { x with esc := esc.add x.esc }

/-- One output element in FP32 groups (R82-R85). -/
def groupElem (d : Tensor) (e : Nat) (cur : Option Nat) (products : List Val) : ElemResult :=
  let i : Val :=
    match cur with
    | none => .zero false
    | some c => d.fmt.decode false 0 c
  let s := groupDot (d.rnd e) (descOrder d.raw) i products
  elemOfVal d e s.1 s.2

/-- mma: D[m][n] = Σk A[n][k] × B[m][k], with the destination joining when `acc` (R114). -/
def mmaResult (d a b : Tensor) (acc : Bool) (m : Memory) : OpResult :=
  let k := a.ext 0
  mapElems d m fun r i =>
    let products := (List.range k).map fun j => (a.val m i j).mul (b.val m r j)
    let cur := if acc then some (d.code m r i) else none
    let e := r * d.ext 0 + i
    if mmaPair a.fmt b.fmt = some true then windowElem d e cur products else groupElem d e cur products

/-! ### vop (R86-R89, R117-R119) -/

/-- Sources that function FN uses: S1, S2, S3 (R117). -/
def vopUses (fn : Nat) : Bool × Bool × Bool :=
  (true, fn ≤ 10, fn = 3 || fn = 10)

/-- An approximate function in a lane (R87): its value before the last rounding, and whether the FP32 step before it is
marked (R97). -/
def approxLane (d : Tensor) (e : Nat) (f : Val → Val) (x : Val) : Val × Bool :=
  if d.fmt = .fp32 then (f x, false) else roundFp32 (d.rnd e 0) (f x)

/-- The value of an element-wise function in floating point before its rounding into the lane, and whether an
earlier rounding is marked. SEL is not among them. -/
def vopVal (d : Tensor) (e fn : Nat) (x y z : Val) : Val × Bool :=
  let truth (b : Bool) : Val × Bool := (if b then .fin 1 1 0 else .zero false, false)
  match fn with
  | 0 => (x.add y, false)
  | 1 => (x.add y.neg, false)
  | 2 => (x.mul y, false)
  | 3 => ((x.mul y).add z, false)
  | 4 => (x.min y, false)
  | 5 => (x.max y, false)
  | 6 => truth (x.eq y)
  | 7 => truth (!x.eq y)
  | 8 => truth (x.lt y)
  | 9 => truth (x.lt y || x.eq y)
  | 11 => approxLane d e expVal x
  | 12 => approxLane d e logVal x
  | 13 => approxLane d e rcpVal x
  | _ => (x.neg, false)

/-- An element-wise result in a WIDE lane: each operand placed into the destination's window (R89). The one finite element whose
negation leaves the range, −2^(n − 2) units of the window, gives OVF with a RANGE escape. -/
def vopWide (d : Tensor) (e fn : Nat) (x y : Val) : Wide × Escapes :=
  let n := d.fmt.wideBits
  let a := placeVal d.fmt d.wexp (d.rnd e 0) x
  if fn = 14 then
    if x.eq (.fin (-(2 : Int) ^ (n - 2)) 1 d.wexp) then Wide.neg n (.fin (-(2 : Int) ^ (n - 2)))
    else
      let r := Wide.neg n a.1
      (r.1, a.2.add r.2)
  else
    let b := placeVal d.fmt d.wexp (d.rnd e 0) y
    let c := if fn = 1 then Wide.neg n b.1 else (b.1, {})
    let r := Wide.add n a.1 c.1
    (r.1, a.2.add (b.2.add (c.2.add r.2)))

/-- Lanes of the vector engine for a lane format (R98). -/
def laneCount : Fmt → Nat
  | .fp32 => 32
  | .wide64 => 16
  | .wide192 => 4
  | _ => 64

/-- One element-wise result: sources `s1`, `s2`, `s3` (the unused ones repeat `s1`) at dimension-0 position `i`
of destination row `r`; `e` is its index of R92. -/
def vopElem (d s1 s2 s3 : Tensor) (fn : Nat) (m : Memory) (r i e : Nat) : ElemResult :=
  let col (t : Tensor) : Nat := if t.ext 0 = 1 then 0 else i
  let v (t : Tensor) : Val := t.val m (t.bcastRow d r) (col t)
  let c (t : Tensor) : Nat := t.code m (t.bcastRow d r) (col t)
  if d.fmt.isWide then
    let x := vopWide d e fn (v s1) (v s2)
    { code := x.1.encode d.fmt.wideBits, esc := x.2 }
  else if fn = 10 then
    { code := if (v s3).eq (.zero false) then c s2 else c s1 }
  else
    let x := vopVal d e fn (v s1) (v s2) (v s3)
    elemOfVal d e x.1 x.2

/-- The length of the sum of a reducing vop: the sources' common dimension 0 (R119). -/
def vopLength (s1 s2 s3 : Tensor) : Nat := max (s1.ext 0) (max (s2.ext 0) (s3.ext 0))

/-- The FP32 step of exp, log or rcp in the lane of a reducing vop is marked (R87, R97). -/
def vopMarked (d s1 : Tensor) (fn : Nat) (m : Memory) (r i e : Nat) : Bool :=
  !d.fmt.isWide && (vopVal d e fn (s1.val m (s1.bcastRow d r) (if s1.ext 0 = 1 then 0 else i)) (.zero false) (.zero false)).2

/-- One result of a reducing vop (R89, R92): every element-wise result is rounded, then summed. Of the roundings before the sum the
FP32 steps of exp, log and rcp mark it (R97). -/
def vopReduce (d s1 s2 s3 : Tensor) (fn : Nat) (m : Memory) (r : Nat) : ElemResult :=
  let l := vopLength s1 s2 s3
  let parts := (List.range l).map fun i => vopElem d s1 s2 s3 fn m r i (i + l * r)
  let n := d.fmt.wideBits
  if d.fmt.isWide then
    let esc := parts.foldl (fun x p => x.add p.esc) ({} : Escapes)
    let s := reduceWide n (laneCount d.fmt) (parts.map fun p => Wide.decode n p.code)
    { code := s.1.encode n, esc := esc.add s.2 }
  else
    elemOfVal d r (reduceFloat (laneCount d.fmt) (parts.map fun p => d.fmt.decode false 0 p.code))
      ((List.range l).any fun i => vopMarked d s1 fn m r i (i + l * r))

/-- vop (R117, R119). -/
def vopResult (d s1 s2 s3 : Tensor) (fn : Nat) (red : Bool) (m : Memory) : OpResult :=
  mapElems d m fun r i =>
    if red then vopReduce d s1 s2 s3 fn m r else vopElem d s1 s2 s3 fn m r i (r * d.ext 0 + i)

/-! ### cvt (R93-R97, R120) -/

/-- emax of an MX destination (R96). -/
def mxEmax : Fmt → Int
  | .e4m3 => 8
  | .e5m2 => 15
  | .e3m2 => 4
  | .e2m3 => 2
  | .e2m1 => 2
  | _ => 0

/-- Exponent of the magnitude of a value, floor(log2 |v|), for a finite nonzero value. -/
def Val.log2 : Val → Option Int
  | .fin n d e => some (log2Quot n.natAbs d + e)
  | _ => none

/-- The scale byte of a block for an MX destination (R96). Of a block with no special element, the largest
magnitude has the largest exponent. -/
def mxScale (f : Fmt) (vs : List Val) : Nat :=
  if vs.any fun v => v = .nan || v = .ovf || v = .inf true || v = .inf false then 0xFF
  else
    match (vs.filterMap Val.log2) with
    | [] => 0
    | x :: xs => (clampInt (-127) 127 (xs.foldl max x - mxEmax f) + 127).toNat

/-- One block of a conversion into an MX destination: its scale byte and its elements from position `i` of row
`r` (R96). The elements of a block of scale 0xFF are written as +0 and count nowhere, its NaN and OVF elements too: R96 does not say
whether they count at 0x7019 (DESIGN CHOICE, log entry 23). -/
def mxBlock (d : Tensor) (r i : Nat) (vs : List Val) : Nat × List ElemResult :=
  let s := mxScale d.fmt vs
  if s = 0xFF then (s, vs.map fun _ => { code := 0 })
  else
    let k : Int := 127 - (s : Int) + (if d.fmt = .int8 then 6 else 0)
    (s, vs.mapIdx fun j v => elemOfVal d (r * d.ext 0 + i + j) (v.scale k) false)

/-- One row of a conversion into an MX destination: blocks of 32 from block `b`. -/
def mxRow (d : Tensor) (r : Nat) : Nat → Nat → List Val → OpResult → OpResult
  | 0, _, _, o => o
  | fuel + 1, b, vs, o =>
    if vs.isEmpty then o
    else
      let x := mxBlock d r (32 * b) (vs.take 32)
      let o := (x.2.foldl (fun (p : OpResult × Nat) y => (p.1.put d r p.2 y, p.2 + 1)) (o, 32 * b)).1
      mxRow d r fuel (b + 1) (vs.drop 32)
        { o with mem := o.mem.write (d.scaleAddr r (32 * b)) (BitVec.ofNat 8 x.1) }

/-- cvt (R120). -/
def cvtResult (d s : Tensor) (m : Memory) : OpResult :=
  if d.scaled then
    (List.range d.rows).foldl (fun o r =>
      mxRow d r (d.rowBlocks + 1) 0 ((List.range (d.ext 0)).map fun i => s.val m r i) o) { mem := m }
  else mapElems d m fun r i => elemOfVal d (r * d.ext 0 + i) (s.val m r i) false

end Sys2Proof.Machine
end

