-- ==== Sys2Proof/Machine/NibOps.lean ====
section
/-! DEFINITION. Shared operations of a nib: issue, loops, tokens, slots, store errors, faults, local input
(02, 04, 05 R164-R167). -/

namespace Sys2Proof.Machine

/-! ### Faults (R145-R148) -/

/-- What a fault record says beside the nib (R147). -/
structure FaultInfo where
  code : Nat
  addr : Nat
  handle : Option Nat := none
  detail : Nat := 0
deriving DecidableEq, Repr

/-- The fault record of R147. -/
def faultRecord (phys : Nat) (f : FaultInfo) : Nat :=
  (phys % 2 ^ 16) <<< 48 + (f.code % 256) <<< 40 + (f.addr % 4096) <<< 28 +
    (match f.handle with
     | some h => 2 ^ 27 + (h % 512) <<< 18
     | none => 0) + f.detail % 2 ^ 18

/-- A first-fault record: it takes the first fault, and of faults of one nanosecond that of the lowest physical
nib index (R148). `k` numbers the record. -/
def State.firstFault (s : State) (index sub k r : Nat) : State :=
  let old := s.obj index sub
  if old = 0 || (SMap.get none s.recovery.faultAt k = some s.now && r >>> 48 < old >>> 48) then
    { s.setObj index sub r with recovery :=
      { s.recovery with faultAt := SMap.set none s.recovery.faultAt k (some s.now) } }
  else s

/-- A nib faults (R146): it issues nothing more, its recv in flight is cancelled, what waits at its local input is
discarded and counted at 0x701D, the fault is recorded and counted, and the job is blotted. An uncorrectable word calls for a
compute-domain reset once that abort ends (13 R393). -/
def State.nibFault (s : State) (n : Nat) (f : FaultInfo) : State :=
  let x := s.nib n
  let q := s.nibQuire n
  let r := faultRecord (s.physNib n) f
  let s := s.setNib n { x with
    issue := { x.issue with run := .faulting, hold := .none, faultRec := r }
    slots := x.slots.filter fun o => o.kind ≠ .recv
    inbox := [] }
  let s := s.bump 0x701D q x.inbox.length
  let s := (s.firstFault 0x701B q q r).bump 0x701C q 1
  let s := (s.firstFault 0x8010 0 16 r).blot 1
  if (f.code = 0x10 || f.code = 0x11) && s.recovery.abort.isSome then
    { s with recovery := { s.recovery with storeUe := true } }
  else s

/-! ### Store errors (R36) -/

/-- The word at `w` lies in the byte range. -/
def wordIn (w : Nat) (r : Nat × Nat) : Bool := overlaps (w, 8) r
/-- The range covers the whole word at `w`. -/
def wordWhole (w : Nat) (r : Nat × Nat) : Bool := r.1 ≤ w && w + 8 ≤ r.1 + r.2

/-- Counter of corrected words by the store a word lies in (R36). -/
def ceCounter (w : Nat) : Nat := if inWell w then 0x7010 else 0x7012
/-- Counter of uncorrectable words by the store a word lies in (R36). -/
def ueCounter (w : Nat) : Nat := if inWell w then 0x7011 else 0x7013
/-- The fault code of an uncorrectable word (R145). -/
def ueCode (w : Nat) : Nat := if inWell w then 0x10 else 0x11

/-- An uncorrectable word is counted and its address kept at 0x7014 (R36, R60). -/
def State.countUe (s : State) (n w : Nat) : State :=
  let q := s.nibQuire n
  (s.bump (ueCounter w) q 1).setObj 0x7014 q ((s.physNib n) <<< 48 + w % 2 ^ 23)

/-- One word in error met by a read (R36): true when it is uncorrectable. Three or more bits in error take one of
the two outcomes, a free choice, and a miscorrected word takes a free content. -/
def State.meetWord (s : State) (n w bits : Nat) : State × Bool :=
  if bits = 1 then
    ((s.updNib n fun x => { x with ecc := SMap.set 0 x.ecc w 0 }).bump (ceCounter w) (s.nibQuire n) 1, false)
  else if bits = 2 then (s.countUe n w, true)
  else if s.free % 2 = 0 then (s.took.countUe n w, true)
  else
    let v := Config.free (s.fresh + 1)
    ((s.took.took.updNib n fun x =>
      { x with ecc := SMap.set 0 x.ecc w 0, mem := x.mem.writeBytes w (bytesLE 8 v) }).bump (ceCounter w)
        (s.nibQuire n) 1, false)

/-- The words in error of the given list met in order, up to the first uncorrectable one. -/
def State.meetWords (s : State) (n : Nat) : List (Nat × Nat) → State × Option Nat
  | [] => (s, none)
  | (w, b) :: ws =>
    let r := s.meetWord n w b
    if r.2 then (r.1, some w) else r.1.meetWords n ws

/-- A read of byte ranges by an operation: the first uncorrectable word met, if any. -/
def State.readStores (s : State) (n : Nat) (rs : List (Nat × Nat)) : State × Option Nat :=
  s.meetWords n ((s.nib n).ecc.filter fun e => rs.any (wordIn e.1))

/-- A write of byte ranges `rs`, of which `whole` are written whole: the merge read of every other word may meet an
uncorrectable one; when none does, the words written whole lose their errors (R26, R36). -/
def State.mergePart (s : State) (n : Nat) (rs whole : List (Nat × Nat)) : State × Option Nat :=
  let r := s.meetWords n ((s.nib n).ecc.filter fun e => rs.any (wordIn e.1) && !whole.any (wordWhole e.1))
  match r.2 with
  | some w => (r.1, some w)
  | none => (r.1.updNib n fun x => { x with ecc := x.ecc.filter fun e => !whole.any (wordWhole e.1) }, none)

/-- A write of byte ranges, every byte of them. -/
def State.mergeStores (s : State) (n : Nat) (rs : List (Nat × Nat)) : State × Option Nat := s.mergePart n rs rs

/-- The addresses of byte ranges. -/
def rangeAddrs (rs : List (Nat × Nat)) : List Nat := rs.flatMap fun r => (List.range r.2).map fun i => r.1 + i

/-- Adjacent addresses joined into ranges. -/
def joinAddrs : List Nat → List (Nat × Nat)
  | [] => []
  | a :: as =>
    match joinAddrs as with
    | (b, l) :: rs => if b = a + 1 then (a, l + 1) :: rs else (a, 1) :: (b, l) :: rs
    | [] => [(a, 1)]

/-- The words that a write stopped part-way may have written whole though they were in error: those it covers whole and takes no
result for from an unreadable word, each by a free choice (R36, R146). -/
def clearedWords (f : Nat) (a b : Memory) (whole : List (Nat × Nat)) (ecc : SMap Nat) : List Nat :=
  (ecc.filter fun e => whole.any (wordWhole e.1) && f.testBit e.1 &&
    a.readBytes e.1 8 = b.readBytes e.1 8).map Prod.fst

/-- Destination bytes of an operation that stops on a fault or is dropped, each old or new by a free choice (R146). `a` and `b` are
what the operation leaves with the unreadable word read as zeros and as ones: a byte in which they differ is a result derived from
that word and is not written (R36). A word in error is written whole or not at all. -/
def mixBytes (f : Nat) (a b : Memory) (ecc : SMap Nat) (cleared : List Nat) : List Nat → Memory → Memory
  | [], m => m
  | x :: xs, m =>
    let w := x / 8 * 8
    let put : Bool := if SMap.get 0 ecc w = 0 then f.testBit x && a.read x = b.read x else cleared.contains w
    mixBytes f a b ecc cleared xs (if put then m.write x (a.read x) else m)

/-- An operation on nib `n` stops part-way: its destination is left as `mixBytes` says, by one free choice. -/
def State.partWritten (s : State) (n : Nat) (a b : Memory) (dest whole : List (Nat × Nat)) : State :=
  let f := s.free
  s.took.updNib n fun x =>
    let c := clearedWords f a b whole x.ecc
    { x with
      mem := mixBytes f a b x.ecc c (rangeAddrs dest) x.mem
      ecc := x.ecc.filter fun e => !c.contains e.1 }

/-! ### Words of a transfer in flight (R40) -/

/-- A transfer is an rstore. -/
def Transfer.store (t : Transfer) : Bool := field t.word 63 58 = 0x2A
/-- Bytes a transfer moves. -/
def Transfer.len (t : Transfer) : Nat := t.tensor.denseSize
/-- Chunks of a transfer, cut at 4 KiB boundaries of the desk-virtual address (06 R188). -/
def Transfer.chunks (t : Transfer) : Nat := (t.va + t.len - 1) / 4096 - t.va / 4096 + 1
/-- Desk-virtual start of chunk `c`. -/
def Transfer.chunkVa (t : Transfer) (c : Nat) : Nat := max t.va ((t.va / 4096 + c) * 4096)
/-- Length of chunk `c`. -/
def Transfer.chunkLen (t : Transfer) (c : Nat) : Nat := min (t.va + t.len) ((t.va / 4096 + c + 1) * 4096) - t.chunkVa c
/-- Well bytes of chunk `c` of a transfer, byte by byte. -/
def Transfer.wellAddrs (t : Transfer) (c : Nat) : List Nat :=
  (List.range (t.chunkLen c)).map fun i => t.tensor.denseAddr (t.chunkVa c - t.va + i)

/-- What a fetch in flight will write over byte ranges of the nib's well: addresses and bytes. -/
def State.fetching (s : State) (n : Nat) (rs : List (Nat × Nat)) : List (Nat × Byte) :=
  (s.nib n).resq.flatMap fun q => q.2.flatMap fun t =>
    if t.store then []
    else t.flight.flatMap fun k =>
      if k.cause ≠ 0 then []
      else
        let addrs := t.wellAddrs k.idx
        (addrs.zip (s.desk.mem.readBytes k.pa addrs.length)).filter fun e => rs.any (wordIn (e.1 / 8 * 8))

/-- A nib's stores as an operation that reads `rs` sees them: an 8 B word that a fetch in flight writes is old or new, a free choice
(R40). -/
def State.viewed (s : State) (n : Nat) (rs : List (Nat × Nat)) : State × Memory :=
  let new := s.fetching n rs
  if new.isEmpty then (s, (s.nib n).mem)
  else
    let f := s.free
    (s.took, new.foldl (fun m e => if f.testBit (e.1 / 8) then m.write e.1 e.2 else m) (s.nib n).mem)

/-- What an operation leaves in the stores when it has seen `view` and left `new` from it: what it wrote over what they hold. -/
def unview (old view new : Memory) (dest : List (Nat × Nat)) : Memory :=
  if view = old then new
  else (rangeAddrs dest).foldl (fun m a => m.write a (new.read a)) old

/-! ### Comparators and loops (R47-R51) -/

/-- The truth of a relation (R47). -/
def relTrue (rel a b : Nat) : Bool :=
  match rel with
  | 1 => a = b
  | 2 => a ≠ b
  | 3 => a < b
  | 4 => b ≤ a
  | 5 => signed 32 a < signed 32 b
  | 6 => signed 32 b ≤ signed 32 a
  | 7 => true
  | _ => false

/-- Counter `c`. -/
def Nib.ct (x : Nib) (c : Nat) : Nat := SMap.get 0 x.counters c
/-- Counter `c` written. -/
def Nib.setCt (x : Nib) (c v : Nat) : Nib := { x with counters := SMap.set 0 x.counters c (v % 2 ^ 32) }

/-- Output of comparator `i` (R47). -/
def Nib.cmpOut (x : Nib) (i : Nat) : Bool :=
  let c := SMap.get {} x.cmps i
  relTrue c.rel (x.ct c.a) (if c.imm then c.val else x.ct c.cb)

/-- Iteration index of a loop level, 0 the innermost; none when it is not active. -/
def Nib.loopIndex (x : Nib) (lvl : Nat) : Option Nat := (x.issue.loops[lvl]?).map LoopLevel.index

/-- The loop unit's decision after the instruction at `a` has issued (R50, R51): the levels that remain and the next address,
which is `t` where no body begins again. -/
def loopNext (x : Nib) (a t : Nat) : List LoopLevel → List LoopLevel × Nat
  | [] => ([], t)
  | l :: ls =>
    if a ≠ l.last then (l :: ls, t)
    else if l.index + 1 = l.count || (l.exit.map x.cmpOut).getD false then loopNext x a t ls
    else ({ l with index := l.index + 1 } :: ls, l.first)

/-- Issue moves to `a`. Past 4,095 the nib raises ADDRESS with detail 0 in place of the next issue (R52); so it does after a loop of
count 0 whose body ends at 4,095, though the instruction there has not issued (DESIGN CHOICE, log entry 32). -/
def State.moveIssue (s : State) (n a : Nat) : State :=
  let s := s.updNib n fun x => { x with issue := { x.issue with addr := a, hold := .none } }
  if 4096 ≤ a then s.nibFault n { code := 0x02, addr := 4095 } else s

/-- A unit of the nib made progress (13 R383). -/
def State.progress (s : State) (n unit : Nat) : State :=
  s.updNib n fun x => { x with
    progress := SMap.upd 0 x.progress unit fun c => (c + 1) % 2 ^ 32
    progressAt := SMap.set 0 x.progressAt unit s.now }

/-- A unit has left the state in which it is checked (13 R384): its sample does not count. -/
def State.unchecked (s : State) (n unit : Nat) : State :=
  { s with recovery := { s.recovery with samples := SMap.set none s.recovery.samples (16 * n + unit) none } }

/-- The instruction at the issue address has issued: the loop unit decides what is next (R50). -/
def State.advance (s : State) (n : Nat) : State :=
  let x := s.nib n
  let r := loopNext x x.issue.addr (x.issue.addr + 1) x.issue.loops
  (s.updNib n fun x => { x with issue := { x.issue with loops := r.1 } }).moveIssue n r.2

/-! ### Tokens (R41-R44) -/

/-- A token (R41). -/
def token (gen epoch kind value : Nat) : Nat :=
  (gen % 8) <<< 29 + (epoch % 2) <<< 28 + (kind % 4) <<< 24 + value % 2 ^ 24

/-- The tokens of queue `q`, oldest first. -/
def Nib.queue (x : Nib) (q : Nat) : List Nat := SMap.get [] x.queues q
/-- Queue `q` has room for a token. -/
def Nib.room (x : Nib) (q : Nat) : Bool := (x.queue q).length < 64
/-- A token added to queue `q`. -/
def Nib.enqueue (x : Nib) (q t : Nat) : Nib := { x with queues := SMap.set [] x.queues q (x.queue q ++ [t]) }

/-! ### In-flight slots (R37-R39, R44, R81) -/

/-- DEN and DQ of a long-running operation's word (R113, R129, R140). -/
def InFlight.den (o : InFlight) : Bool × Nat :=
  match o.kind with
  | .mma => (bit o.word 25, field o.word 24 21)
  | .vop => (bit o.word 11, field o.word 10 7)
  | .cvt => (bit o.word 35, field o.word 34 31)
  | .send => (bit o.word 9, field o.word 8 5)
  | .recv => (bit o.word 8, field o.word 7 4)
  | .kappend => (bit o.word 14, field o.word 13 10)
  | .kmask => (bit o.word 38, field o.word 37 34)

/-- The unit of 13 R385 that runs an operation. -/
def InFlight.unit (o : InFlight) : Nat :=
  match o.kind.engine with
  | .matrix => 1
  | .vector => 2
  | .sender => 3
  | .receiver => 4

/-- Escapes added to an escape record, saturating (R80, R81). -/
def escAdd (r : Nat) (e : Escapes) : Nat :=
  let below := min (field r 63 32 + e.below) 0xFFFFFFFF
  let above := min (field r 31 8 + e.above) 0xFFFFFF
  let fl (i : Nat) (b : Bool) : Nat := if bit r i || b then 2 ^ i else 0
  below <<< 32 + above <<< 8 + fl 3 e.special + fl 2 e.range + fl 1 e.ovf + fl 0 (e.below ≠ 0)

/-- A finished operation frees its slot, and what it counted joins its destination's escape record and the counts
of the quire (R81, R97, R99). A halting nib makes progress by it (13 R383). -/
def State.freeSlot (s : State) (n : Nat) (o : InFlight) : State :=
  let q := s.nibQuire n
  let s := s.updNib n fun x => { x with
    slots := x.slots.filter fun p => p.slot ≠ o.slot
    escs := match o.kind, o.tensors with
      | .mma, t :: _ => SMap.upd 0 x.escs t.handle fun r => escAdd r o.esc
      | .vop, t :: _ => SMap.upd 0 x.escs t.handle fun r => escAdd r o.esc
      | .cvt, t :: _ => SMap.upd 0 x.escs t.handle fun r => escAdd r o.esc
      | _, _ => x.escs }
  let add (s : State) (i k : Nat) : State := if k = 0 then s else s.bump i q k
  let s := add (add (add (add s 0x7017 o.esc.below) 0x7018 o.esc.above) 0x7019 o.toZero) 0x701A o.saturated
  if (s.nib n).issue.run = .halting then s.progress n 0 else s

/-- The DONE token of a finished operation enqueued if its queue has room (R44); without DEN the slot just frees
(R113). The unit makes progress when a token is enqueued (13 R383). -/
def State.emitDone (s : State) (n : Nat) (o : InFlight) : State :=
  if !o.den.1 then s.freeSlot n o
  else if (s.nib n).room o.den.2 then
    ((s.freeSlot n o).progress n o.unit).updNib n fun x => x.enqueue o.den.2 (token o.gen o.epoch 1 o.addr)
  else s

/-- The finished operations that wait for room, in slot order (R42, R44). -/
def State.retryDone (s : State) (n : Nat) : State :=
  [0, 1, 2, 3].foldl (fun s i =>
    match (s.nib n).slots.find? fun o => o.slot = i && o.written with
    | some o => s.emitDone n o
    | none => s) s

/-- A slot record replaced. -/
def Nib.setSlot (x : Nib) (o : InFlight) : Nib :=
  { x with slots := x.slots.map fun p => if p.slot = o.slot then o else p }

/-- An operation has written its results: its DONE token is emitted or waits (R44). -/
def State.finishOp (s : State) (n : Nat) (o : InFlight) : State :=
  let o := { o with written := true }
  (s.updNib n fun x => x.setSlot o).emitDone n o

/-- The lowest free slot. -/
def Nib.freeSlotNo (x : Nib) : Option Nat := [0, 1, 2, 3].find? fun i => x.slots.all fun o => o.slot ≠ i

/-- The ranges of R39 that an operation must wait for: a write range over any operand range, or a read range over a
write range, of an operation in flight. -/
def Nib.rangeBusy (x : Nib) (reads writes : List (Nat × Nat)) : Bool :=
  x.slots.any fun o => anyOverlap writes (o.reads ++ o.writes) || anyOverlap reads o.writes

/-- The oldest operation of an engine that has not written its results (R38). -/
def Nib.oldest (x : Nib) (e : EngineUnit) : Option InFlight :=
  x.slots.find? fun o => o.kind.engine = e && !o.written

/-- The quire clock of a nib runs (07 R206, R211). -/
def State.clocked (s : State) (n : Nat) : Bool := (SMap.get {} s.quires (s.nibQuire n)).running

/-- The oldest operation of the engine of kind `k`, when it is of that kind and the quire's clock runs (R38). -/
def State.engineOp (s : State) (n : Nat) (k : OpKind) : Option InFlight :=
  if !s.clocked n then none
  else
    match (s.nib n).oldest k.engine with
    | some o => if o.kind = k then some o else none
    | none => none

/-- The fault of an operation that met the uncorrectable word `ue` (R146): no DONE token, the slot freed, its destination left part
written, and the fault at the issuing instruction. `a` and `b` are as `mixBytes` takes them. -/
def State.opFault (s : State) (n : Nat) (o : InFlight) (ue : Nat) (a b : Memory) (dest whole : List (Nat × Nat)) : State :=
  ((s.partWritten n a b dest whole).updNib n fun x => { x with slots := x.slots.filter fun p => p.slot ≠ o.slot }).nibFault n
    { code := ueCode ue, addr := o.addr }

/-- What an operation of the matrix or vector engine does: the ranges it reads, those it writes, those of them it writes whole
(R26, R64), and what it leaves. -/
structure Work where
  srcs : List (Nat × Nat)
  dest : List (Nat × Nat)
  whole : List (Nat × Nat)
  result : Memory → OpResult

/-- An 8 B word read as zeros, or as ones. -/
def wordAs (b : Byte) (m : Memory) (w : Nat) : Memory := m.writeBytes w (List.replicate 8 b)

/-- An operation of the matrix or vector engine reads its sources and writes its results (R28, R30, R36, R40). -/
def State.completeOp (s : State) (n : Nat) (o : InFlight) (k : Work) : State :=
  let r := s.readStores n k.srcs
  let v := r.1.viewed n k.srcs
  match r.2 with
  | some w => v.1.opFault n o w (k.result (wordAs 0 v.2 w)).mem (k.result (wordAs 0xFF v.2 w)).mem k.dest k.whole
  | none =>
    let r := v.1.mergePart n k.dest k.whole
    let old := (r.1.nib n).mem
    let view := if v.2 = (v.1.nib n).mem then old else v.2
    let p := k.result view
    match r.2 with
    | some w => r.1.opFault n o w p.mem p.mem k.dest k.whole
    | none =>
      (r.1.updNib n fun x => { x with mem := unview old view p.mem k.dest }).finishOp n
        { o with esc := p.esc, toZero := p.toZero, saturated := p.saturated }

/-! ### Local input (R57, R127, R131, R146) -/

/-- The packet is stamped with a generation and an epoch the nib accepts (R127). -/
def Nib.accepts (x : Nib) (p : Packet) : Bool := bit x.tags.gmask p.gen && bit x.tags.emask p.epoch

/-- What becomes of a packet at the head of its input port. -/
inductive Arrival where
  | taken (s : State)
  | waits
deriving DecidableEq, Repr

/-- The recv in flight that takes mesh messages of queue `q` (R131). -/
def Nib.recvFor (x : Nib) (q : Nat) : Option InFlight :=
  x.slots.find? fun o => o.kind = .recv && !o.written && field o.word 24 23 = 0 && field o.word 44 41 = q

/-- A stream packet of a mesh message reaches a posted recv (R131): its bytes are written at their offset, and the
last packet's DATA token is enqueued. A message that does not fit raises STREAM_BOUNDS. -/
def State.recvPacket (s : State) (n : Nat) (p : Packet) (q base total off : Nat) (bytes : List Byte)
    (last : Bool) : Arrival :=
  let x := s.nib n
  match x.recvFor q with
  | none => .waits
  | some o =>
    match o.tensors with
    | [] => .waits
    | t :: _ =>
      let opens := !o.partials.contains p.src
      if opens && o.left ≤ o.admitted then .waits
      else if t.denseSize < base + total then
        .taken (s.nibFault n { code := 0x09, addr := o.addr, detail := q <<< 14 })
      else if last && !x.room q then .waits
      else
        let segs := joinAddrs ((List.range bytes.length).map fun i => t.denseAddr (off + i))
        let r := s.mergeStores n segs
        let mem := t.writeDense (r.1.nib n).mem off bytes
        match r.2 with
        | some w => .taken (r.1.opFault n o w mem mem segs segs)
        | none =>
          let parts := if opens then o.partials ++ [p.src] else o.partials
          let o := { o with
            admitted := if opens then o.admitted + 1 else o.admitted
            partials := if last then parts.erase p.src else parts }
          let o := if last then { o with left := o.left - 1, admitted := o.admitted - 1 } else o
          let s := r.1.updNib n fun x => ({ x with mem := mem }).setSlot o
          let s := s.progress n 4
          .taken (if last then s.updNib n fun x =>
            x.enqueue q (token p.gen p.epoch 2 (ceilDiv total 64)) else s)

/-- A packet at the head of its input port reaches the local output (R45, R57, R123, R127, R146). What is left of an aborted job is
dropped (13 R391). -/
def State.localOutput (s : State) (n : Nat) (p : Packet) : Arrival :=
  let x := s.nib n
  let q := s.nibQuire n
  if x.issue.run = .faulting || x.issue.run = .faulted then .taken (s.bump 0x701D q 1)
  else if s.recovery.ended then .taken s
  else if !x.accepts p then .taken (s.bump 0x7016 q 1)
  else
    match p.body with
    | .signal tq v =>
      if x.room tq then .taken (s.updNib n fun x => x.enqueue tq (token p.gen p.epoch 0 v)) else .waits
    | .data tq base total off bytes last => s.recvPacket n p tq base total off bytes last
    | .quill _ _ _ => .taken s

/-- The packets at the local input offered in order; one that waits holds back those behind it on its port
(R57). When one of them makes the nib fault, those kept are discarded with the rest and counted at 0x701D (R146). -/
def State.offer (s : State) (n : Nat) (blocked : List Nat) : List Waiting → List Waiting → State
  | [], kept => s.updNib n fun x => { x with inbox := kept }
  | w :: ws, kept =>
    if blocked.contains w.port then s.offer n blocked ws (kept ++ [w])
    else
      match s.localOutput n w.pkt with
      | .waits => s.offer n (w.port :: blocked) ws (kept ++ [w])
      | .taken s' =>
        if (s'.nib n).issue.run = .faulting then (s'.bump 0x701D (s.nibQuire n) kept.length).offer n [] ws []
        else s'.offer n blocked ws kept

/-- What waits at a nib's local input is offered again. -/
def State.drainInbox (s : State) (n : Nat) : State :=
  let ws := (s.nib n).inbox
  (s.updNib n fun x => { x with inbox := [] }).offer n [] ws []

/-- What waits at a nib's local input is offered again, and where some of it goes on, the crossing FIFOs that it filled had held
their senders (R58). -/
def State.releaseInbox (s : State) (n : Nat) : State :=
  let ws := (s.nib n).inbox
  let t := s.drainInbox n
  if (t.nib n).inbox.length = ws.length then t
  else t.heldCycles (t.fullCrossings ((ws.filter fun w => w.port ≠ 5).map Waiting.pkt))

/-! ### Events held at the device level (R44, R125, R126) -/

/-- The doorbell's held events are delivered while its queue has room (R125, R126). -/
def State.ringBells : Nat → State → State
  | 0, s => s
  | fuel + 1, s =>
    match s.binding.doorbell, s.binding.heldBells with
    | some (n, q), v :: vs =>
      if (s.nib n).room q then
        let t := (s.nib n).tags
        State.ringBells fuel
          { s.updNib n (fun x => x.enqueue q (token t.gen t.epoch 3 v)) with
            binding := { s.binding with heldBells := vs } }
      else s
    | _, _ => s

/-- Margin completions go to their queues in order, each source queue in its own (R44, 09 R297, R300): one whose stamp the nib
accepts no more is dropped, one without room waits. Enqueued or dropped, it counts as completed. -/
def State.tellMargin (s : State) : List MarginEvent → List MarginEvent → State
  | [], kept => { s with margin := { s.margin with held := kept } }
  | e :: es, kept =>
    let x := s.nib e.nib
    if kept.any (fun k => k.nib = e.nib && k.queue = e.queue) then s.tellMargin es (kept ++ [e])
    else if !(bit x.tags.gmask (field e.token 31 29) && bit x.tags.emask (field e.token 28 28)) then
      ((s.bump 0x7016 (s.nibQuire e.nib) 1).bump 0x8061 (1 + field e.token 28 28) 1).tellMargin es kept
    else if !x.room e.queue then s.tellMargin es (kept ++ [e])
    else
      ((s.updNib e.nib fun x => x.enqueue e.queue e.token).bump 0x8061 (1 + field e.token 28 28) 1).tellMargin es kept

/-- Room in a nib's queues is given in the order of R42: DONE tokens, mesh arrivals, events. -/
def State.settle (s : State) (n : Nat) : State :=
  let s := (s.retryDone n).releaseInbox n
  let s := State.ringBells 64 s
  s.tellMargin s.margin.held []

/-! ### Issue (R52, R100-R102) -/

/-- What issuing an instruction comes to. -/
inductive Issued where
  | fault (code : Nat) (handle : Option Nat) (detail : Nat)
  | wait (h : Hold)
  | go (s : State)
  | jump (s : State) (a : Nat)
  | stop (s : State)
deriving DecidableEq, Repr

/-- The opcodes that R101 lists. -/
def opcodes : List Nat :=
  [0x00, 0x01, 0x02, 0x03, 0x04, 0x05, 0x08, 0x09, 0x0A, 0x10, 0x11, 0x12, 0x18, 0x19, 0x1B, 0x20, 0x21, 0x28, 0x29,
   0x2A, 0x2B, 0x30, 0x31, 0x32, 0x33, 0x34]

/-- OP of a word (R100). -/
def wordOp (w : Nat) : Nat := field w 63 58
/-- PRED of a word (R100). -/
def wordPred (w : Nat) : Nat := field w 57 54

/-- PRED is 0000 or 1ccn (R100). -/
def predOk (p : Nat) : Bool := p = 0 || 8 ≤ p

/-- The predicate's truth (R100, R102). -/
def Nib.predTrue (x : Nib) (p : Nat) : Bool :=
  p = 0 || (x.cmpOut (field p 2 1) ^^ bit p 0)

/-- The nib may issue: it runs, and the clock of its quire does (R143, R146, R206, R211). -/
def State.issues (s : State) (n : Nat) : Bool :=
  (s.nib n).issue.run = .running && s.clocked n

/-- The fault of an instruction found at issue: it changes nothing else (R146). -/
def State.issueFault (s : State) (n code : Nat) (handle : Option Nat) (detail : Nat) : State :=
  s.nibFault n { code := code, addr := (s.nib n).issue.addr, handle := handle, detail := detail }

/-- One instruction word offered to a nib's issue unit: `op` is the row's opcode, `resv` whether the word's reserved
bits and codes are as they must be, and `eff` what it does when its predicate is true (R9, R52, R100-R102). -/
def State.issue (s : State) (n op w : Nat) (resv : Bool) (eff : State → Issued) : Out :=
  if wordOp w ≠ op && opcodes.contains (wordOp w) then .fault .illFormed
  else if !s.issues n then .next s
  else if wordOp w ≠ op || !predOk (wordPred w) || !resv then .next (s.issueFault n 0x01 none 0)
  else if !(s.nib n).predTrue (wordPred w) then .next ((s.progress n 0).advance n)
  else
    match eff s with
    | .fault code h d => .next (s.issueFault n code h d)
    | .wait h => .next (s.updNib n fun x => { x with issue := { x.issue with hold := h } })
    | .go s' => .next ((s'.progress n 0).advance n)
    | .jump s' a => .next ((s'.progress n 0).moveIssue n a)
    | .stop s' => .next s'

/-! ### Operands at issue (R105-R110) -/

/-- What taking an operand comes to. -/
inductive Operand where
  | bad (code : Nat) (handle : Nat) (detail : Nat)
  | ok (t : Tensor)
deriving DecidableEq, Repr

/-- Handle `h` taken as an operand; `dest` says the instruction writes through it. The checks in order: reserved bits
and codes, the loop level of R108, the address ranges (R25, R106, R109), a destination's strides (R110); those of formats and shapes
follow at the instruction (DESIGN CHOICE, log entry 22). -/
def Nib.operand (x : Nib) (h : Nat) (dest : Bool) : Operand :=
  let d := SMap.get 0 x.descs h
  if !descReservedOk d then .bad 0x01 h 0
  else
    let idx : Option Nat := if descLen d then x.loopIndex (descLlvl d) else some 0
    match idx with
    | none => .bad 0x04 h (8 + descLlvl d)
    | some i =>
      let t : Tensor := ⟨h, d, descBase d + (if descLen d then 64 * descLstride d * i else 0),
        descSbase d + (if descLen d then 8 * descSlstride d * i else 0)⟩
      match t.addressFault, (if dest then t.destFault else none) with
      | some a, _ => .bad 0x02 h (localDetail a)
      | none, some dim => .bad 0x04 h dim
      | none, none => .ok t

/-- Operands taken in order; the first that fails gives the fault. -/
def Nib.operands (x : Nib) : List (Nat × Bool) → Except (Nat × Nat × Nat) (List Tensor)
  | [] => .ok []
  | (h, dest) :: hs =>
    match x.operand h dest with
    | .bad c h d => .error (c, h, d)
    | .ok t =>
      match x.operands hs with
      | .error e => .error e
      | .ok ts => .ok (t :: ts)

/-- A fault of an instruction that names operands. -/
def badOperand (e : Nat × Nat × Nat) : Issued := .fault e.1 (some e.2.1) e.2.2

/-- Detail of a FORMAT fault: codes of D, first source and second source (R145). -/
def formatDetail (d a b : Nat) : Nat := d <<< 14 + a <<< 10 + b <<< 6

/-- A long-running operation enters its slot, or issue waits (R37, R39). -/
def State.takeSlot (s : State) (n : Nat) (kind : OpKind) (w : Nat) (ts : List Tensor)
    (reads writes : List (Nat × Nat)) (more : InFlight → InFlight) : Issued :=
  let x := s.nib n
  match x.freeSlotNo with
  | none => .wait .slots
  | some k =>
    if x.rangeBusy reads writes then .wait .range
    else
      let o : InFlight := more
        { slot := k, kind := kind, word := w, addr := x.issue.addr, gen := x.tags.gen, epoch := x.tags.epoch,
          tensors := ts, reads := reads, writes := writes }
      .go (s.setNib n { x with slots := x.slots ++ [o] })

end Sys2Proof.Machine
end

