-- ==== Sys2Proof/Machine/Control.lean ====
section
/-! DEFINITION. Control instructions, and the rows by which a nib comes to rest (04 R112, R121, R141-R146, R467;
02 R35, R36; 11 R352). -/

namespace Sys2Proof.Machine

/-- Number of a nib. -/
abbrev nid (n : NibId) : Nat := n.val

/-- nop (R101). -/
def execNop (n : NibId) (w : BitVec 64) (s : State) : Out :=
  s.issue n 0x00 w.toNat (field w.toNat 53 0 = 0) fun s => .go s

/-- All reservoir queues are fully retired. -/
def Nib.resIdle (x : Nib) : Bool := x.resq.all fun e => e.2.isEmpty

/-- fence (R142). -/
def execFence (n : NibId) (w : BitVec 64) (s : State) : Out :=
  s.issue n 0x01 w.toNat (field w.toNat 51 0 = 0) fun s =>
    let x := s.nib n
    if (bit w.toNat 53 && !x.slots.isEmpty) || (bit w.toNat 52 && !x.resIdle) then .wait .fence else .go s

/-- halt (R143): issue stops and CODE is recorded. -/
def execHalt (n : NibId) (w : BitVec 64) (s : State) : Out :=
  s.issue n 0x02 w.toNat (field w.toNat 37 0 = 0) fun s =>
    .stop ((s.progress n 0).updNib n fun x =>
      let r := loopNext x x.issue.addr (x.issue.addr + 1) x.issue.loops
      { x with issue := { x.issue with
          run := .halting, haltCode := field w.toNat 53 38, loops := r.1, addr := r.2, hold := .none } })

/-- Every nib of the declared grid is HALTED (11 R352). -/
def State.allHalted (s : State) : Bool :=
  let g := s.declGrid
  (List.range g.1).all fun r => (List.range g.2).all fun c => (s.nib (r * 64 + c)).issue.run = .halted

/-- A nib has become HALTED (R143, 11 R352): the halt is counted, the first one recorded, and JOB_HALTED raised when
every nib of the declared grid is HALTED. -/
def State.noteHalt (s : State) (n : Nat) : State :=
  let b := s.binding
  let code := (s.nib n).issue.haltCode
  let first := b.halted = 0 || (b.firstHaltAt = s.now && s.physNib n < s.physNib (field b.firstHalt 12 0))
  let s := { s with binding := { b with
    halted := b.halted + 1
    firstHalt := if first then code <<< 16 + n % 2 ^ 13 else b.firstHalt
    firstHaltAt := if first then s.now else b.firstHaltAt } }
  if s.allHalted then s.event 0x05 0 s.binding.firstHalt else s

/-- HALTED: a halting nib with nothing in flight becomes HALTED (R143). -/
def State.nibHalted (s : State) (n : Nat) : State :=
  let x := s.nib n
  if x.issue.run = .halting && x.slots.isEmpty && x.resIdle then
    (s.setNib n { x with issue := { x.issue with run := .halted } }).noteHalt n
  else s

/-- The row HALTED. -/
def execHalted (n : NibId) (s : State) : Out := .next (s.nibHalted n)

/-- Instruction words copied into the instruction store (R144). -/
def copyInstrs (m : Memory) (src dst : Nat) : Nat → SMap Nat → SMap Nat
  | 0, st => st
  | k + 1, st => copyInstrs m (src + 8) (dst + 1) k (SMap.set 0 st dst (m.readLE src 8))

/-- overlay (R144, R467). -/
def execOverlay (n : NibId) (w : BitVec 64) (s : State) : Out :=
  let w := w.toNat
  s.issue n 0x03 w (field w 2 0 = 0) fun s =>
    let x := s.nib n
    let src := field w 53 34 * 8
    let dst := field w 33 25 * 8
    let cnt := field w 24 15 * 8
    let rng := (src, 8 * cnt)
    if src % 64 ≠ 0 || !inWell src then .fault 0x02 none (localDetail src)
    else
      match rangeFault rng with
      | some a => .fault 0x02 none (localDetail a)
      | none =>
        if 4096 < dst + cnt || !x.issue.loops.isEmpty then .fault 0x07 none 0
        else if x.rangeBusy [rng] [] then .wait .range
        else
          let r := s.readStores n [rng]
          let v := r.1.viewed n [rng]
          match r.2 with
          | some ue =>
            let s := v.1.updNib n fun x => { x with instrs := copyInstrs v.2 src dst ((ue - src) / 8) x.instrs }
            .stop (s.nibFault n { code := ueCode ue, addr := x.issue.addr })
          | none => .jump (v.1.updNib n fun x => { x with instrs := copyInstrs v.2 src dst cnt x.instrs }) (field w 14 3)

/-- An operation in flight names the handle as its destination (R112). -/
def InFlight.writesHandle (o : InFlight) (h : Nat) : Bool :=
  match o.kind, o.tensors with
  | .send, _ => false
  | .kappend, _ => false
  | _, t :: _ => t.handle = h
  | _, [] => false

/-- dload (R112, R467). -/
def execDload (n : NibId) (w : BitVec 64) (s : State) : Out :=
  let w := w.toNat
  s.issue n 0x04 w (field w 24 0 = 0) fun s =>
    let x := s.nib n
    let h := field w 53 45
    let src := field w 44 25 * 8
    match rangeFault (src, 40) with
    | some a => .fault 0x02 none (localDetail a)
    | none =>
      if x.slots.any fun o => o.writesHandle h then .wait .handle
      else if x.rangeBusy [(src, 40)] [] then .wait .range
      else
        let r := s.readStores n [(src, 40)]
        match r.2 with
        | some ue => .stop (r.1.nibFault n { code := ueCode ue, addr := x.issue.addr })
        | none =>
          let v := r.1.viewed n [(src, 40)]
          let d := v.2.readLE src 40
          if !descReservedOk d then .stop (v.1.issueFault n 0x01 none 0)
          else .go (v.1.updNib n fun x => { x with
            descs := SMap.set 0 x.descs h d, escs := SMap.set 0 x.escs h 0, dloaded := SMap.set false x.dloaded h true })

/-- esc (R121). -/
def execEsc (n : NibId) (w : BitVec 64) (s : State) : Out :=
  let w := w.toNat
  s.issue n 0x05 w (field w 22 0 = 0) fun s =>
    let x := s.nib n
    let h := field w 53 45
    let dst := field w 44 25 * 8
    let clear (x : Nib) : Nib := if bit w 23 then { x with escs := SMap.set 0 x.escs h 0 } else x
    if !bit w 24 then .go (s.updNib n clear)
    else
      match rangeFault (dst, 8) with
      | some a => .fault 0x02 none (localDetail a)
      | none =>
        if x.rangeBusy [] [(dst, 8)] then .wait .range
        else
          .go ((s.mergeStores n [(dst, 8)]).1.updNib n fun x =>
            clear { x with mem := x.mem.writeBytes dst (bytesLE 8 (SMap.get 0 x.escs h)) })

/-- A faulting nib with nothing in flight enters FAULTED (R146). -/
def State.nibRests (s : State) (n : Nat) : State :=
  let x := s.nib n
  if x.issue.run = .faulting && x.slots.isEmpty then
    s.setNib n { x with issue := { x.issue with run := .faulted } }
  else s

/-- The row NIB_FAULTED. -/
def execNibFaulted (n : NibId) (s : State) : Out := .next (s.nibRests n)

/-- Rows of 128 B of a well (R35). -/
def wellRows : Nat := 24576

/-- Upsets noted in the words of a nib's stores: how many bits of a word are in error now. -/
def noteUpsets (ecc : SMap Nat) (us : List Upset) : SMap Nat :=
  us.foldl (fun m u =>
    if u.bits ≠ 0 && (inOpstore (8 * u.word) || inWell (8 * u.word)) then SMap.set 0 m (8 * u.word) u.bits else m) ecc

/-- Words in error that the scrubber finds: each is corrected or counted, and the walk goes on (R36). -/
def State.scrubWords (s : State) (n : Nat) (ws : List (Nat × Nat)) : State :=
  ws.foldl (fun s e => (s.meetWord n e.1 e.2).1) s

/-- The scrubber reads its next row (R35, R36). `upsets` are the words of the nib's stores, of that row or of any other, that have
been upset since the row before (log entry 8): each stays in error until it is met or written. -/
def State.scrub (s : State) (n : Nat) (us : List Upset) : State :=
  let s := s.updNib n fun x => { x with ecc := noteUpsets x.ecc us }
  if s.obj 0x4011 0 = 0 || !s.clocked n then s
  else
    let base := wellBase + 128 * (s.nib n).scrubRow
    let s := s.updNib n fun x => { x with scrubRow := (x.scrubRow + 1) % wellRows }
    s.scrubWords n ((s.nib n).ecc.filter fun e => wordIn e.1 (base, 128))

/-- The row PATROL_SCRUB. -/
def execPatrolScrub (n : NibId) (upsets : List Upset) (s : State) : Out := .next (s.scrub n upsets)

end Sys2Proof.Machine
end

