-- ==== Sys2Proof/Machine/Kv.lean ====
section
/-! DEFINITION. The KV instructions: drafts, masks, commit and erase (04 R140; 05 R149-R163). -/

namespace Sys2Proof.Machine

/-! ### The binding record (R151) -/

/-- BOUND. -/
def Context.bound (c : Context) : Bool := bit c.binding 127
/-- HOME. -/
def Context.home (c : Context) : Bool := bit c.binding 126
/-- KBASE. -/
def Context.kbase (c : Context) : Nat := field c.binding 125 103
/-- VBASE. -/
def Context.vbase (c : Context) : Nat := field c.binding 102 80
/-- EK, the key entry size in bytes. -/
def Context.ek (c : Context) : Nat := 8 * (field c.binding 79 71 + 1)
/-- EV, the value entry size in bytes. -/
def Context.ev (c : Context) : Nat := 8 * (field c.binding 70 62 + 1)
/-- CAP. -/
def Context.cap (c : Context) : Nat := field c.binding 61 42
/-- The key entry at position `p` (R152). -/
def Context.keyAt (c : Context) (p : Nat) : Nat × Nat := (c.kbase + p * c.ek, c.ek)
/-- The value entry at position `p` (R152). -/
def Context.valAt (c : Context) (p : Nat) : Nat × Nat := (c.vbase + p * c.ev, c.ev)

/-- A nib's copy of a context. -/
def Nib.ctx (x : Nib) (k : Nat) : Context := SMap.get {} x.ctxs k
/-- A nib's copy of a context replaced. -/
def Nib.setCtx (x : Nib) (k : Nat) (c : Context) : Nib := { x with ctxs := SMap.set {} x.ctxs k c }

/-- Node `v` and its ancestors up to the tail's child, from `v` upward (R153). -/
def ancestry (parents : List Nat) : Nat → Nat → List Nat
  | 0, _ => []
  | fuel + 1, v =>
    match parents[v]? with
    | none => []
    | some p => v :: (if p = 0x7F then [] else ancestry parents fuel p)

/-! ### kappend (R154, R155, R163) -/

/-- kappend. Of several faults it takes SEQ for an unbound context first, then those of its operands, then the other conditions of
R163 (DESIGN CHOICE, log entry 22). -/
def execKappend (n : NibId) (w : BitVec 64) (s : State) : Out :=
  let w := w.toNat
  let k := field w 53 48
  s.issue n 0x30 w (field w 38 31 = 0 && field w 9 0 = 0) fun s =>
    let x := s.nib n
    let c := x.ctx k
    let parent := field w 21 15
    if !c.bound then .fault 0x0B none k
    else
      match x.operands [(field w 47 39, false), (field w 30 22, false)] with
      | .error e => badOperand e
      | .ok [kt, vt] =>
        if c.drafts = 64 || c.cap ≤ c.committed + c.drafts || (parent ≠ 0x7F && c.drafts ≤ parent) ||
            kt.denseSize ≠ c.ek || vt.denseSize ≠ c.ev || kt.scaled || vt.scaled then .fault 0x0B none k
        else
          let p := c.committed + c.drafts
          match s.takeSlot n .kappend w [kt, vt] (kt.ranges ++ vt.ranges) [c.keyAt p, c.valAt p] id with
          | .go s => .go (s.updNib n fun x => x.setCtx k
              { c with drafts := c.drafts + 1, parents := c.parents.take c.drafts ++ [parent], rest := c.rest.drop 1 })
          | r => r
      | .ok _ => .go s

/-- What a kappend reads, writes and leaves (R155). -/
def InFlight.kappendWork (o : InFlight) : Option Work :=
  match o.tensors, o.writes with
  | [kt, vt], [kr, vr] =>
    some ⟨kt.touched ++ vt.touched, o.writes, o.writes, fun m =>
      { mem := (m.writeBytes kr.1 (kt.dense m)).writeBytes vr.1 (vt.dense m) }⟩
  | _, _ => none

/-- The row KAPPEND_COMPLETE (R155): the entries are written. -/
def State.kappendDone (s : State) (n : Nat) : State :=
  match s.engineOp n .kappend with
  | none => s
  | some o =>
    match o.kappendWork with
    | some w => (s.progress n 2).completeOp n o w
    | none => s

/-- The row KAPPEND_COMPLETE. -/
def execKappendComplete (n : NibId) (s : State) : Out := .next (s.kappendDone n)

/-! ### kmask (R156, R157) -/

/-- The conditions of R156 on the destination. -/
def maskShape (t : Tensor) : Bool :=
  t.ndim = 2 && t.ext 0 = 64 && t.ext 1 ≤ 64 && !t.scaled &&
    (t.fmt = .fp32 || t.fmt = .bf16 || t.fmt = .fp16 || t.fmt = .int8)

/-- kmask. -/
def execKmask (n : NibId) (w : BitVec 64) (s : State) : Out :=
  let w := w.toNat
  let k := field w 53 48
  s.issue n 0x33 w (field w 33 0 = 0) fun s =>
    let x := s.nib n
    let c := x.ctx k
    if !c.bound then .fault 0x0B none k
    else
      match x.operands [(field w 47 39, true)] with
      | .error e => badOperand e
      | .ok [t] =>
        if !maskShape t then .fault 0x0B none k
        else s.takeSlot n .kmask w [t] [] t.ranges fun o => { o with nodes := c.parents.take c.drafts }
      | .ok _ => .go s

/-- Encoding of a mask element (R156). -/
def maskCode (f : Fmt) (visible : Bool) : Nat :=
  match f with
  | .int8 => if visible then 1 else 0
  | .fp32 => if visible then 0 else 0xFF800000
  | .bf16 => if visible then 0 else 0xFF80
  | _ => if visible then 0 else 0xFC00

/-- What a kmask reads, writes and leaves (R156, R157). -/
def InFlight.kmaskWork (o : InFlight) : Option Work :=
  match o.tensors with
  | [t] => some ⟨[], t.touched, t.wholeParts, fun m =>
      mapElems t m fun i j => { code := maskCode t.fmt ((ancestry o.nodes 64 i).contains j) }⟩
  | _ => none

/-- The row KMASK_COMPLETE (R156, R157). -/
def State.kmaskDone (s : State) (n : Nat) : State :=
  match s.engineOp n .kmask with
  | none => s
  | some o =>
    match o.kmaskWork with
    | some w => (s.progress n 2).completeOp n o w
    | none => s

/-- The row KMASK_COMPLETE. -/
def execKmaskComplete (n : NibId) (s : State) : Out := .next (s.kmaskDone n)

/-! ### kcommit and kerase (R158-R162) -/

/-- The path that a kcommit selects and how many of its nodes it commits (R158), or none for a SEQ fault (R163). -/
def commitPath (x : Nib) (c : Context) (w : Nat) : Option (List Nat × Nat) :=
  let nn := field w 47 41
  if !bit w 34 then
    let chain : Bool := (List.range nn).all fun i => c.parents[i]? = some (if i = 0 then 0x7F else i - 1)
    if nn ≤ c.drafts && chain then some (List.range nn, nn) else none
  else
    let v := x.ct (field w 37 35)
    if 64 ≤ v then some ([], 0)
    else if c.drafts ≤ v then none
    else
      let path := (ancestry c.parents 64 v).reverse
      some (path, min nn path.length)

/-- The drafts after a commit (R160): survivors renumbered when no node moved and each descends from the last
committed node; otherwise none. -/
def survivors (c : Context) (path : List Nat) : List Nat :=
  let k := path.length
  let rest := (List.range c.drafts).drop k
  let descends (j : Nat) : Bool := k = 0 || (ancestry c.parents 64 j).contains (k - 1)
  if path = List.range k && rest.all descends then
    rest.map fun j =>
      let p := c.parents.getD j 0x7F
      if p = 0x7F || (k ≠ 0 && p = k - 1) then 0x7F else p - k
  else []

/-- One entry copied to its new position (R159). At an uncorrectable word, of the entry or of a word that a partial write merges, the
copy stops: bytes of the new position that come from other words are old or new, a free choice (R146, R163; DESIGN CHOICE, log entry
24). -/
def State.moveEntry (s : State) (n : Nat) (src dst : Nat × Nat) : State × Option Nat :=
  let copy (m : Memory) : Memory := m.writeBytes dst.1 (m.readBytes src.1 src.2)
  let r := s.readStores n [src]
  let v := r.1.viewed n [src]
  match r.2 with
  | some ue => (v.1.partWritten n (copy (wordAs 0 v.2 ue)) (copy (wordAs 0xFF v.2 ue)) [dst] [dst], some ue)
  | none =>
    let g := v.1.mergeStores n [dst]
    let old := (g.1.nib n).mem
    let view := if v.2 = (v.1.nib n).mem then old else v.2
    match g.2 with
    | some ue => (g.1.partWritten n (copy view) (copy view) [dst] [dst], some ue)
    | none => (g.1.updNib n fun x => { x with mem := unview old view (copy view) [dst] }, none)

/-- The moves of R159: node `pi` to position `C + i − 1`, key then value, up to an uncorrectable word. -/
def State.moveEntries (s : State) (n : Nat) (c : Context) : Nat → List Nat → State × Option Nat
  | _, [] => (s, none)
  | i, p :: ps =>
    if p = i then s.moveEntries n c (i + 1) ps
    else
      let a := s.moveEntry n (c.keyAt (c.committed + p)) (c.keyAt (c.committed + i))
      match a.2 with
      | some ue => (a.1, some ue)
      | none =>
        let b := a.1.moveEntry n (c.valAt (c.committed + p)) (c.valAt (c.committed + i))
        match b.2 with
        | some ue => (b.1, some ue)
        | none => b.1.moveEntries n c (i + 1) ps

/-- A kappend or kmask of the context is in flight (R162). -/
def Nib.kvBusy (x : Nib) (k : Nat) : Bool :=
  x.slots.any fun o => (o.kind = .kappend || o.kind = .kmask) && field o.word 53 48 = k

/-- A count of the home nib's copy (R162). -/
def State.bumpHome (s : State) (c : Context) (sub k : Nat) : State := if c.home then s.bump sub 0 k else s

/-- kcommit (R158-R160, R162, R163). -/
def execKcommit (n : NibId) (w : BitVec 64) (s : State) : Out :=
  let w := w.toNat
  let k := field w 53 48
  let leafOk : Bool := if bit w 34 then field w 40 38 = 0 else field w 40 35 = 0
  s.issue n 0x31 w (field w 33 0 = 0 && field w 47 41 ≤ 64 && leafOk) fun s =>
    let x := s.nib n
    let c := x.ctx k
    if !c.bound then .fault 0x0B none k
    else if x.kvBusy k then .wait .context
    else
      match commitPath x c w with
      | none => .fault 0x0B none k
      | some (full, m) =>
        let path := full.take m
        let moved := (path.mapIdx fun i p => decide (p ≠ i)).count true
        let entries := [((c.keyAt c.committed).1, c.drafts * c.ek), ((c.valAt c.committed).1, c.drafts * c.ev)]
        if moved ≠ 0 && x.rangeBusy entries entries then .wait .range
        else if m = 0 && (!bit w 34 || x.ct (field w 37 35) < 64) then .go s
        else
          let r := s.moveEntries n c 0 path
          match r.2 with
          | some ue => .stop (r.1.nibFault n { code := ueCode ue, addr := x.issue.addr })
          | none =>
            let keep := if m = 0 then [] else survivors c path
            let s := r.1.updNib n fun x => x.setCtx k
              { c with committed := c.committed + m, drafts := keep.length, parents := keep, rest := [] }
            let s := s.bumpHome c 0x8020 m
            let s := s.bumpHome c 0x8021 (c.drafts - m - keep.length)
            let s := s.bumpHome c 0x8022 moved
            .go (if m = 0 then s else s.noteCommit n k c.committed m)

/-- kerase (R161, R162). -/
def execKerase (n : NibId) (w : BitVec 64) (s : State) : Out :=
  let w := w.toNat
  let k := field w 53 48
  s.issue n 0x32 w (field w 47 0 = 0) fun s =>
    let x := s.nib n
    let c := x.ctx k
    if !c.bound then .fault 0x0B none k
    else if x.kvBusy k then .wait .context
    else .go ((s.setNib n (x.setCtx k { c with drafts := 0, parents := [], rest := [] })).bumpHome c 0x8021 c.drafts)

end Sys2Proof.Machine
end

