-- ==== Sys2Proof/Machine/Loops.lean ====
section
/-! DEFINITION. loop, ct and cmp (02 R46-R51; 04 R138, R139). -/

namespace Sys2Proof.Machine

/-- loop (R48, R49, R51). A loop of count 0 that is itself the last instruction of an enclosing body lets the loop unit decide
for that level (R50, log entry 32). -/
def execLoop (n : NibId) (w : BitVec 64) (s : State) : Out :=
  let w := w.toNat
  let last := field w 53 42
  let a := (s.nib n).issue.addr
  let resv := field w 21 0 = 0 && (!bit w 41 || field w 40 28 = 0) && wordPred w = 0 && a < last
  s.issue n 0x08 w resv fun s =>
    let x := s.nib n
    let count := if bit w 41 then x.ct (field w 27 25) else field w 40 25
    if count = 0 then
      let r := loopNext x a (last + 1) x.issue.loops
      .jump (s.setNib n { x with issue := { x.issue with loops := r.1 } }) r.2
    else if 4 ≤ x.issue.loops.length then .fault 0x05 none 0
    else if x.issue.loops.head?.any fun l => l.last < last then .fault 0x06 none 0
    else
      let l : LoopLevel := ⟨a + 1, last, count, 0, if bit w 24 then some (field w 23 22) else none⟩
      .jump (s.setNib n { x with issue := { x.issue with loops := l :: x.issue.loops } }) (a + 1)

/-- The value ct gives counter CD (R139). -/
def ctValue (x : Nib) (w : Nat) : Nat :=
  let old := x.ct (field w 53 51)
  let imm := field w 42 11
  let cb := x.ct (field w 47 45)
  match field w 50 48 with
  | 0 => imm
  | 1 => old + imm
  | 2 => old + cb
  | 3 => old + 2 ^ 32 - cb
  | 4 => cb
  | _ => (x.loopIndex (field w 44 43)).getD 0

/-- ct (R139). -/
def execCt (n : NibId) (w : BitVec 64) (s : State) : Out :=
  let w := w.toNat
  s.issue n 0x09 w (field w 10 0 = 0 && field w 50 48 ≤ 5) fun s =>
    .go (s.updNib n fun x => x.setCt (field w 53 51) (ctValue x w))

/-- cmp (R47, R138). -/
def execCmp (n : NibId) (w : BitVec 64) (s : State) : Out :=
  let w := w.toNat
  s.issue n 0x0A w (field w 9 0 = 0) fun s =>
    let c : Cmp := ⟨field w 51 49, field w 48 46, bit w 45, field w 44 42, field w 41 10⟩
    .go (s.updNib n fun x => { x with cmps := SMap.set {} x.cmps (field w 53 52) c })

end Sys2Proof.Machine
end

