-- ==== Sys2Proof/Machine/DeskOps.lean ====
section
/-! DEFINITION. Desk memory: the desk-physical map, inline and link ECC, and the page ledger (06 R177-R187). -/

namespace Sys2Proof.Machine

/-- Size of the desk-physical data space (R178). -/
def State.deskSize (s : State) : Nat := if s.desk.eccOn then 1065151889408 else 2 ^ 40

/-- Data bytes of a 2 KiB DRAM segment (R178, R180). -/
def segmentSize (eccOn : Bool) : Nat := if eccOn then 1984 else 2048

/-- Where a desk-physical data address lies (R180): channel, segment in the channel, byte within the segment's data. -/
structure Location where
  channel : Nat
  segment : Nat
  offset : Nat
deriving DecidableEq, Repr

/-- The desk-physical map (R180). -/
def locate (p : Nat) (eccOn : Bool) : Location :=
  let g := p / segmentSize eccOn
  ⟨g % 128, g / 128, p % segmentSize eccOn⟩

/-- Package of a channel, and its ×16 channel within it (R175, R180). -/
def packageOf (c : Nat) : Nat × Nat := (c / 4, c % 4)

/-- The 2 KiB of DRAM segment `g`, counted over all channels (R178): with inline ECC on, 31 data blocks, then the check of block `j` at
byte `2j` of the last 64 B, and two bytes of zero. -/
def State.segment (s : State) (g : Nat) : List Byte :=
  let n := segmentSize s.desk.eccOn
  let data := s.desk.mem.readBytes (n * g) n
  if s.desk.eccOn then
    data ++ ((List.range 31).flatMap fun j =>
      bytesLE 2 (Config.deskCheck (field (n * g + 64 * j) 39 6) (slice data (64 * j) 64)).toNat) ++ [0, 0]
  else data

/-- Blocks of 64 B that a range touches. -/
def blocksOf (a len : Nat) : List Nat := if len = 0 then [] else (List.range ((a + len - 1) / 64 - a / 64 + 1)).map (· + a / 64)

/-- One block in error met by a read (R181): true when it is uncorrectable. Three or more bits in error take one of
the two outcomes, a free choice, and a miscorrected block takes a free content. -/
def State.meetBlock (s : State) (b bits : Nat) : State × Bool :=
  let clear (s : State) : State := { s with desk := { s.desk with ecc := SMap.set 0 s.desk.ecc b 0 } }
  if bits = 1 then ((clear s).bump 0x8031 0 1, false)
  else if bits = 2 then (s.bump 0x8032 0 1, true)
  else if s.free % 2 = 0 then (s.took.bump 0x8032 0 1, true)
  else
    let v := Config.free (s.fresh + 1)
    let s := clear s.took.took
    ({ s with desk := { s.desk with mem := s.desk.mem.writeBytes (64 * b) (bytesLE 64 v) } }.bump 0x8031 0 1, false)

/-- Blocks met in order; the uncorrectable ones are listed. -/
def State.meetBlocks (s : State) : List (Nat × Nat) → State × List Nat
  | [] => (s, [])
  | (b, k) :: bs =>
    let r := s.meetBlock b k
    let t := r.1.meetBlocks bs
    (t.1, if r.2 then b :: t.2 else t.2)

/-- The link-ECC outcomes that reads of blocks meet, in order (R177): a burst that fails every re-read is uncorrectable. -/
def State.meetLinks (s : State) : List (Nat × Option LinkEcc) → State × List Nat
  | [] => (s, [])
  | (b, e) :: es =>
    let r : State × Bool :=
      match e with
      | some .corrected => (s.bump 0x8033 0 1, false)
      | some (.reread k) => if k ≤ 3 then (s, false) else (s.bump 0x8032 0 1, true)
      | some .failed => (s.bump 0x8032 0 1, true)
      | _ => (s, false)
    let t := r.1.meetLinks es
    (t.1, if r.2 then b :: t.2 else t.2)

/-- The blocks that `p` picks are read (R177, R181): the uncorrectable ones. A block returned from another address fails its check;
with inline ECC off there is no check. -/
def State.readBlocks (s : State) (p : Nat → Bool) : State × List Nat :=
  let link := s.desk.link.filter fun e => p e.1
  let lost := if s.desk.eccOn then (s.desk.astray.filter fun e => p e.1).map Prod.fst else []
  let ecc := s.desk.ecc.filter fun e => p e.1
  let s : State := { s with desk := { s.desk with
    link := s.desk.link.filter fun e => !p e.1
    astray := s.desk.astray.filter fun e => !p e.1 } }
  let l := s.meetLinks link
  let lost := lost.filter fun b => !l.2.contains b
  let s := lost.foldl (fun s _ => s.bump 0x8032 0 1) l.1
  let m := s.meetBlocks (ecc.filter fun e => !(l.2.contains e.1 || lost.contains e.1))
  (m.1, l.2 ++ lost ++ m.2)

/-- A block shares a byte with a range. -/
def blockMeets (a len b : Nat) : Bool := a < 64 * b + 64 && 64 * b < a + len
/-- A range covers a whole block. -/
def blockWhole (a len b : Nat) : Bool := a ≤ 64 * b && 64 * b + 64 ≤ a + len

/-- A read of desk memory: the uncorrectable blocks it met (R177, R181). -/
def State.deskRead (s : State) (a len : Nat) : State × List Nat := s.readBlocks (blockMeets a len)

/-- One thing that goes wrong in desk memory (R177, R181; log entry 8). With inline ECC off nothing finds bits in error: the block then
holds what it holds, a free content. -/
def State.deskError (s : State) : DeskError → State
  | .bits b k =>
    if k = 0 || s.deskSize ≤ 64 * b then s
    else if s.desk.eccOn then { s with desk := { s.desk with ecc := SMap.set 0 s.desk.ecc b k } }
    else
      let v := s.free
      { s.took with desk := { s.desk with mem := s.desk.mem.writeBytes (64 * b) (bytesLE 64 v) } }
  | .link b e => { s with desk := { s.desk with link := SMap.set none s.desk.link b (some e) } }
  | .astray b k => { s with desk := { s.desk with astray := SMap.set none s.desk.astray b (some k) } }

/-- Bytes of desk memory. -/
def State.deskBytes (s : State) (a len : Nat) : List Byte := s.desk.mem.readBytes a len

/-- A little-endian number in desk memory. -/
def State.deskNat (s : State) (a len : Nat) : Nat := s.desk.mem.readLE a len

/-- What bytes written at `a` leave in the Prompt Window, for the Prompt block at `base` (14 R422). -/
def copyPrompt (base i a : Nat) : List Byte → Memory → Memory
  | [], m => m
  | b :: bs, m =>
    let p := a + i
    copyPrompt base (i + 1) a bs (if base ≤ p && p < base + 256 then m.write (p - base) b else m)

/-- Bytes written to desk memory; a block written whole loses its error (R181). -/
def State.deskPut (s : State) (a : Nat) (bs : List Byte) : State :=
  { s with desk := { s.desk with
    mem := s.desk.mem.writeBytes a bs
    prompt := copyPrompt (s.obj 0x2E01 0) 0 a bs s.desk.prompt
    ecc := s.desk.ecc.filter fun e => !blockWhole a bs.length e.1 } }

/-- A store to desk memory with the merge reads of its partial blocks (R182): the uncorrectable blocks met. Nothing is
written here. -/
def State.deskMerge (s : State) (a len : Nat) : State × List Nat :=
  s.readBlocks fun b => blockMeets a len b && !blockWhole a len b

/-- The link-ECC outcomes of a chunk's read bursts, in order from its first block, are what those blocks' reads will meet (R177). -/
def State.expectLinks (s : State) (a : Nat) (es : List LinkEcc) : State :=
  (es.mapIdx fun i e => DeskError.link (a / 64 + i) e).foldl State.deskError s

/-- What a translation comes to (R186): a desk-physical address, or a cause of R194. `coh` is the page's COH bit. -/
inductive Trans where
  | ok (pa : Nat) (coh : Bool)
  | cause (c : Nat)
deriving DecidableEq, Repr

/-- Base of the page ledger (0x2622:00). -/
def State.ledgerRoot (s : State) : Nat := s.obj 0x2622 0

/-- The level-1 table lies in the data space. -/
def State.rootOk (s : State) : Bool := s.ledgerRoot + 2 ^ 15 ≤ s.deskSize

/-- Reserved bits of a level-1 entry are set (R184, R186). -/
def badTable (e : Nat) : Bool := field e 62 40 ≠ 0 || field e 16 0 ≠ 0

/-- Level-1 and level-2 entries of a page as the tables hold them, and the level-2 entry's address (R183). The level-2
entry is none where its table lies beyond the data space. -/
def State.pageEntries (s : State) (va : Nat) : Nat × Option (Nat × Nat) :=
  let e1 := s.deskNat (s.ledgerRoot + 8 * field va 46 35) 8
  let table := field e1 39 17 * 2 ^ 17
  let a2 := table + 8 * field va 34 21
  (e1, if table + 2 ^ 17 ≤ s.deskSize then some (a2, s.deskNat a2 8) else none)

/-- Who asks for a translation: a fetch, a store, or a desk window, which only V and COH bind (R185, 14 R416). -/
inductive Access where
  | forFetch
  | forStore
  | forWindow
deriving DecidableEq, Repr

/-- The access of a transfer. -/
def accessOf (store : Bool) : Access := if store then .forStore else .forFetch

/-- The page entry's rights allow the access (R185, 14 R416). -/
def pageRight (e : Nat) : Access → Bool
  | .forFetch => bit e 62
  | .forStore => bit e 61
  | .forWindow => true

/-- What a valid page entry gives for an access (R185, R186). -/
def State.pageUse (s : State) (va e : Nat) (store : Access) (badTable : Bool) : Trans :=
  if !pageRight e store then .cause 2
  else
    let frame := field e 18 0
    if badTable || field e 59 19 ≠ 0 || s.deskSize < (frame + 1) * 2 ^ 21 then .cause 5
    else .ok (frame * 2 ^ 21 + field va 20 0) (bit e 60)

/-- A walk of the page ledger (R183-R187): its outcome, and the entry to be cached when it is valid. A root whose table does not lie in
the data space is a table address beyond it: BAD_ENTRY, and nothing is read (DEDUCED, log entry 26). -/
def State.walk (s : State) (va : Nat) (store : Access) : State × Trans × Option Nat :=
  let s := s.bump 0x8034 0 1
  let a1 := s.ledgerRoot + 8 * field va 46 35
  if !s.rootOk then (s, .cause 5, none)
  else
    let r := s.deskRead a1 8
    if !r.2.isEmpty then (r.1, .cause 3, none)
    else
      let s := r.1
      let p := s.pageEntries va
      if !bit p.1 63 then (s, .cause 1, none)
      else
        match p.2 with
        | none => (s, .cause 5, none)
        | some (a2, e) =>
          let r := s.deskRead a2 8
          if !r.2.isEmpty then (r.1, .cause 3, none)
          else if !bit e 63 then (r.1, .cause 1, none)
          else (r.1, r.1.pageUse va e store (badTable p.1), if badTable p.1 then none else some e)

/-- A cached entry agrees with what the tables hold now. -/
def State.cacheFresh (s : State) (va e : Nat) : Bool :=
  let p := s.pageEntries va
  s.rootOk && bit p.1 63 && !badTable p.1 && p.2.map Prod.snd = some e

/-- A chunk's translation (R186, R187): the cache answers where it holds the page, else a walk. Where the tables were
changed with no flush, the old or the new translation is used, a free choice. -/
def State.translateFor (s : State) (va : Nat) (store : Access) : State × Trans :=
  let page := va / 2 ^ 21
  let e := SMap.get 0 s.desk.tlb page
  let walk (s : State) : State × Trans :=
    let w := s.walk va store
    match w.2.2 with
    | some e =>
      if w.1.desk.tlb.length < 8192 then
        ({ w.1 with desk := { w.1.desk with tlb := SMap.set 0 w.1.desk.tlb page e } }, w.2.1)
      else (w.1, w.2.1)
    | none => (w.1, w.2.1)
  if e = 0 then walk s
  else if s.cacheFresh va e then (s, s.pageUse va e store false)
  else if s.free % 2 = 0 then (s.took, s.pageUse va e store false)
  else walk s.took

/-- The translation of a fetch or a store. -/
def State.translate (s : State) (va : Nat) (store : Bool) : State × Trans := s.translateFor va (accessOf store)

/-- The translation cache is flushed (R187): chunks started from now on walk the tables again. -/
def State.flushTlb (s : State) : State :=
  { s with desk := { s.desk with tlb := [], tlbGen := s.desk.tlbGen + 1 } }

/-- A fault entry in use: HELD or PREEMPTED (R196, R197). -/
def entryInUse (e : Option FaultEntry) : Bool :=
  match e with
  | some x => x.st = 1 || x.st = 4
  | none => false

/-- The first free subindex of 0x8030, less one (R195). -/
def State.freeEntry (s : State) : Option Nat :=
  (List.range 64).find? fun i => !entryInUse (SMap.get none s.desk.entries i)

/-- Fault entries in use (0x8030:00). -/
def State.entriesUsed (s : State) : Nat := (s.desk.entries.filter fun e => entryInUse e.2).length

/-- A fault entry replaced. -/
def State.setEntry (s : State) (i : Nat) (e : FaultEntry) : State :=
  { s with desk := { s.desk with entries := SMap.set none s.desk.entries i (some e) } }

/-- The 128 bits of a fault entry (R196). -/
def FaultEntry.bits (e : FaultEntry) : Nat :=
  (e.nib % 2 ^ 16) <<< 112 + (e.rq % 4) <<< 110 + (e.pos % 64) <<< 104 + (e.cause % 8) <<< 101 +
    (if e.store then 2 ^ 100 else 0) + (e.st % 8) <<< 97 + (e.chunk % 1024) <<< 87 + (field e.va 46 12) <<< 47 +
    field e.time 46 0

end Sys2Proof.Machine
end

