-- ==== Sys2Proof/Machine/TxlFlit.lean ====
section
/-! DEFINITION. Flits of the Tamyx Link as bytes: layout, header, FEC and lanes (14 R407-R409). -/

namespace Sys2Proof.Machine

/-! ### RS(128,126) over GF(2^8) (R408) -/

/-- A field element times α, by the polynomial x^8 + x^4 + x^3 + x^2 + 1. -/
def gf8Double (a : Nat) : Nat := if 256 ≤ 2 * a then (2 * a) ^^^ 0x11D else 2 * a

/-- The two check bytes of a codeword: the remainder of the message times x^2 by (x − 1)(x − α) = x^2 + 3x + 2, the higher
coefficient first. -/
def gf8Checks (msg : List Byte) : List Byte :=
  let r := msg.foldl (fun (r : Nat × Nat) m =>
    let k := m.toNat ^^^ r.1
    (r.2 ^^^ k ^^^ gf8Double k, gf8Double k)) (0, 0)
  [BitVec.ofNat 8 r.1, BitVec.ofNat 8 r.2]

/-- The values of a received codeword at 1 and at α: both 0 where it is whole. -/
def gf8Syndromes (word : List Byte) : Nat × Nat :=
  word.foldl (fun (r : Nat × Nat) b => (r.1 ^^^ b.toNat, gf8Double r.2 ^^^ b.toNat)) (0, 0)

/-- The place, counted from the last byte, of the one byte in error by `e` whose value at α is `v`. -/
def errorPlace (v : Nat) : Nat → Nat → Nat → Option Nat
  | 0, _, _ => none
  | fuel + 1, p, e => if e = v then some p else errorPlace v fuel (p + 1) (gf8Double e)

/-- A codeword corrected, and how many bytes were in error; none where no one byte explains it. -/
def gf8Correct (word : List Byte) : Option (List Byte × Nat) :=
  let v := gf8Syndromes word
  if v.1 = 0 && v.2 = 0 then some (word, 0)
  else if v.1 = 0 then none
  else (errorPlace v.2 128 0 v.1).map fun p =>
    (word.set (127 - p) (BitVec.ofNat 8 ((word.getD (127 - p) 0).toNat ^^^ v.1)), 1)

/-! ### Layout (R408) -/

/-- Bytes 0, 2, 4, … of a flit. -/
def evenBytes : List Byte → List Byte
  | [] => []
  | [a] => [a]
  | a :: _ :: bs => a :: evenBytes bs

/-- Bytes 1, 3, 5, … of a flit. -/
def oddBytes : List Byte → List Byte
  | [] => []
  | _ :: bs => evenBytes bs

/-- The bytes of two strings in turn. -/
def interleave : List Byte → List Byte → List Byte
  | a :: as, b :: bs => a :: b :: interleave as bs
  | _, _ => []

/-- The 252 bytes of a flit before its FEC: header, fifteen slots, and the CRC-64, most significant byte first (log entry 13). -/
def flitBody (f : TxlSent) : List Byte :=
  let b := bytesLE 4 f.hdr ++ padTo 240 f.slots
  b ++ bytesBE 8 (crc64 b)

/-- The 256 bytes of a flit on the link. -/
def flitBytes (f : TxlSent) : List Byte :=
  let b := flitBody f
  b ++ interleave (gf8Checks (evenBytes b)) (gf8Checks (oddBytes b))

/-- The bytes of a flit that cross lane `l` (R407). -/
def flitLane (l : Nat) (b : List Byte) : List Byte := (List.range 16).map fun i => b.getD (16 * i + l) 0

/-- What the receiver makes of a flit: the bytes corrected, and its header and slots where FEC, CRC and FTYPE accept it. -/
structure FlitRead where
  corrected : Nat := 0
  good : Option TxlSent := none
deriving DecidableEq, Repr

/-- The bytes that a codeword's decoding corrected. -/
def correctedBytes (r : Option (List Byte × Nat)) : Nat := (r.map Prod.snd).getD 0

/-- A flit read: corrected, then checked by its CRC-64; FTYPE 3 is reserved (R408, R409). -/
def readFlit (b : List Byte) : FlitRead :=
  let e := gf8Correct (evenBytes b)
  let o := gf8Correct (oddBytes b)
  let n := correctedBytes e + correctedBytes o
  match e, o with
  | some e, some o =>
    let b := interleave e.1 o.1
    let h := natLE (b.take 4)
    if natBE (slice b 244 8) = crc64 (b.take 244) && field h 31 30 ≠ 3 then ⟨n, some ⟨h, slice b 4 240⟩⟩ else ⟨n, none⟩
  | _, _ => ⟨n, none⟩

/-! ### Messages in slots (R412, R413) -/

/-- The slots of a message: its header slot, then its data. -/
def TxlMsg.slots (m : TxlMsg) : List Byte := bytesLE 16 m.hdr ++ m.data

/-- Data slots that an opcode carries; none for an opcode of no request or answer of the companion (R413). -/
def opcData (opc : Nat) : Option Nat :=
  match opc with
  | 1 => some 0
  | 2 => some 0
  | 3 => some 0
  | 4 => some 4
  | 5 => some 4
  | 6 => some 0
  | 7 => some 0
  | 8 => some 4
  | _ => none

/-- The messages of `n` slots, and those discarded with the data slots they had (R413): a message never spans two flits. -/
def flitMsgs : Nat → Nat → List Byte → List TxlMsg × List TxlMsg
  | 0, _, _ => ([], [])
  | fuel + 1, n, b =>
    if n = 0 then ([], [])
    else
      let h := natLE (b.take 16)
      let rest := b.drop 16
      if h = 0 then flitMsgs fuel (n - 1) rest
      else
        match opcData (field h 127 122) with
        | none =>
          let r := flitMsgs fuel (n - 1) rest
          (r.1, ⟨h, []⟩ :: r.2)
        | some d =>
          if n < d + 1 then ([], [⟨h, rest.take (16 * (n - 1))⟩])
          else
            let r := flitMsgs fuel (n - 1 - d) (rest.drop (16 * d))
            (⟨h, rest.take (16 * d)⟩ :: r.1, r.2)

/-! ### Headers and credit returns (R409, R411) -/

/-- A flit header: the acknowledgement and NAK are those of the moment. -/
def Txl.header (x : Txl) (ftype fseq : Nat) (c : Nat × Nat) : Nat :=
  ftype <<< 30 + fseq <<< 20 + x.aseq.getD 0 <<< 10 + (if x.aseq.isSome then 512 else 0) + (if x.nak then 256 else 0) +
    c.1 <<< 6 + c.2

/-- The credit return that a flit carries: class and count, 3 and 0 for none (log entry 13). -/
def Txl.creditReturn (x : Txl) : Nat × Nat :=
  if x.giveReq ≠ 0 then (0, min 63 x.giveReq)
  else if x.giveRsp ≠ 0 then (1, min 63 x.giveRsp)
  else if x.giveData ≠ 0 then (2, min 63 x.giveData)
  else (3, 0)

/-- The slots that a credit return hands back are the companion's again. -/
def Txl.returned (x : Txl) (c : Nat × Nat) : Txl :=
  { x with
    giveReq := if c.1 = 0 then x.giveReq - c.2 else x.giveReq
    giveRsp := if c.1 = 1 then x.giveRsp - c.2 else x.giveRsp
    giveData := if c.1 = 2 then x.giveData - c.2 else x.giveData
    peerReq := if c.1 = 0 then x.peerReq + c.2 else x.peerReq
    peerRsp := if c.1 = 1 then x.peerRsp + c.2 else x.peerRsp
    peerData := if c.1 = 2 then x.peerData + c.2 else x.peerData }

/-- A flit leaves with the acknowledgement and the credits of the moment. -/
def Txl.emit (x : Txl) (ftype fseq : Nat) (slots : List Byte) : Txl :=
  let c := x.creditReturn
  { x.returned c with wire := x.wire ++ [⟨x.header ftype fseq c, slots⟩] }

/-- The IDLE flit of a nanosecond with nothing to say: the acknowledgement alone (R409). -/
def Txl.idle (x : Txl) : TxlSent := ⟨x.header 0 0 (3, 0), []⟩

/-- Flits leave in pairs: an IDLE flit follows one that has no partner (R407; log entry 13). -/
def Txl.pair (x : Txl) : Txl := if x.wire.length % 2 = 0 then x else { x with wire := x.wire ++ [x.idle] }

/-- A CONTROL flit: acknowledgement and credits only (R409). -/
def Txl.control (x : Txl) : Txl := x.emit 2 0 []

/-- CONTROL flits return the credits that still wait (R411). -/
def Txl.returnCredits : Nat → Txl → Txl
  | 0, x => x
  | n + 1, x => if x.creditReturn.2 = 0 then x else Txl.returnCredits n x.control

/-- A message that leaves the receive buffers, served or discarded, frees its slots (R411). -/
def Txl.freed (x : Txl) (m : TxlMsg) : Txl :=
  let d := m.data.length / 16
  if field m.hdr 127 122 = 7 || field m.hdr 127 122 = 8 then { x with giveRsp := x.giveRsp + 1, giveData := x.giveData + d }
  else { x with giveReq := x.giveReq + 1, giveData := x.giveData + d }

/-- A message takes its slots of the receive buffers: the companion's credits for them are spent (R411). -/
def Txl.spent (x : Txl) (m : TxlMsg) : Txl :=
  let d := m.data.length / 16
  if field m.hdr 127 122 = 7 || field m.hdr 127 122 = 8 then { x with peerRsp := x.peerRsp - 1, peerData := x.peerData - d }
  else { x with peerReq := x.peerReq - 1, peerData := x.peerData - d }

end Sys2Proof.Machine
end

