-- ==== Sys2Proof/Machine/Coherence.lean ====
section
/-! DEFINITION. Sending on the TXL, the coherence directory and back-invalidation (14 R409-R413, R417, R418). -/

namespace Sys2Proof.Machine

/-! ### Messages (R412, R413) -/

/-- Opcode of a message. -/
def TxlMsg.opc (m : TxlMsg) : Nat := field m.hdr 127 122
/-- Transaction tag. -/
def TxlMsg.tag (m : TxlMsg) : Nat := field m.hdr 121 110
/-- TXL address of the line. -/
def TxlMsg.addr (m : TxlMsg) : Nat := 64 * field m.hdr 109 64
/-- ARG: the byte enables of a WR. -/
def TxlMsg.arg (m : TxlMsg) : Nat := field m.hdr 63 0

/-- A message to the companion (R412). -/
def txlMsg (opc tag addr arg : Nat) (data : List Byte) : TxlMsg :=
  ⟨(opc % 64) <<< 122 + (tag % 4096) <<< 110 + (field addr 51 6) <<< 64 + arg % 2 ^ 64, data⟩

/-- ARG of a response: STATUS, POISON and STATE (R412). -/
def rspArg (status : Nat) (poison : Bool) (state : Nat) : Nat := status <<< 60 + (if poison then 2 ^ 59 else 0) + state <<< 57

/-- Requests of the part travel in the REQ class, responses in the RSP class (R413). -/
def TxlMsg.isBinv (m : TxlMsg) : Bool := m.opc = 0x22

/-- The credits a message needs are held, and `keep` of the RSP and DATA credits stay aside for Prompt Window responses
(R411). -/
def Txl.affords (x : Txl) (m : TxlMsg) (prompt : Bool) : Bool :=
  x.kept.length < 128 &&
    if m.isBinv then 1 ≤ x.reqCr
    else
      let r := if prompt then 0 else 4
      let d := if prompt then 0 else 16
      1 + r ≤ x.rspCr && (m.data.isEmpty || 4 + d ≤ x.dataCr)

/-- A message leaves in a PROTOCOL flit of its own, which is kept until it is acknowledged (R409, R410; log entry 13). -/
def Txl.put (x : Txl) (m : TxlMsg) (now : Nat) : Txl :=
  let y := x.emit 1 x.next m.slots
  { y with
    kept := y.kept ++ [⟨x.next, ⟨x.header 1 x.next x.creditReturn, m.slots⟩, now⟩]
    next := (x.next + 1) % 1024
    reqCr := if m.isBinv then x.reqCr - 1 else x.reqCr
    rspCr := if m.isBinv then x.rspCr else x.rspCr - 1
    dataCr := if m.data.isEmpty then x.dataCr else x.dataCr - 4 }

/-- The waiting messages offered in order; a message that waits holds back those behind it of its class. -/
def Txl.flush (now : Nat) (noReq noRsp : Bool) : List (TxlMsg × Bool) → Txl → Txl
  | [], x => x
  | (m, prompt) :: ms, x =>
    let blocked := if m.isBinv then noReq else noRsp
    if !blocked && x.affords m prompt then Txl.flush now noReq noRsp ms (x.put m now)
    else Txl.flush now (noReq || m.isBinv) (noRsp || !m.isBinv) ms { x with out := x.out ++ [(m, prompt)] }

/-- What waits is sent as far as credits and the replay window allow (R410, R411), in pairs of flits (R407). -/
def State.txlSend (s : State) : State :=
  if s.txl.link ≠ .up then s
  else { s with txl := (Txl.flush s.now false false s.txl.out { s.txl with out := [] }).pair }

/-- A message to the companion, behind those that wait. -/
def State.txlSay (s : State) (m : TxlMsg) : State := { s with txl := { s.txl with out := s.txl.out ++ [(m, false)] } }.txlSend

/-- A Prompt Window response: ahead of every other message, with the credits kept aside (R411, R423). -/
def State.txlSayFirst (s : State) (m : TxlMsg) : State :=
  let o := s.txl.out
  { s with txl := { s.txl with out := o.takeWhile Prod.snd ++ (m, true) :: o.dropWhile Prod.snd } }.txlSend

/-- Slots freed are returned to the companion at once (R411). -/
def State.txlReturn (s : State) : State :=
  if s.txl.link ≠ .up then s else { s with txl := (Txl.returnCredits 64 s.txl).pair }

/-! ### The directory (R417) -/

/-- The directory entry of a desk line. -/
def State.dirEntry (s : State) (line : Nat) : Option DirEntry := s.desk.directory.find? fun d => d.line = line

/-- The line becomes I. -/
def State.dirDrop (s : State) (line : Nat) : State :=
  { s with desk := { s.desk with directory := s.desk.directory.filter fun d => d.line ≠ line } }

/-- Set of a line: desk-physical address bits 21 to 6. -/
def dirSet (line : Nat) : Nat := line % 65536

/-- The ways of a line's set in use, least recently allocated first. -/
def State.dirWays (s : State) (line : Nat) : List DirEntry := s.desk.directory.filter fun d => dirSet d.line = dirSet line

/-- A BINV for the line is outstanding. -/
def State.binvOut (s : State) (line : Nat) : Bool := s.txl.binvs.any fun b => b.line = line && !b.done

/-- A BINV is sent for a line the companion holds (R413, R417). -/
def State.sendBinv (s : State) (d : DirEntry) (evictFor : Option Nat) : State :=
  if s.binvOut d.line then s
  else
    let b : Binv := { line := d.line, tag := s.txl.binvTag, sent := s.now, evictFor := evictFor }
    let s : State := { s with txl := { s.txl with
      binvs := s.txl.binvs ++ [b], binvTag := (s.txl.binvTag + 1) % 4096 } }
    s.txlSay (txlMsg 0x22 b.tag d.txl 0 [])

/-- A reservoir fetch must recall an E line, a store an S or E line. -/
def mustRecall (store : Bool) (d : DirEntry) : Bool := store || d.st = .exclusive

/-- Entries of the lines of a range that must be recalled. -/
def State.recalls (s : State) (pa len : Nat) (store : Bool) : List DirEntry :=
  s.desk.directory.filter fun d => (blocksOf pa len).contains d.line && mustRecall store d

/-- The companion's copies that an access meets are recalled (R417). -/
def State.claimLines (s : State) (pa len : Nat) (store : Bool) : State :=
  (s.recalls pa len store).foldl (fun s d => s.sendBinv d none) s

/-- The companion still holds a line that the access must recall. -/
def State.linesHeld (s : State) (pa len : Nat) (store : Bool) : Bool := !(s.recalls pa len store).isEmpty

end Sys2Proof.Machine
end

