-- ==== Sys2Proof/Machine/Fec.lean ====
section
/-! DEFINITION. The transmit side of the quill FEC: the Reed-Solomon code, framing symbols, the scrambler, lanes and PAM4 levels (08
R234; 09 R267-R270). -/

namespace Sys2Proof.Machine

/-! ### RS(272,257) over GF(2^10) (R267) -/

/-- A field element times α, by the primitive polynomial x^10 + x^3 + 1. -/
def gfDouble (a : Nat) : Nat := if 1024 ≤ 2 * a then (2 * a) ^^^ 0x409 else 2 * a

/-- The product of two field elements. -/
def gfMul (a b : Nat) : Nat := (List.range 10).foldr (fun i acc => gfDouble acc ^^^ (if bit b i then a else 0)) 0

/-- A polynomial, highest degree first, times x − r. -/
def polyTimes (p : List Nat) (r : Nat) : List Nat := List.zipWith (· ^^^ ·) (p ++ [0]) (0 :: p.map (gfMul r))

/-- The generator polynomial: the product of x − α^i for i = 0 to 14, highest degree first. -/
def rsGenerator : List Nat :=
  ((List.range 15).foldl (fun (s : List Nat × Nat) _ => (polyTimes s.1 s.2, gfDouble s.2)) ([1], 1)).1

/-- The remainder of the message polynomial times x^15: fifteen parity symbols, highest degree first. -/
def rsParity (msg : List Nat) : List Nat :=
  let g := rsGenerator.drop 1
  msg.foldl (fun r m =>
    let k := m ^^^ r.headD 0
    List.zipWith (· ^^^ ·) (r.drop 1 ++ [0]) (g.map (gfMul k))) (List.replicate 15 0)

/-! ### Framing, scrambling and codewords (R267-R269) -/

/-- The framing symbol F of codeword `k` (R268). -/
def framingSymbol (k stroke : Nat) : Nat := k <<< 6 + (stroke % 16) <<< 2 + 2

/-- The scrambler's state at a stroke boundary (R269). -/
def scrambleStart (stroke : Nat) : Nat := (2 ^ 48 - 1) <<< 10 + stroke % 1024

/-- The next `n` bits of the scrambler x^58 + x^39 + 1, the first lowest, and the state after them (log entry 8). -/
def scrambleBits : Nat → Nat → Nat × Nat
  | 0, st => (0, st)
  | n + 1, st =>
    let b := if bit st 57 != bit st 38 then 1 else 0
    let r := scrambleBits n ((2 * st + b) % 2 ^ 58)
    (2 * r.1 + b, r.2)

/-- A codeword (R267-R269) of 320 data bytes, whose string is scrambled by `key`. -/
def codeword (k stroke key : Nat) (bytes : List Byte) : List Nat :=
  let text := natLE bytes ^^^ key
  let msg := framingSymbol k stroke :: (List.range 256).map fun i => field text (10 * i + 9) (10 * i)
  msg ++ rsParity msg

/-- The codewords of a stroke from codeword `k` on, the scrambler's state given. -/
def codewordsFrom (stroke : Nat) : Nat → Nat → Nat → List Byte → List (List Nat)
  | 0, _, _, _ => []
  | n + 1, k, st, bytes =>
    let r := scrambleBits 2560 st
    codeword k stroke r.1 (bytes.take 320) :: codewordsFrom stroke n (k + 1) r.2 (bytes.drop 320)

/-- The fifteen codewords of a stroke of 4,800 B (R267). -/
def strokeWords (stroke : Nat) (bytes : List Byte) : List (List Nat) :=
  codewordsFrom stroke 15 0 (scrambleStart stroke) bytes

/-! ### Lanes (R270) -/

/-- PAM4 level of a pair of bits, Gray coded. -/
def pam4Level (pair : Nat) : Nat := if pair = 2 then 3 else if pair = 3 then 2 else pair

/-- The five PAM4 levels of a symbol, bits 9:8 first. -/
def symbolLevels (x : Nat) : List Nat := [9, 7, 5, 3, 1].map fun i => pam4Level (field x i (i - 1))

/-- The symbols of a codeword that cross a lane: those whose number mod 4 is the lane's. -/
def laneSymbols (lane : Nat) (word : List Nat) : List Nat := (List.range 68).map fun i => word.getD (4 * i + lane) 0

/-- The PAM4 levels of a stroke, lane by lane. -/
def laneLevels (words : List (List Nat)) : List (List Nat) :=
  (List.range 4).map fun l => words.flatMap fun w => (laneSymbols l w).flatMap symbolLevels

/-! ### The bytes of a stroke (08 R234, R267) -/

/-- A ruled frame as bytes: header, payload, trailer, most significant byte first. -/
def Frame.bytes (f : Frame) : List Byte := bytesBE 32 f.hdr.toNat ++ f.payload ++ bytesBE 16 f.trailer.toNat

/-- The 4,800 B of a stroke: the ruled frame with its fill of zeros up to 4,144 B, the control field and the margin slot. -/
def strokeBytes (f : Option Frame) (ctl slot : List Byte) : List Byte :=
  padTo 4144 ((f.map Frame.bytes).getD []) ++ padTo 80 ctl ++ padTo 576 slot

/-- The frame of stroke `k` that a quill's ruled side decided last or before that. -/
def RuledPort.frameOf (p : RuledPort) (k : Nat) : Option Frame :=
  if p.decided = k then p.out else p.outBefore.bind fun e => if e.1 = k then some e.2 else none

end Sys2Proof.Machine
end

