-- ==== Sys2Proof/Machine/MarginOps.lean ====
section
/-! DEFINITION. Margin packets, routes, the Endpoint Table and the request store (09 R265, R285-R295, R297, R300, R301). -/

namespace Sys2Proof.Machine

/-! ### The header (R293) -/

/-- OP: 0 READ, 1 WRITE, 2 ADD64, 3 CAS64, 4 APPEND. -/
def mOp (h : Nat) : Nat := field h 507 504
/-- STATUS. -/
def mStatus (h : Nat) : Nat := field h 503 496
/-- NOTIFY. -/
def mNotify (h : Nat) : Bool := bit h 495
/-- IDEMP. -/
def mIdemp (h : Nat) : Bool := bit h 494
/-- SVC. -/
def mSvc (h : Nat) : Bool := bit h 493
/-- RETRY. -/
def mRetry (h : Nat) : Nat := field h 492 491
/-- E2E. -/
def mE2e (h : Nat) : Nat := field h 490 489
/-- GEN. -/
def mGen (h : Nat) : Nat := field h 488 486
/-- EPOCH. -/
def mEpoch (h : Nat) : Nat := field h 485 485
/-- JOBTAG. -/
def mTag (h : Nat) : Nat := field h 484 473
/-- SRC. -/
def mSrc (h : Nat) : Nat := field h 472 459
/-- DST. -/
def mDst (h : Nat) : Nat := field h 458 445
/-- NAME. -/
def mName (h : Nat) : Nat := field h 444 425
/-- TXID. -/
def mTxid (h : Nat) : Nat := field h 424 409
/-- LEN. -/
def mLen (h : Nat) : Nat := field h 408 397
/-- DX. -/
def mDx (h : Nat) : Int := signed 6 (field h 396 391)
/-- DY. -/
def mDy (h : Nat) : Int := signed 6 (field h 390 385)
/-- ADDR. -/
def mAddr (h : Nat) : Nat := field h 384 339
/-- RADDR. -/
def mRaddr (h : Nat) : Nat := field h 338 316
/-- RNIB. -/
def mRnib (h : Nat) : Nat := field h 315 303
/-- EQ. -/
def mEq (h : Nat) : Nat := field h 302 299
/-- NQ. -/
def mNq (h : Nat) : Nat := field h 298 295
/-- NVAL. -/
def mNval (h : Nat) : Nat := field h 294 271
/-- OPA. -/
def mOpa (h : Nat) : Nat := field h 270 207
/-- OPB. -/
def mOpb (h : Nat) : Nat := field h 206 143
/-- ODX. -/
def mOdx (h : Nat) : Int := signed 6 (field h 142 137)
/-- ODY. -/
def mOdy (h : Nat) : Int := signed 6 (field h 136 131)
/-- TYPE: 0 a request, 1 a response. -/
def mType (h : Nat) : Nat := field h 511 508

/-- DX and DY of a header set. -/
def mRoute (h : Nat) (dx dy : Int) : Nat := setField (setField h 396 391 (unsigned 6 dx)) 390 385 (unsigned 6 dy)

/-- HCRC of a header: bits 511 to 131, DX and DY taken as zero. -/
def mHcrc (h : Nat) : Nat := crc16 381 (mRoute h 0 0 >>> 131)

/-- CRC of a packet: bits 511 to 64 of the header, DX and DY taken as zero, and the payload. -/
def mCrc (h : Nat) (payload : List Byte) : Nat := crc64 (bytesBE 56 (mRoute h 0 0 >>> 64) ++ payload)

/-- Payload bytes that a header announces (R292). -/
def mPayload (h : Nat) : Nat :=
  if mType h = 0 then (if mOp h = 1 || mOp h = 4 then mLen h else 0)
  else if mStatus h ≠ 0 then 0
  else
    match mOp h with
    | 0 => mLen h
    | 1 => 0
    | _ => 8

/-- A packet as it stands on a link: the header with its CRCs, then the payload padded to 32 B. -/
def sealMargin (h : Nat) (payload : List Byte) : List Byte :=
  let h := setField h 130 64 0
  let h := h + mHcrc h <<< 115
  let h := setField h 63 0 (mCrc h payload)
  bytesBE 64 h ++ padTo (32 * ceilDiv payload.length 32) payload

/-- Header of a packet. -/
def packetHdr (p : List Byte) : Nat := natBE (p.take 64)
/-- Payload of a packet. -/
def packetData (p : List Byte) : List Byte := slice p 64 (mPayload (packetHdr p))
/-- HCRC of a packet passes. -/
def hcrcOk (p : List Byte) : Bool := field (packetHdr p) 130 115 = mHcrc (packetHdr p)
/-- CRC of a packet passes. -/
def crcOk (p : List Byte) : Bool := field (packetHdr p) 63 0 = mCrc (packetHdr p) (packetData p)
/-- A packet's bytes with DX and DY changed: no CRC covers them. -/
def reroute (p : List Byte) (dx dy : Int) : List Byte := bytesBE 64 (mRoute (packetHdr p) dx dy) ++ p.drop 64

/-! ### Directions and routes (R265, R285, R286) -/

/-- First quill and number of quills of a direction: 0 west, 1 north, 2 east, 3 south. -/
def dirQuills (profile dir : Nat) : Nat × Nat :=
  let x := min profile 3 + 4
  let x := if profile = 3 then 8 else x
  match dir with
  | 0 => (0, x)
  | 1 => (x, 8 - x)
  | 2 => (8, x)
  | _ => (8 + x, 8 - x)

/-- The direction of a quill. -/
def quillDir (profile q : Nat) : Nat :=
  if q < (dirQuills profile 0).2 then 0 else if q < 8 then 1 else if q < 8 + (dirQuills profile 2).2 then 2 else 3

/-- The direction a route takes next, and the route that remains after that hop; none where it ends here. -/
def nextHop (dx dy : Int) : Option (Nat × Int × Int) :=
  if 0 < dx then some (2, dx - 1, dy)
  else if dx < 0 then some (0, dx + 1, dy)
  else if 0 < dy then some (3, 0, dy - 1)
  else if dy < 0 then some (1, 0, dy + 1)
  else none

namespace State

/-- The quills of a direction that are UP, in order. -/
def upQuills (s : State) (dir : Nat) : List Nat :=
  let d := dirQuills s.margin.profile dir
  ((List.range d.2).map (· + d.1)).filter fun q => (s.quill q).link = .up

/-- The quill that a packet of a transaction takes in a direction. -/
def hopQuill (s : State) (dir txid : Nat) : Option Nat :=
  let us := s.upQuills dir
  us[txid % us.length]?

/-- The virtual channel a packet leaves in on quill `q`: `b` says it came in a B channel, `turns` that it turns from X to Y
(R286). -/
def outVc (s : State) (q : Nat) (rsp b turns : Bool) : Nat :=
  (if rsp then 2 else 0) + (if (b && !turns) || s.obj 0x604D q = 1 then 1 else 0)

/-- The link side of a quill changed by `f`. -/
def updPort (s : State) (q : Nat) (f : LinkPort → LinkPort) : State :=
  s.updQuill q fun x => { x with port := f x.port }

/-- A packet queued to leave on a quill. -/
def queuePacket (s : State) (q vc : Nat) (p : List Byte) : State :=
  s.updPort q fun x => { x with txq := SMap.upd [] x.txq vc fun ps => ps ++ [p] }

/-- Credits of a virtual channel that no queued packet needs (R283). -/
def creditsLeft (s : State) (q vc : Nat) : Nat :=
  let p := (s.quill q).port
  128 - SMap.get 0 p.used vc - ((SMap.get [] p.txq vc).map fun b => b.length / 32).sum

/-- The name of the module's own loop among the buffers of arriving requests (R296): quill 16. -/
def ownOrder : Nat := 64

/-- A packet enters the fabric (R285, R286): queued on its first hop, or kept in the module where its route has none. False
where no quill of its direction is UP. -/
def sendPacket (s : State) (p : List Byte) : State × Option Nat × Bool :=
  let h := packetHdr p
  match nextHop (mDx h) (mDy h) with
  | none =>
    ({ s with margin := { s.margin with
        own := s.margin.own ++ [p], order := if mType h = 1 then s.margin.order else s.margin.order ++ [ownOrder] } }, none, true)
  | some (dir, dx, dy) =>
    match s.hopQuill dir (mTxid h) with
    | none => (s, none, false)
    | some q => (s.queuePacket q (s.outVc q (mType h = 1) false false) (reroute p dx dy), some q, true)

/-! ### The Endpoint Table (R289-R291) -/

/-- The Endpoint Table entry of a name, in the copy in force. -/
def endpoint (s : State) (name : Nat) : Nat :=
  SMap.get 0 (if s.obj 0x2901 0 = 1 then s.margin.eps1 else s.margin.eps0) (name % 4096)

/-- Extent of a request (R290). -/
def mExtent (h : Nat) : Nat :=
  match mOp h with
  | 2 => 8
  | 3 => 8
  | 4 => max 64 (mLen h)
  | _ => mLen h

/-- The status with which the lookup of a request refuses it, 0 where it passes (R290). -/
def lookup (s : State) (h : Nat) : Nat :=
  let e := s.endpoint (mName h)
  let right :=
    match mOp h with
    | 0 => bit e 92
    | 1 => bit e 91
    | 4 => bit e 91
    | _ => bit e 90
  if !bit e 127 || field e 126 119 ≠ field (mName h) 19 12 then 2
  else if s.margin.profile = 3 && field e 98 93 ≠ 0 then 2
  else if (field e 89 62 + 1) * 4096 < mAddr h + mExtent h || !right then 0x0A
  else 0

/-- The header of a request with the fields its endpoint gives: DST, the route and the offset (R289, R290). -/
def address (s : State) (h : Nat) (rel : Nat) : Nat :=
  let e := s.endpoint (mName h)
  let h := setField h 458 445 (field e 118 105)
  let h := setField h 384 339 (field e 45 0 + rel)
  let h := setField (setField h 396 391 (field e 104 99)) 390 385 (field e 98 93)
  setField (setField h 142 137 (field e 104 99)) 136 131 (field e 98 93)

/-! ### The request store (R295, R297, R300, R301) -/

/-- The request store has room and some transaction ID is free (R295). -/
def marginRoom (s : State) : Bool :=
  s.margin.requests.length < 1024 && s.margin.requests.length + s.margin.ended.length < 65536

/-- A transaction ID is outstanding or completed less than 2 ms earlier. -/
def idBusy (s : State) (i : Nat) : Bool :=
  (SMap.get none s.margin.requests i).isSome || (SMap.get none s.margin.ended i).isSome

/-- The next free transaction ID in rotation (R295). -/
def nextTxid (s : State) : Nat → Nat → Nat
  | 0, i => i
  | fuel + 1, i => if s.idBusy i then nextTxid s fuel ((i + 1) % 65536) else i

/-- A transaction ID is allocated. -/
def takeTxid (s : State) : State × Nat :=
  let i := s.nextTxid 65536 s.margin.nextId
  ({ s with margin := { s.margin with nextId := (i + 1) % 65536 } }, i)

/-- A request record replaced or removed. -/
def setRequest (s : State) (i : Nat) (r : Option Request) : State :=
  { s with margin := { s.margin with requests := SMap.set none s.margin.requests i r } }

/-- What the completion of a mirror request does to its record (10 R325-R327): pieces are counted, a mark that is OK makes the
new C the marked one and ends the record, any other status makes the context STALE. -/
def mirrorDone (s : State) (r : Request) (status : Nat) : State :=
  if status ≠ 0 then s.makeStale r.nib r.ctx
  else
    let s := s.bump 0x8070 0 1
    let m := (s.nib r.nib).mirror
    match m.queue.findIdx? fun c => c.ctx = r.ctx && c.first = r.first with
    | none => s
    | some i =>
      match m.queue[i]? with
      | none => s
      | some c =>
        if r.who = .mirrorMark then
          s.updNib r.nib fun x => { x with mirror := { m with
            queue := m.queue.eraseIdx i, marked := SMap.set 0 m.marked r.ctx (c.first + c.count) } }
        else s.updNib r.nib fun x => { x with mirror := { m with
            queue := m.queue.modify i fun c => { c with acked := c.acked + 1 } } }

/-- A request completes with a status (R297, R300): its ID stays taken for 2 ms, and its EVENT is enqueued, held or
dropped. -/
def completeRequest (s : State) (i status : Nat) : State :=
  match SMap.get none s.margin.requests i with
  | none => s
  | some r =>
    let s := s.setRequest i none
    let s : State := { s with margin := { s.margin with ended := SMap.set none s.margin.ended i (some s.now) } }
    match r.who with
    | .send =>
      let e : MarginEvent := ⟨mRnib r.hdr, mEq r.hdr, token (mGen r.hdr) (mEpoch r.hdr) 3 (status <<< 16 + i)⟩
      s.tellMargin (s.margin.held ++ [e]) []
    | _ => (s.bump 0x8061 (1 + mEpoch r.hdr) 1).mirrorDone r status

/-- A request is orphaned (R301): parked when it is idempotent and has been re-sent fewer than three times, else completed
ORPHAN. -/
def orphan (s : State) (i : Nat) : State :=
  match SMap.get none s.margin.requests i with
  | none => s
  | some r =>
    let s := s.bump 0x8062 0 1
    if mIdemp r.hdr && mRetry r.hdr < 3 then
      s.setRequest i (some { r with parked := some s.now })
    else s.completeRequest i 1

/-- An outstanding request is sent on its route, and its timer starts (R285, R301). -/
def launchRequest (s : State) (i : Nat) : State :=
  match SMap.get none s.margin.requests i with
  | none => s
  | some r =>
    let t := s.sendPacket (sealMargin r.hdr r.payload)
    let s := t.1.setRequest i (some { r with sentAt := s.now, hop := t.2.1, parked := none })
    if t.2.2 then s else s.orphan i

/-- A request is entered in the store and counted as issued (R295, R300). -/
def enterRequest (s : State) (i : Nat) (r : Request) : State :=
  (s.setRequest i (some r)).bump 0x8060 (1 + mEpoch r.hdr) 1

/-- The engine refuses a nib's request (R294): `extra` is the number of payload bytes the send supplied. -/
def badRequest (h extra : Nat) : Bool :=
  let op := mOp h
  let needs := if op = 1 || op = 4 then mLen h else 0
  let back := if op = 0 then mLen h else if op = 1 then 0 else 8
  mType h ≠ 0 || 4 < op || 2048 < mLen h || extra ≠ needs || (mNotify h && op ≠ 1 && op ≠ 4) ||
    ((op = 2 || op = 3) && mAddr h % 8 ≠ 0) || (op = 4 && mAddr h % 64 ≠ 0) ||
    (rangeFault (mRaddr h, max 1 back)).isSome

/-- The header of a request as the engine sets it (R294), before its endpoint is looked up. -/
def engineHeader (s : State) (n h txid : Nat) : Nat :=
  let x := s.nib n
  let idemp := mOp h = 0 || (mOp h = 1 && !mNotify h)
  (mOp h) <<< 504 + (if mNotify h then 2 ^ 495 else 0) + (if idemp then 2 ^ 494 else 0) +
    (x.tags.gen % 8) <<< 486 + (x.tags.epoch % 2) <<< 485 + s.jobTag <<< 473 + s.chip <<< 459 + (mName h) <<< 425 +
    txid <<< 409 + (mLen h) <<< 397 + (mAddr h) <<< 339 + (mRaddr h) <<< 316 + (n % 8192) <<< 303 + (mEq h) <<< 299 +
    (mNq h) <<< 295 + (mNval h) <<< 271 + (mOpa h) <<< 207 + (mOpb h) <<< 143

/-- A nib's request is issued (R290, R294, R295, R301): refused ones complete at once, an abort in progress sends no new
request (R391). -/
def issueRequest (s : State) (n : Nat) (bytes : List Byte) : State :=
  let short := 64 - bytes.length
  let h := natBE (bytes.take 64) * 256 ^ short + s.free % 256 ^ short
  let s := if short = 0 then s else s.took
  let t := s.takeTxid
  let s := t.1
  let h' := s.engineHeader n h t.2
  let r : Request := ⟨h', bytes.drop 64, s.now, none, none, .send, n, 0, 0, mAddr h⟩
  if badRequest h (bytes.length - 64) then (s.enterRequest t.2 r).completeRequest t.2 8
  else
    let st := s.lookup h'
    if st ≠ 0 then (s.enterRequest t.2 r).completeRequest t.2 st
    else (s.enterRequest t.2 { r with hdr := s.address h' (mAddr h') }).launchRequest t.2

end State

end Sys2Proof.Machine
end

