-- ==== Sys2Proof/Machine/Clocks.lean ====
section
/-! DEFINITION. Quire clocks, ruling time, its servo, PTP and the anchor (07 R205-R233). -/

namespace Sys2Proof.Machine

/-! ### Resets asked for (13 R393) -/

/-- A reset step is wanted; it begins when the abort and its record are done (R393). -/
def State.wantReset (s : State) (step nib unit cause : Nat) : State :=
  { s with recovery := { s.recovery with wanted := s.recovery.wanted ++ [⟨step, nib, unit, cause, s.now⟩] } }

/-! ### The reference (R206) -/

/-- Every quire changed by `f`. -/
def State.mapQuires (s : State) (f : Quire → Quire) : State :=
  (List.range 16).foldl (fun s k => { s with quires := SMap.upd {} s.quires k f }) s

/-- The row REF_LOSS (R206, R215): the time state becomes INVALID, issue stops on every nib, the quills lose lane lock,
and the job is blotted with reason CLOCK. A time clock that loses lock is handled likewise. -/
def State.loseRef (s : State) (_cause : RefCause) : State :=
  if !s.time.refOk then s
  else
    let s := { s with time := { s.time with refOk := false, st := 4, parent := none } }
    let s := (List.range 16).foldl (fun s q => s.updQuill q fun x => { x with laneLock := false }) s
    let s := s.mapNibs fun x =>
      if x.issue.run = .running then { x with issue := { x.issue with run := .stopped, hold := .none } } else x
    s.blot 2

/-- The row REF_LOSS. -/
def execRefLoss (cause : RefCause) (s : State) : Out := .next (s.loseRef cause)

/-- The row REF_RETURN (R206): every generator relocks, the time state becomes FREE, and the compute domain is reset with
cause REF (R393). -/
def State.regainRef (s : State) : State :=
  if s.time.refOk then s
  else
    let s := { s with time := { s.time with refOk := true, st := 0, adj := s.time.integ, good := 0, stepped := false } }
    (s.mapQuires fun x => { x with locked := true }).wantReset 3 0xFFFF 0 8

/-! ### Stretching (R209-R213) -/

/-- A quire. -/
def State.quire (s : State) (k : Nat) : Quire := SMap.get {} s.quires k
/-- A quire changed by `f`. -/
def State.updQuire (s : State) (k : Nat) (f : Quire → Quire) : State :=
  { s with quires := SMap.upd {} s.quires k f }

/-- The margin of a quire in one cycle: the smallest of the twelve slacks (R208). -/
def marginOf (x : Slacks) : Int := x.toList.foldl min x[0]

/-- The lowest nominal margin of a list of cycles, if it has one (R209). -/
def lowestMargin : List Slacks → Option Int
  | [] => none
  | x :: xs => some (xs.foldl (fun m y => min m (marginOf y)) (marginOf x))

/-- A cycle of quire `k` is measured (R208): its nominal margin, and its in-use margin, 62.5 ps longer while the clock stretches. -/
def State.sample (s : State) (k : Nat) (x : Slacks) : State :=
  s.updQuire k fun c => { c with nominal := marginOf x, inUse := 2 * marginOf x + (if c.stretching then 125 else 0) }

/-- The row STRETCH_START (R210). -/
def State.startStretch (s : State) (k : Nat) (x : Slacks) : State :=
  if (s.quire k).running then
    let s := s.sample k x
    if marginOf x < 15 then s.updQuire k fun c => { c with stretching := true } else s
  else s

/-- The row STRETCH_START. -/
def execStretchStart (k : QuireId) (slacks : Slacks) (s : State) : Out := .next (s.startStretch k.val slacks)

/-- The highest count of any one line is kept at 0x7022 (R213). -/
def State.keepCount (s : State) (k : Nat) : State :=
  let c := (s.quire k).count
  if s.obj 0x7022 k < c then s.setObj 0x7022 k (c % 2 ^ 32) else s

/-- Stretched cycles counted in the line in progress (R212, R213). -/
def State.addStretch (s : State) (k c : Nat) : State :=
  ((s.updQuire k fun x => { x with count := x.count + c }).bump 0x7021 k c).keepCount k

/-- The count of a line that has reached 2,950 is noted once (R213): it is counted, and while a plan is applied one
pen-lift is requested for line L + 2. An abort in progress requests none (13 R391). -/
def State.noteOverrun (s : State) (k : Nat) : State :=
  let x := s.quire k
  if x.overrun || x.count < 2950 then s
  else
    let already : Bool := (List.range 16).any fun j => (s.quire j).overrun
    let s := (s.updQuire k fun x => { x with overrun := true }).bump 0x7023 k 1
    if s.planApplied && !already && s.recovery.abort.isNone then (s.bump 0x8040 0 1).requestPenlift 2 else s

/-- Stretched cycles that the quires report (R212, R213). -/
def State.countCycles (s : State) (cycles : List (QuireId × Nat)) : State :=
  cycles.foldl (fun s c => (s.addStretch c.1.val c.2).noteOverrun c.1.val) s

/-- The row STRETCH_OVERRUN (R213). -/
def execStretchOverrun (k : QuireId) (cycles : Nat) (s : State) : Out :=
  .next (if (s.quire k.val).stretching then (s.addStretch k.val cycles).noteOverrun k.val else s)

/-- The last eight of the cycles sampled all have a nominal margin of 15 ps or more (R210). -/
def eightGood (samples : List Slacks) : Bool :=
  8 ≤ samples.length && (samples.drop (samples.length - 8)).all fun x => 15 ≤ marginOf x

/-- The row STRETCH_END (R210): after eight consecutive good samples the clock stretches no more. -/
def State.endStretch (s : State) (k c : Nat) (samples : List Slacks) : State :=
  if (s.quire k).stretching then
    let s := samples.foldl (fun s x => s.sample k x) ((s.addStretch k c).noteOverrun k)
    if eightGood samples then s.updQuire k fun x => { x with stretching := false } else s
  else s

/-- The row STRETCH_END. -/
def execStretchEnd (k : QuireId) (found : StretchReport) (s : State) : Out :=
  .next (s.endStretch k.val found.cycles found.samples)

/-- A quire's count of a line ends (R212), and the next starts from 0. -/
def State.endCount (s : State) (k : Nat) : State :=
  (s.keepCount k).updQuire k fun x => { x with count := 0, overrun := false }

/-- The count of every quire ends. -/
def State.endCounts (s : State) : State := (List.range 16).foldl (fun s k => s.endCount k) s

/-- The condition of R211 holds in a cycle of quire `k`. -/
def State.clockFails (s : State) (k : Nat) (cause : ClockFail) : Bool :=
  match cause with
  | .margin x => ((s.sample k x).quire k).inUse < 0
  | .lock => true
  | .both _ => true

/-- What the cycle of R211 measured. -/
def State.failSample (s : State) (k : Nat) (cause : ClockFail) : State :=
  match cause with
  | .margin x => s.sample k x
  | .lock => s
  | .both x => s.sample k x

/-- The generator keeps its lock (R211). -/
def ClockFail.keepsLock : ClockFail → Bool
  | .margin _ => true
  | .lock => false
  | .both _ => false

/-- The row CLOCK_MARGIN (R211): the quire's clock stops, the job is blotted with reason CLOCK, and the compute domain is
reset with cause CLOCK. -/
def State.failClock (s : State) (k : Nat) (cause : ClockFail) : State :=
  if !(s.quire k).running || !s.clockFails k cause then s
  else
    let s := ((s.failSample k cause).updQuire k fun x =>
      { x with running := false, locked := cause.keepsLock }).bump 0x7026 k 1
    (s.blot 2).wantReset 3 0xFFFF 0 4

/-- The row MARGIN_LOW (R209): the lowest nominal margin of a microsecond is recorded, and MARGIN_LOW raised at most
once per line. -/
def State.recordMargin (s : State) (k : Nat) (m : Int) : State :=
  let x := s.quire k
  let s := s.setObj 0x7024 k (unsigned 32 m)
  let s := if !x.marginSeen || m < signed 32 (s.obj 0x7025 k) then s.setObj 0x7025 k (unsigned 32 m) else s
  let s := s.updQuire k fun x => { x with marginSeen := true }
  if m < signed 32 (s.obj 0x4704 0) && x.marginTold ≠ some s.line then
    (s.updQuire k fun x => { x with marginTold := some s.line }).event 0x02 k (unsigned 64 m)
  else s

/-- The row MARGIN_LOW: the cycles sampled in the microsecond that has ended. -/
def State.endMicrosecond (s : State) (k : Nat) (samples : List Slacks) : State :=
  let s := samples.foldl (fun s x => s.sample k x) s
  match lowestMargin samples with
  | none => s
  | some m => s.recordMargin k m

/-- The row MARGIN_LOW. -/
def execMarginLow (k : QuireId) (samples : List Slacks) (s : State) : Out := .next (s.endMicrosecond k.val samples)

/-! ### Counting (R215-R217) -/

/-- The increment of one tick in units of 2^-32 ns: 0.5 ns × (1 + adj / 24,576 ns). -/
def tickUnits (adj : Frac) : Frac := (Frac.ofInt (2 ^ 31)).add ((adj.mulInt (2 ^ 31)).divNat 24576)

/-- The row TIME_CLOCK_TICK (R215): the counter takes the whole units and keeps the rest. -/
def State.tick (s : State) : State :=
  if !s.time.refOk then s
  else
    let d := (tickUnits s.time.adj).add s.time.carry
    let k := d.floor.toNat
    { s with time := { s.time with
      clock := s.time.clock + k, carry := d.add (Frac.ofInt (-(k : Int))), ticks := s.time.ticks + 1 } }

/-- The row TIME_CLOCK_TICK. -/
def execTimeClockTick (s : State) : Out := .next s.tick

/-- Nanoseconds by the ticks of the time clock, which no step moves (R215, R217). -/
def State.real (s : State) : Nat := s.time.ticks / 2

/-- The module is the time root (R223). -/
def State.isRoot (s : State) : Bool := s.chip = s.obj 0x2706 0

/-- The counter stepped by `-off` ns (R217): the quires' counts end as at a line boundary (R212), and the offsets measured before the
step are spent. -/
def State.stepTime (s : State) (off : Frac) : State :=
  let c : Int := s.time.clock - (off.mulInt (2 ^ 32)).floor
  let s := s.endCounts
  let clock := c.toNat
  let t := clock / 2 ^ 32
  let root := s.isRoot
  let s := { s with time := { s.time with
    clock := clock, carry := {}, lineDone := t / 24576, off := none, offA := none, stepWanted := false
    stepped := !root || s.time.stepped, ptp := { s.time.ptp with stepped := root || s.time.ptp.stepped } } }
  s.resync

/-- The module has a parent, or an anchor that it tracks, to step to (R217, R233). -/
def State.hasGuide (s : State) : Bool :=
  if s.isRoot then s.obj 0x2707 0 ≠ 0 && (s.time.ptp.status = 1 || s.time.ptp.status = 2) else s.time.parent.isSome

/-- The latest offset from the parent or the anchor that a step would remove. -/
def State.stepOffset (s : State) : Option Frac :=
  if !s.hasGuide then none else if s.isRoot then s.time.offA else s.time.off

/-- A step that is wanted is made, or refused and counted while a calendar entry is not idle (R217). Without a measured offset it waits. -/
def State.tryStep (s : State) : State :=
  match s.stepOffset with
  | none => s
  | some off => if s.calendarsIdle then s.stepTime off else s.bump 0x8045 0 1

/-- The row STEP_REQUEST, as the write of 0x4705:00 (R217, R233): the status of the write. A refused step, and one for which no offset is
measured yet, is wanted at each line boundary from then on. -/
def State.requestStep (s : State) : State × LapStatus :=
  if !s.hasGuide then (if s.calendarsIdle then (s, .ok) else (s.bump 0x8045 0 1, .state))
  else
    let s : State := { s with time := { s.time with stepWanted := true } }
    if s.calendarsIdle then (s.tryStep, .ok) else (s.bump 0x8045 0 1, .state)

/-! ### TIME blocks (R220-R224) -/

/-- A count of `bits` low bits extended to full width near `own` (R220). -/
def extendTime (bits low own : Nat) : Int :=
  (own : Int) + signed bits ((low + 2 ^ bits - own % 2 ^ bits) % 2 ^ bits)

/-- HOPS that the module sends (R223): 0 at the root, one more than its parent's below it, 0xFF without a parent. -/
def State.hopsNow (s : State) : Nat :=
  if s.time.st = 4 then 0xFF
  else if s.isRoot then 0
  else
    match s.time.parent with
    | none => 0xFF
    | some p => min 0xFF ((s.quill p).time.hops + 1)

/-- The row TIME_BLOCK_RECEIVE (R220, R222): a block failing its CRC is counted; a valid one completes an exchange when
the departure it echoes is known. `arrival` is in 1/16 ns. -/
def State.takeTimeBlock (s : State) (q : Nat) (b arrival : Nat) (crcOk : Bool) : State :=
  let x := s.quill q
  if x.link = .down || x.link = .training then s
  else if !crcOk then
    (s.updQuill q fun x => { x with time := { x.time with missed := x.time.missed + 1 } }).bump 0x6022 q 1
  else
    let p := x.time
    let seq := field b 127 120
    let gap := (seq + 255 - p.rxSeq) % 256
    let lost := if p.heard then gap - p.missed else 0
    let s := if lost = 0 then s else s.bump 0x6022 q lost
    let p' : TimePort := { p with
      heard := true, rxSeq := seq, rxAt := s.real, rxTime := arrival, missed := 0
      flags := field b 147 144, hops := field b 143 136, root := field b 161 148 }
    let p'' : TimePort :=
      match SMap.get none (p.departs.map fun e => (e.1, some e.2)) (field b 135 128) with
      | none => p'
      | some t3 =>
        if !bit b 144 then p'
        else
          let t1 := extendTime 64 (field b 63 0) arrival
          let t4 := extendTime 56 (field b 119 64) t3
          let d21 : Int := (arrival : Int) - t1
          let d43 : Int := t4 - (t3 : Int)
          let a := signed 32 (s.obj 0x6020 q)
          { p' with
            thetaSum := p'.thetaSum + (125 * (d21 - d43) - 2 * a)
            delaySum := p'.delaySum + (d21 + d43)
            count := p'.count + 1 }
    s.updQuill q fun x => { x with time := p'' }

/-- The row TIME_BLOCK_RECEIVE. -/
def execTimeBlockReceive (q : QuillId) (block : BitVec 192) (arrival : Nat) (crcOk : Bool) (s : State) : Out :=
  .next (s.takeTimeBlock q.val block.toNat arrival crcOk)

/-- A neighbour is a candidate for time parent (R223): VALID, LOCKED or ROOT, the same root, fewer than 63 hops. -/
def State.timeCandidate (s : State) (q : Nat) : Bool :=
  let x := s.quill q
  let p := x.time
  (x.link = .check || x.link = .up) && p.heard && p.missed < 4 && bit p.flags 0 && (bit p.flags 2 || bit p.flags 1) &&
    p.root = s.obj 0x2706 0 && p.hops < 63

/-- The candidate with the lowest HOPS, and of those the lowest quill (R223). -/
def State.bestParent (s : State) : Option Nat :=
  ((List.range 16).filter s.timeCandidate).foldl (fun b q =>
    match b with
    | none => some q
    | some c => if (s.quill q).time.hops < (s.quill c).time.hops then some q else some c) none

/-- Anchor status (0x2709): only the root steers by the anchor (R230). -/
def State.anchorStatus (s : State) : Nat := if s.isRoot && s.obj 0x2707 0 ≠ 0 then s.time.ptp.status else 0

/-- The parent is lost (R218, R224): the module goes to HOLDOVER with adj = integ, or stays there. -/
def State.holdTime (s : State) : State :=
  let was : Bool := s.time.st = 3
  let s : State := { s with time := { s.time with
    st := 3, parent := none, adj := s.time.integ, good := 0, off := none
    holdStart := if was then s.time.holdStart else s.now } }
  if was then s else s.bump 0x8042 0 1

/-- The parent is lost (R224): its quill is down, or four consecutive TIME blocks from it are missing or failed. -/
def State.parentLost (s : State) : Bool :=
  match s.time.parent with
  | none => false
  | some p =>
    let x := s.quill p
    x.link = .down || x.link = .training || 4 ≤ x.time.missed || x.time.rxAt + 4 * 384 < s.real

/-- The present parent is kept while it is a candidate and no other offers HOPS two lower (R223). -/
def State.keepsParent (s : State) : Bool :=
  match s.time.parent with
  | some p => s.timeCandidate p &&
      (match s.bestParent with
       | some b => (s.quill p).time.hops < (s.quill b).time.hops + 2
       | none => true)
  | none => false

/-- A parent taken (R218, R224): one taken in HOLDOVER, or in place of another, counts at 0x8041. -/
def State.takeParent (s : State) (b : Nat) : State :=
  let counts : Bool := s.time.st = 3 || s.time.parent.isSome
  let s := { s with time := { s.time with
    parent := some b
    st := if s.time.st = 0 then 1 else s.time.st
    stepped := if s.time.st = 0 then false else s.time.stepped
    good := 0, off := none } }
  if counts then s.bump 0x8041 0 1 else s

/-- The parent chosen anew (R223, R224): a lost one is let go first, by way of HOLDOVER, and a module left with no candidate goes to
HOLDOVER. -/
def State.chooseParent (s : State) : State :=
  if s.isRoot || s.time.st = 4 then s
  else
    let s := if s.parentLost then s.holdTime else s
    if s.keepsParent then s
    else
      match s.bestParent with
      | none => if s.time.parent.isSome || s.time.st = 2 then s.holdTime else s
      | some b => s.takeParent b

/-- The module enters HOLDOVER and seeks a new parent at once (R224). -/
def State.enterHoldover (s : State) : State := s.holdTime.chooseParent

/-- The module's time parent stood on quill `q`, which has gone down (R224). -/
def State.dropParent (s : State) (q : Nat) : State :=
  if s.time.parent = some q && !s.isRoot && s.time.st ≠ 4 then s.enterHoldover else s

/-- The row TIME_PARENT_LOSS (R224): the blocks of a quill that is not down and were due and have not come are counted missing. -/
def execTimeParentLoss (s : State) : Out :=
  .next (if s.parentLost && !s.isRoot && s.time.st ≠ 4 then
    match s.time.parent with
    | some p =>
      let x := s.quill p
      let late : Bool := x.link ≠ .down && x.link ≠ .training && x.time.rxAt + 4 * 384 < s.real
      let s := if late then s.bump 0x6022 p (4 - x.time.missed) else s
      (s.updQuill p fun x => { x with time := { x.time with missed := 4 } }).enterHoldover
    | none => s
  else s)

/-- The job is blotted with reason TIME_LOST, counted at 0x8046 (R224, R233). -/
def State.blotTime (s : State) : State := if s.mayBlot then (s.bump 0x8046 0 1).blot 4 else s

/-- The row HOLDOVER_LIMIT_EXPIRY (R224). -/
def execHoldoverLimitExpiry (s : State) : Out :=
  .next (if s.time.st = 3 && s.time.holdStart + s.obj 0x4700 0 * 1000 < s.now && s.planApplied then s.blotTime else s)

/-- ±6.144 ns per line. -/
def integLimit : Frac := ⟨6144, 1000⟩
/-- ±2.4576 ns per line. -/
def slewLimit : Frac := ⟨24576, 10000⟩
/-- ±0.49152 ns per line. -/
def anchorLimit : Frac := ⟨49152, 100000⟩

/-- The servo of R223 for a line whose mean offset is `theta` ns. -/
def servo (t : TimeState) (theta : Frac) : TimeState :=
  let integ := (t.integ.add (theta.neg.divNat 64)).clampTo integLimit
  let slew := (theta.neg.divNat 4).clampTo slewLimit
  { t with integ := integ, adj := integ.add slew, theta := theta, off := some theta }

/-- The time state after a line whose mean offset from the parent is `theta` (R218, R224). -/
def nextTimeState (t : TimeState) (theta : Frac) : TimeState :=
  let big : Bool := !(theta.abs.lt (Frac.ofInt 2))
  match t.st with
  | 1 =>
    let good := if theta.abs.lt ⟨1, 2⟩ then t.good + 1 else 0
    { t with good := good, st := if 16 ≤ good then 2 else 1 }
  | 2 => if big then { t with st := 1, good := 0, stepped := false } else t
  | 3 => { t with st := if big then 1 else 2, good := 0, stepped := false }
  | _ => t

/-- The mean θ of the line against the parent, if any exchange was valid. -/
def State.lineTheta (s : State) : Option Frac :=
  match s.time.parent with
  | none => none
  | some p =>
    let x := (s.quill p).time
    if x.count = 0 then none else some ⟨x.thetaSum, 4000 * x.count⟩

/-- The mean delays of the line are reported at 0x6021, and the sums start anew (R222). The first one of a full line in CHECK is kept
(10 R314). -/
def State.closeExchanges (s : State) : State :=
  (List.range 16).foldl (fun s q =>
    let p := (s.quill q).time
    let mean := p.delaySum / (2 * p.count : Nat)
    let s := if p.count = 0 then s else s.setObj 0x6021 q (unsigned 32 mean)
    s.updQuill q fun x => { x with
      time := { x.time with thetaSum := 0, delaySum := 0, count := 0 }
      check := if x.link = .check && x.check.delay.isNone && p.count ≠ 0 && x.check.since + 24576 ≤ 24576 * s.line then
          { x.check with delay := some mean }
        else x.check }) s

/-- The anchor's servo of R230. -/
def anchorServo (t : TimeState) (theta : Frac) : TimeState :=
  let i := (t.integA.add (theta.neg.divNat 262144)).clampTo anchorLimit
  { t with integA := i, adj := (i.add (theta.neg.divNat 4096)).clampTo anchorLimit, offA := some theta }

/-- A module that runs PTP reports the mean offset of the line at 0x2708 (R230). -/
def State.reportAnchor (s : State) : State :=
  let p := s.time.ptp
  if s.obj 0x2707 0 = 0 || p.count = 0 then s
  else s.setObj 0x2708 0 (unsigned 64 (p.sum / (5 * p.count : Nat)))

/-- The offset that the root steers by in this line (R230-R232): the edge of PPS_IN in mode 2, else the mean of PTP. -/
def State.anchorTheta (s : State) : Option Frac :=
  let p := s.time.ptp
  if s.obj 0x2707 0 = 2 && !p.fallen && p.edge.isSome then some (Frac.ofInt p.edgeOff)
  else if p.count = 0 then none else some ⟨signed 64 (s.obj 0x2708 0), 16⟩

/-- The root's part of a line boundary (R223, R230, R232): an anchored root steers, and steps to the anchor's time when R217 allows. -/
def State.rootLine (s : State) : State :=
  let t := s.time
  let t := if t.st = 4 then t else { t with st := 2, parent := none }
  let s := { s with time := t }
  if s.obj 0x2707 0 = 0 then
    { s with time := { t with adj := {}, ptp := { t.ptp with status := 0 } } }
  else if t.ptp.status = 3 || t.ptp.status = 0 then { s with time := { t with adj := t.integA } }
  else
    let s :=
      match s.anchorTheta with
      | none => s
      | some th => { s with time := anchorServo t th }
    if !s.time.ptp.stepped || s.time.stepWanted then s.tryStep else s

/-- A line's mean offset from the parent steers the count and moves the time state (R218, R223, R224). -/
def State.steerBy (s : State) (th : Frac) : State :=
  let lost : Bool := s.time.st = 2 && !(th.abs.lt (Frac.ofInt 2)) && s.planApplied
  let s := { s with time := nextTimeState (servo s.time th) th }
  if lost then s.blotTime else s

/-- The part of a line boundary of a module with a parent (R217, R223, R224). The servo runs in a line whose boundary steps as well. -/
def State.childLine (s : State) : State :=
  let s := s.chooseParent
  let s :=
    match s.lineTheta with
    | none => if s.time.st = 3 then { s with time := { s.time with adj := s.time.integ } } else s
    | some th => s.steerBy th
  if (s.time.st = 1 && !s.time.stepped) || s.time.stepWanted then s.tryStep else s

/-- Ruling time's part of a line boundary (R223, R224, R230). -/
def State.servoLine (s : State) : State :=
  let s := s.reportAnchor
  let s := if s.isRoot then s.rootLine else s.childLine
  let s := s.closeExchanges
  { s with time := { s.time with ptp := { s.time.ptp with sum := 0, count := 0 } } }

/-! ### PTP and PPS_IN (R228-R232) -/

/-- The port's ingress correction in 1/80 ns (R229). -/
def State.ingress (s : State) : Int := if s.obj 0x2F02 0 = 1 then 21760 else 5376
/-- The port's egress correction in 1/80 ns (R229). -/
def State.egress (s : State) : Int := if s.obj 0x2F02 0 = 1 then 5248 else 4224

/-- The first of the numbers that differ decides. -/
def lexLess : List Nat → List Nat → Bool
  | a :: as, b :: bs => a < b || (a = b && lexLess as bs)
  | _, _ => false

/-- One master is better than another by the data sets they announce (R228): those of two grandmasters compare by priority 1, class,
accuracy, variance, priority 2 and identity; of one grandmaster the nearer sender is better, and of those the lower identity (PRESUMED,
log entry 57). -/
def PtpMaster.better (a b : PtpMaster) : Bool :=
  if a.grandmaster = b.grandmaster then lexLess [a.steps, a.id] [b.steps, b.id]
  else lexLess [a.priority1, a.clockClass, a.accuracy, a.variance, a.priority2, a.grandmaster]
    [b.priority1, b.clockClass, b.accuracy, b.variance, b.priority2, b.grandmaster]

/-- The selected master: the best by the best master clock algorithm (R228). -/
def PtpState.master (p : PtpState) : Option Nat :=
  (p.masters.foldl (fun (b : Option PtpMaster) m =>
    match b with
    | none => some m
    | some c => if m.better c then some m else some c) none).map PtpMaster.id

/-- A Sync with its origin has been accepted (R230, R232): PTP is tracked, the offset joins the line's mean once the
path delay is known, and the delay is asked for anew. -/
def PtpState.accept (p : PtpState) (origin arrival : Int) (now : Nat) : PtpState :=
  let p := { p with pair := some (origin, arrival), waitSync := none, lastSync := now, status := 1
                    reqSeq := (p.reqSeq + 1) % 2 ^ 16, asked := true }
  match p.delay with
  | none => p
  | some d => { p with sum := p.sum + (arrival - origin - d), count := p.count + 1 }

/-- The port hears a frame (R228): it is of the port's domain, and with a static unicast master at 0x4703 it comes from that address. -/
def State.ptpHears (s : State) (f : PtpFrame) : Bool :=
  let master := s.blob 0x4703 0 16
  f.domain = s.obj 0x4701 0 && (master.all (· = 0) || padTo 16 f.addr = master)

/-- What a PTP frame does to the port (R228-R230, R232). The port is never a master: a Delay_Req that it receives does nothing. -/
def State.ptpMessage (s : State) (f : PtpFrame) : PtpState :=
  let p := s.time.ptp
  let mine (master : Nat) : Bool := s.ptpHears f && p.master = some master
  match f.msg with
  | .announce m => if s.ptpHears f then { p with masters := (p.masters.filter fun x => x.id ≠ m.id) ++ [m] } else p
  | .announceTimeout master => { p with masters := p.masters.filter fun x => x.id ≠ master }
  | .sync master seq origin arrival =>
    if !mine master then p
    else
      let at' := 5 * arrival - s.ingress
      match origin with
      | some o => p.accept (5 * o) at' s.real
      | none => { p with waitSync := some (master, seq, at') }
  | .followUp master seq origin =>
    if !mine master then p
    else
      match p.waitSync with
      | some w => if w.1 = master && w.2.1 = seq then p.accept (5 * origin) w.2.2 s.real else p
      | none => p
  | .delayReq _ => p
  | .delayResp master seq sent received =>
    if !mine master || !p.asked || p.reqSeq ≠ seq then p
    else
      match p.pair with
      | some (t1, t2) =>
        { p with delay := some (((t2 - t1) + (5 * received - (5 * sent + s.egress))) / 2), asked := false }
      | none => p

/-- A frame leaves the management port. -/
def State.mgmtSend (s : State) (f : MgmtFrame) : State := { s with mgmt := { s.mgmt with sent := s.mgmt.sent ++ [f] } }

/-- The port's Delay_Req (R228): multicast, or to the static unicast master of 0x4703. -/
def State.delayReq (s : State) (seq : Nat) : MgmtFrame :=
  let v6 : Bool := s.obj 0x4702 0 = 1
  let master := s.blob 0x4703 0 16
  .ptp ⟨v6, if master.all (· = 0) then [] else if v6 then master else master.take 4, s.obj 0x4701 0, .delayReq seq⟩

/-- A PTP frame taken by the port (R228, R230): PTP runs while 0x2707:00 is 1 or 2. Every accepted Sync is answered by a Delay_Req
(DESIGN CHOICE, log entry 57). -/
def State.takePtp (s : State) (f : PtpFrame) : State :=
  if s.obj 0x2707 0 = 0 then s
  else
    let p := s.ptpMessage f
    let asks : Bool := p.reqSeq ≠ s.time.ptp.reqSeq
    let s : State := { s with time := { s.time with ptp := p } }
    if asks then s.mgmtSend (s.delayReq p.reqSeq) else s

/-- The row PTP_MESSAGE_RECEIVE: a frame of the other transport is not the port's (R228). -/
def execPtpMessageReceive (f : PtpFrame) (s : State) : Out :=
  .next (if f.ipv6 = (s.obj 0x4702 0 = 1) then s.takePtp f else s)

/-- PTP is lost (R232). -/
def State.ptpLost (s : State) : Bool :=
  let p := s.time.ptp
  p.lastSync + 2000000000 ≤ s.real || p.master.isNone

/-- The anchor goes to holdover (R232): adj is held at integ_a. -/
def State.anchorHold (s : State) : State :=
  ({ s with time := { s.time with adj := s.time.integA, ptp := { s.time.ptp with status := 3 } } }).bump 0x8047 0 1

/-- The row PTP_LOSS (R232). -/
def execPtpLoss (s : State) : Out :=
  .next (if s.isRoot && s.time.ptp.status = 1 && s.ptpLost then
    if s.obj 0x2707 0 = 2 && s.time.ptp.edge.isSome && !s.time.ptp.fallen then
      { s with time := { s.time with ptp := { s.time.ptp with status := 2 } } }
    else s.anchorHold
  else s)

/-- The row PPS_MISSING (R231, R232). -/
def execPpsMissing (s : State) : Out :=
  let p := s.time.ptp
  .next (if s.isRoot && s.obj 0x2707 0 = 2 && !p.fallen && p.edgeSeen + 2000000000 ≤ s.real then
    let s := ({ s with time := { s.time with ptp := { p with fallen := true } } }).bump 0x8044 0 1
    if p.status = 2 then s.anchorHold else s
  else s)

end Sys2Proof.Machine
end

