-- ==== Sys2Proof/Machine/Tokens.lean ====
section
/-! DEFINITION. twait, signal, tbind, ktag and the arrival of remote signals (04 R122-R127; 05 R164-R167). -/

namespace Sys2Proof.Machine

/-- What dequeuing comes to: all taken, some still awaited, or a token of a KIND outside KMASK. -/
inductive Dequeued where
  | all (rest : List Nat) (last : Nat)
  | some (left : Nat)
  | wrong (rest : List Nat) (token : Nat)
deriving DecidableEq, Repr

/-- `left` tokens dequeued and checked against KMASK in order (R124). -/
def dequeue (kmask : Nat) : Nat → List Nat → Nat → Dequeued
  | 0, q, last => .all q last
  | left + 1, [], _ => .some (left + 1)
  | left + 1, t :: q, _ =>
    if bit kmask (field t 25 24) then dequeue kmask left q (field t 23 0) else .wrong q t

/-- Queue `q` of a nib replaced. -/
def Nib.setQueue (x : Nib) (q : Nat) (ts : List Nat) : Nib := { x with queues := SMap.set [] x.queues q ts }

/-- twait (R124): the tokens there are dequeued; with fewer than N the wait holds issue and remembers how many are
left. Room in the queue lets what waited for it in. -/
def execTwait (n : NibId) (w : BitVec 64) (s : State) : Out :=
  let w := w.toNat
  s.issue n 0x10 w (field w 35 0 = 0) fun s =>
    let x := s.nib n
    let q := field w 53 50
    let left : Nat :=
      match x.issue.hold with
      | .tokens k _ => k
      | _ => field w 49 44 + 1
    match dequeue (field w 43 40) left (x.queue q) 0 with
    | .all rest last =>
      let x := x.setQueue q rest
      let x := if bit w 39 then x.setCt (field w 38 36) last else x
      .go ((s.setNib n x).settle n)
    | .some k =>
      let s := ((s.setNib n (x.setQueue q [])).updNib n fun x =>
        { x with issue := { x.issue with hold := .tokens k (bit w 43) } }).settle n
      .stop (if k < left then s.progress n 0 else s)
    | .wrong rest t =>
      let d := q <<< 14 + field t 25 24 <<< 12 + field t 31 29 <<< 9 + field t 28 28 <<< 8
      .stop (((s.setNib n (x.setQueue q rest)).settle n).issueFault n 0x08 none d)

/-- signal (R123). -/
def execSignal (n : NibId) (w : BitVec 64) (s : State) : Out :=
  let w := w.toNat
  let vsrc := bit w 34
  let resv := field w 9 0 = 0 && field w 53 52 ≤ 1 && (!vsrc || field w 30 10 = 0)
  s.issue n 0x11 w resv fun s =>
    let x := s.nib n
    let q := field w 38 35
    let v := if vsrc then x.ct (field w 33 31) % 2 ^ 24 else field w 33 10
    let row := field w 51 45
    let col := field w 44 39
    if field w 53 52 = 0 then
      if x.room q then .go (s.setNib n (x.enqueue q (token x.tags.gen x.tags.epoch 0 v))) else .wait .queueFull
    else if !s.inGrid row col then .fault 0x02 none 0
    else
      .go (s.inject n [⟨n, .nib (row * 64 + col), x.tags.gen, x.tags.epoch, .signal q v⟩])

/-- tbind (R125, R126). EN = 0 unbinds the doorbell, whichever queue it is bound to. -/
def execTbind (n : NibId) (w : BitVec 64) (s : State) : Out :=
  let w := w.toNat
  s.issue n 0x12 w (field w 48 0 = 0) fun s =>
    if bit w 49 then
      .go (State.ringBells 64 { s with binding := { s.binding with doorbell := some (n, field w 53 50) } })
    else .go { s with binding := { s.binding with doorbell := none } }

/-- The bits of a mask that a tag change clears. -/
def cleared (old new i : Nat) : Bool := bit old i && !bit new i

/-- New tags take effect (R165-R167): waiting packets whose generation or epoch bit is cleared are dropped, and a recv
in flight with such a stamp is cancelled. -/
def State.setTags (s : State) (n : Nat) (t : Tags) : State :=
  let x := s.nib n
  let stale (g e : Nat) : Bool := cleared x.tags.gmask t.gmask g || cleared x.tags.emask t.emask e
  let drop := x.inbox.filter fun w => stale w.pkt.gen w.pkt.epoch
  let cancel := x.slots.filter fun o => o.kind = .recv && stale o.gen o.epoch
  let s := s.setNib n { x with
    tags := t
    inbox := x.inbox.filter fun w => !stale w.pkt.gen w.pkt.epoch
    slots := x.slots.filter fun o => !(o.kind = .recv && stale o.gen o.epoch) }
  let s := if drop.isEmpty then s else s.bump 0x7016 (s.nibQuire n) drop.length
  let s := if cancel.isEmpty then s else s.bump 0x8023 0 cancel.length
  s.drainInbox n

/-- Virtual nibs `k` onward, `n` of them, that hold nothing yet take tags. -/
def fillTags (t : Tags) : Nat → Nat → SMap Nib → SMap Nib
  | 0, _, m => m
  | n + 1, k, m =>
    let r := fillTags t n (k + 1) m
    if m.any fun e => e.1 = k then r else SMap.insert k { tags := t } r

/-- The placement epoch takes effect on every nib of the module (R171): EPOCH, and EMASK of that epoch alone. -/
def State.setEpoch (s : State) (v : Nat) : State :=
  let s := s.nibs.foldl (fun s e => s.setTags e.1 { (s.nib e.1).tags with epoch := v, emask := 2 ^ v }) s
  { s with nibs := fillTags { epoch := v, emask := 2 ^ v } (64 * s.gridRows) 0 s.nibs }

/-- ktag (R127, R165-R167). -/
def execKtag (n : NibId) (w : BitVec 64) (s : State) : Out :=
  let w := w.toNat
  s.issue n 0x34 w (field w 39 0 = 0) fun s =>
    .go (s.setTags n ⟨field w 53 51, field w 50 50, field w 49 42, field w 41 40⟩)

/-- A flit of a send has left the store: a packet of its message has gone on (13 R383). -/
def State.senderMoved (s : State) (p : Packet) : State :=
  match (s.nib p.src).oldest .sender with
  | some o => if sendDest o.word = some p.dst && messageFor p.src p.dst p then s.progress p.src 3 else s
  | none => s

/-- The oldest packet from `src` reaches the local input of nib `n`, if it is of the kind `want` and no link of its route is held
(R56, R57). Where a crossing of the route leads into a quire that stretches, or the packet comes to wait and fills one, the sending
quire has held flits (R58). -/
def State.arrive (s : State) (n src : Nat) (want : PacketBody → Bool) : State :=
  match takePacket src (.nib n) s.mesh with
  | none => s
  | some (p, rest) =>
    if !want p.body || s.heldBack src (.nib n) then s
    else
      let w : Waiting := ⟨s.portOf src n, p⟩
      let hs := s.routeOf src (.nib n)
      let s := State.updNib { s with mesh := rest } n fun x => { x with inbox := x.inbox ++ [w] }
      let s := (((s.meshMoved hs).senderMoved p).heldCycles (s.slowCrossings hs)).drainInbox n
      if (s.nib n).inbox.contains w then s.heldCycles (s.fullCrossings (((s.nib n).inbox.filter fun w => w.port ≠ 5).map Waiting.pkt)) else s

/-- The row REMOTE_SIGNAL_ARRIVAL (R123, R44, R45). -/
def execRemoteSignalArrival (n : NibId) (src : NibId) (s : State) : Out :=
  .next (s.arrive n src fun b =>
    match b with
    | .signal _ _ => true
    | _ => false)

end Sys2Proof.Machine
end

