-- ==== Sys2Proof/Machine/Strokes.lean ====
section
/-! DEFINITION. Ruled traffic: what each stroke sends and what becomes of what arrives, line boundaries and pen-lifts (08
R234-R262). -/

namespace Sys2Proof.Machine

/-! ### Ruled frames (R248, R249) -/

/-- KIND of a frame: 0 DATA, 1 VOID. -/
def Frame.kind (f : Frame) : Nat := field f.hdr.toNat 255 252
/-- VREASON: 0 IDLE, 1 LATE, 2 LOST, 3 PAUSE, 4 VACANT. -/
def Frame.why (f : Frame) : Nat := field f.hdr.toNat 251 248
/-- GEN. -/
def Frame.gen (f : Frame) : Nat := field f.hdr.toNat 246 244
/-- EPOCH. -/
def Frame.epoch (f : Frame) : Nat := field f.hdr.toNat 243 243
/-- JOBTAG. -/
def Frame.tag (f : Frame) : Nat := field f.hdr.toNat 242 231
/-- LEN in bytes. -/
def Frame.len (f : Frame) : Nat := 8 * field f.hdr.toNat 196 187
/-- COMB. -/
def Frame.comb (f : Frame) : Bool := bit f.hdr.toNat 186
/-- WEXP. -/
def Frame.wexp (f : Frame) : Nat := field f.hdr.toNat 185 176
/-- INSTANCE. -/
def Frame.inst (f : Frame) : Nat := field f.trailer.toNat 127 96

/-- A frame of a header, a payload and an INSTANCE, with its CRC-64. -/
def sealFrame (hdr : Nat) (payload : List Byte) (inst : Nat) : Frame :=
  let inst := inst % 2 ^ 32
  let crc := crc64 (bytesBE 32 hdr ++ payload ++ bytesBE 8 (inst <<< 32))
  ⟨BitVec.ofNat 256 hdr, payload, BitVec.ofNat 128 (inst <<< 96 + crc)⟩

/-- The frame's CRC-64 holds, and its payload has the length its header gives. -/
def Frame.intact (f : Frame) : Bool :=
  f.payload.length = f.len &&
    crc64 (bytesBE 32 f.hdr.toNat ++ f.payload ++ bytesBE 8 (f.trailer.toNat >>> 64)) = field f.trailer.toNat 63 0

/-- A line that has not begun begins with an apply of the plan epoch: the decision for its first stroke comes before it
(R235, R240). -/
def State.planAhead (s : State) (line : Nat) : Bool := (s.epochAhead line).isSome

/-- A line that has not begun is the first in which the job's own entries run (R240, R319). -/
def State.onAhead (s : State) (line : Nat) : Bool := s.binding.fn.code = .opening && s.ownRuns line

/-- Plan line count of a line in progress or of the next one (R236, R240). -/
def State.planLineOf (s : State) (line : Nat) : Nat :=
  if s.planAhead line || s.onAhead line then 0
  else if s.time.lineDone < line && s.lines.counting && !s.lifted line then (s.lines.planLine + 1) % 2 ^ 32
  else s.lines.planLine

/-- The header fields that every frame of the module's own entries carries: job tag, chip, coordinates, OSTROKE, PLINE. -/
def State.originBits (s : State) (line primary : Nat) : Nat :=
  let xy := s.obj 0x2803 0
  s.jobTag <<< 231 + s.chip <<< 217 + (xy % 32) <<< 212 + (field xy 9 5) <<< 207 + primary <<< 197 +
    s.planLineOf line <<< 32

/-- CU of a header. -/
def cuBit (cu : Bool) : Nat := if cu then 2 ^ 247 else 0

/-- A VOID frame of an own entry (R249). -/
def State.voidFrame (s : State) (line primary : Nat) (cu : Bool) (why inst : Nat) : Frame :=
  sealFrame (2 ^ 252 + why <<< 248 + cuBit cu + s.originBits line primary) [] inst

/-- A VOID frame that a FORWARD entry sends without an input: the spec gives its origin fields and INSTANCE as those of the
frame it has not received, so they are free values (log entry 6). -/
def State.voidForeign (s : State) (line : Nat) (cu : Bool) (why : Nat) : State × Frame :=
  let f := s.free
  (s.took, sealFrame (2 ^ 252 + why <<< 248 + cuBit cu + (f % 2 ^ 46) <<< 197 + s.planLineOf line <<< 32) []
    (f / 2 ^ 46))

/-- A DATA frame from a region (R243, R245, R249, R251). -/
def State.dataFrame (s : State) (line primary : Nat) (cu : Bool) (r : Nat) (stamp : Nat × Nat) (payload : List Byte)
    (inst : Nat) : Frame :=
  let comb : Bool := regKind r = 3 || regComb r
  sealFrame (cuBit cu + (stamp.1 % 8) <<< 244 + (stamp.2 % 2) <<< 243 + s.originBits line primary +
    (payload.length / 8) <<< 187 + (if comb then 2 ^ 186 + regWexp r <<< 176 else 0) +
    (field r 63 32) <<< 96 + (field r 31 0) <<< 64) payload inst

/-! ### What a stroke sends (R235, R238, R252, R253, R256) -/

/-- A counter of a quill raised, by entry states' primary stroke. -/
def RuledPort.countSent (p : RuledPort) (pk : Nat) : RuledPort :=
  { p with sent := SMap.upd 0 p.sent pk fun c => (c + 1) % 2 ^ 32 }

/-- An entry is owed. -/
def RuledPort.isOwed (p : RuledPort) (pk : Nat) : Bool := SMap.get false p.owed pk
/-- An entry becomes owed or not. -/
def RuledPort.setOwed (p : RuledPort) (pk : Nat) (v : Bool) : RuledPort := { p with owed := SMap.set false p.owed pk v }
/-- A COMBINE entry holds an arrival. -/
def RuledPort.isHolding (p : RuledPort) (pk : Nat) : Bool := SMap.get false p.holding pk
/-- A COMBINE entry holds an arrival or not. -/
def RuledPort.setHolding (p : RuledPort) (pk : Nat) (v : Bool) : RuledPort :=
  { p with holding := SMap.set false p.holding pk v }

/-- The calendar entry of a stroke that a quill decides: where it stands, and what it names. -/
structure Turn where
  q : Nat
  stroke : Nat
  line : Nat
  st : Nat
  entry : Nat
  region : Nat
deriving DecidableEq, Repr

/-- Primary stroke of the entry. -/
def Turn.pk (t : Turn) : Nat := entPrimary t.entry t.st
/-- It is a catch-up entry. -/
def Turn.cu (t : Turn) : Bool := entCu t.entry
/-- It is a primary entry with no catch-up, or a catch-up entry: where lateness requests a pen-lift (R252, R253). -/
def Turn.lastChance (t : Turn) : Bool := entCu t.entry || !entHasCu t.entry

/-- The ruled side of a quill. -/
def State.ruled (s : State) (q : Nat) : RuledPort := (s.quill q).ruled

/-- The code of R262 for a frame; R262 gives none for VOID VACANT: it is a free value `free` (log entry 6). -/
def useCode (cu : Bool) (f : Frame) (free : Nat) : Nat :=
  if f.kind = 0 then (if cu then 3 else 1) else if f.why = 1 || f.why = 2 then 2 else if f.why = 4 then free % 4 else 0

/-- A frame leaves in the stroke: it is counted, mapped, and its copy kept where the entry has a catch-up (R256, R262). -/
def State.emit (s : State) (t : Turn) (f : Frame) : State :=
  let code := useCode t.cu f s.free
  let s := if f.kind = 1 && f.why = 4 then s.took else s
  let up : Bool := (s.quill t.q).link = .up
  let keep : Bool := up && f.kind = 0 && entHasCu t.entry && !t.cu
  let s := s.updRuled t.q fun p => { p with
    out := some f
    uses := if s.time.lineDone < t.line then p.uses else SMap.set 0 p.uses t.st code
    usesNext := if s.time.lineDone < t.line then SMap.set 0 p.usesNext t.st code else p.usesNext
    kept := if keep then SMap.set none p.kept t.pk (some ⟨t.stroke, f, false⟩) else p.kept }
  let s := if keep then s.noteOccupancy t.q else s
  if f.kind = 0 && up then
    let s := s.bump 0x6033 t.q 1
    if t.cu then s.bump 0x6035 t.q 1 else s
  else s

/-- INSTANCE of the entry's next DATA frame (R249). -/
def State.inst (s : State) (t : Turn) : Nat := if s.planAhead t.line then 0 else SMap.get 0 (s.ruled t.q).sent t.pk

/-- The states of the entry changed by `f`. A decision that comes before the apply of its copy leaves them to the apply
(R240). -/
def State.noteTurn (s : State) (t : Turn) (f : RuledPort → RuledPort) : State :=
  if s.planAhead t.line then s else s.updRuled t.q f

/-- The entry is owed; none is before the apply of its copy (R240, R253). -/
def State.owes (s : State) (t : Turn) : Bool := !s.planAhead t.line && (s.ruled t.q).isOwed t.pk

/-- The entry holds an arrival; none does before the apply of its copy (R240, R252). -/
def State.holds (s : State) (t : Turn) : Bool := !s.planAhead t.line && (s.ruled t.q).isHolding t.pk

/-- A VOID frame of an own entry leaves. -/
def State.emitVoid (s : State) (t : Turn) (why : Nat) : State := s.emit t (s.voidFrame t.line t.pk t.cu why (s.inst t))

/-- VOID LATE leaves, the entry is owed, and a pen-lift is requested where no later stroke of the line can carry the DATA
(R252, R253, R257). -/
def State.emitLate (s : State) (t : Turn) : State :=
  let s := ((s.noteTurn t fun p => p.setOwed t.pk true).bump 0x6034 t.q 1).emitVoid t 1
  if t.lastChance then (s.bump 0x8051 0 1).requestPenlift 1 else s

/-- DATA leaves from the local part of the entry's region, whose FULL marks clear (R244, R253). -/
def State.emitData (s : State) (t : Turn) (payload : List Byte) : State :=
  let p := s.ruled t.q
  let f := s.dataFrame t.line t.pk t.cu t.region (p.lastStamp (regBase t.region) (regLen t.region)) payload (s.inst t)
  let s := s.noteTurn t fun p => (p.countSent t.pk).setOwed t.pk false
  let s := (s.updRuled t.q fun p => p.depart t.region).emit t f
  s.offerEdge t.q

/-- The local part of a region. -/
def State.localPart (s : State) (t : Turn) : List Byte :=
  (s.ruled t.q).land.readBytes (regBase t.region) (regLen t.region)

/-- An ORIGINATE entry (R253). -/
def State.originate (s : State) (t : Turn) : State :=
  let p := s.ruled t.q
  if t.cu && !s.owes t then s.emitVoid t 0
  else if p.ready t.region then s.emitData t (s.localPart t)
  else s.emitLate t

/-- The input of a TX FORWARD or COMBINE entry (R238, R240, R241): the frame held for it, none where it is LOST; and
whether the line before an apply would have sent it. -/
def State.input (s : State) (t : Turn) : State × Option Frame × Bool :=
  let arr := entArr t.entry
  let q := entInq t.entry
  let i := s.firedIndex t.line
  let early : Bool := t.st < arr
  let newPlan : Bool := s.planAhead t.line && s.binding.fn.code = .on
  if early && (newPlan || s.onAhead t.line || s.lines.firstFired = some i || s.lines.firstOn = some i) then
    (s, none, true)
  else if early && i = 0 then (s, none, false)
  else
    let key := (if early then i - 1 else i) * 1024 + arr
    match SMap.get none (s.ruled q).got key with
    | none => (s, none, false)
    | some g =>
      let left := if bit g.left t.q then g.left - 2 ^ t.q else g.left
      let s := s.updRuled q fun p =>
        { p with got := SMap.set none p.got key (if left = 0 then none else some { g with left := left }) }
      let soon : Bool := (384 * (t.stroke : Int)) < g.arrival + 576
      (s, if g.lost || soon then none else some g.frame, false)

/-- A FORWARD entry (R238, R240, R256). -/
def State.forward (s : State) (t : Turn) : State :=
  let r := s.input t
  match r.2.1 with
  | some f => r.1.emit t f
  | none =>
    let v := r.1.voidForeign t.line t.cu (if r.2.2 then 0 else 2)
    v.1.emit t v.2

/-- Two payloads added element by element in the format of the region (R251, R73, R77). -/
def addElems (bytes : Nat) : Nat → List Byte → List Byte → List Byte
  | 0, _, _ => []
  | n + 1, a, b =>
    let x := Wide.decode (8 * bytes) (natLE (a.take bytes))
    let y := Wide.decode (8 * bytes) (natLE (b.take bytes))
    bytesLE bytes (Wide.encode (8 * bytes) (Wide.add (8 * bytes) x y).1) ++
      addElems bytes n (a.drop bytes) (b.drop bytes)

/-- The sum of a payload and the region's local part (R251). -/
def State.combined (s : State) (t : Turn) (input : List Byte) : List Byte :=
  let n := if regWide192 t.region then 24 else 8
  addElems n (regLen t.region / n) input (s.localPart t)

/-- An input enters the hold part (R252). -/
def State.holdInput (s : State) (t : Turn) (f : Frame) : State :=
  s.updRuled t.q fun p => (p.fill (regHold t.region) f.payload f.gen f.epoch).setHolding t.pk true

/-- The held arrival of a COMBINE region. -/
def State.heldPart (s : State) (t : Turn) : List Byte :=
  (s.ruled t.q).land.readBytes (regHold t.region) (regLen t.region)

/-- The sum of the held arrival and the local part leaves as DATA (R252). -/
def State.emitHeld (s : State) (t : Turn) : State :=
  let sum := s.combined t (s.heldPart t)
  (s.updRuled t.q fun p => p.setHolding t.pk false).emitData t sum

/-- The job is blotted by a TX entry, which then sends VACANT (R252, R391). -/
def State.blotTurn (s : State) (t : Turn) (reason : Nat) : State := (s.blot reason).emitVoid t 4

/-- A landing overrun at a hold part (R247, R252). -/
def State.overrunTurn (s : State) (t : Turn) : State := (s.bump 0x8053 0 1).blotTurn t 5

/-- An input of a COMBINE entry passes the check of R251. -/
def combineOk (r : Nat) (f : Frame) : Bool := f.comb && f.len = regLen r && f.wexp = regWexp r

/-- What a COMBINE entry's input is: a DATA frame, or the VREASON of a VOID one (R251, R252). -/
def State.combineInput (s : State) (t : Turn) : State × Option Frame × Nat :=
  let r := s.input t
  match r.2.1 with
  | none => (r.1, none, if r.2.2 then 0 else 2)
  | some f =>
    if f.kind ≠ 0 then (r.1, none, f.why)
    else if combineOk t.region f then (r.1, some f, 0)
    else (r.1.bump 0x6037 t.q 1, none, 2)

/-- A COMBINE entry at its primary stroke (R252): `inp` is its DATA input, `why` the VREASON without one. -/
def State.combinePrimary (s : State) (t : Turn) (inp : Option Frame) (why : Nat) : State :=
  let p := s.ruled t.q
  let ready := p.ready t.region
  if inp.isNone && why = 2 && !entHasCu t.entry then s.blotTurn t 6
  else if s.holds t then
    match ready, inp with
    | true, some f => ((s.emitHeld t).holdInput t f).updRuled t.q fun p => p.setOwed t.pk true
    | true, none => s.emitHeld t
    | false, some _ => s.overrunTurn t
    | false, none => s.emitLate t
  else
    match inp with
    | some f => if ready then s.emitData t (s.combined t f.payload) else (s.holdInput t f).emitLate t
    | none => if why = 0 then s.emitVoid t 0 else s.emitLate t

/-- A COMBINE entry at its catch-up stroke (R252). -/
def State.combineCatchUp (s : State) (t : Turn) (inp : Option Frame) (why : Nat) : State :=
  let p := s.ruled t.q
  let ready := p.ready t.region
  let stray (s : State) : State := if inp.isSome then s.bump 0x8054 0 1 else s
  if !s.owes t then (stray s).emitVoid t 0
  else if s.holds t then
    if ready then (stray s).emitHeld t
    else if inp.isSome then s.overrunTurn t
    else s.emitLate t
  else
    match inp with
    | some f => if ready then s.emitData t (s.combined t f.payload) else (s.holdInput t f).emitLate t
    | none => if why = 1 then s.emitLate t else s.blotTurn t 6

/-- A COMBINE entry (R251, R252). -/
def State.combine (s : State) (t : Turn) : State :=
  let r := s.combineInput t
  if r.2.1.isNone && (r.2.2 = 3 || r.2.2 = 4) then r.1.blotTurn t 6
  else if t.cu then r.1.combineCatchUp t r.2.1 r.2.2
  else r.1.combinePrimary t r.2.1 r.2.2

/-- The kept copy that a report marked lost, for a catch-up entry (R256). An own entry of a job that does not run sends VACANT in its place
(R319). -/
def State.keptLost (s : State) (t : Turn) : Option Frame :=
  if !t.cu || (entOp t.entry ≠ 2 && !s.ownRuns t.line) then none
  else
    match SMap.get none (s.ruled t.q).kept t.pk with
    | some k => if k.lost then some k.frame else none
    | none => none

/-- The stroke's own entry acts (R20, R238, R319). -/
def State.actTurn (s : State) (t : Turn) : State :=
  match entOp t.entry with
  | 1 => if s.ownRuns t.line then s.originate t else s.emitVoid t 4
  | 2 => s.forward t
  | 4 => if s.ownRuns t.line then s.combine t else s.emitVoid t 4
  | _ => s.emitVoid t 0

/-- VOID PAUSE leaves in a line that a pen-lift names (R249, R259): a FORWARD entry's names the origin of a frame it has not received. -/
def State.emitPause (s : State) (t : Turn) : State :=
  if entOp t.entry = 2 then
    let v := s.voidForeign t.line t.cu 3
    v.1.emit t v.2
  else s.emitVoid t 3

/-- The row STROKE_DECISION (R235, R236, R256, R259): the latest stroke whose decision instant has come, if it is not decided
yet. -/
def State.decideStroke (s : State) (q : Nat) : State :=
  let d := (s.now + 16) / 24
  if d ≤ (s.ruled q).decided then s
  else
    let line := d / 1024
    let st := d % 1024
    let plan := (s.quill q).plan (s.planOf line)
    let e := SMap.get 0 plan.tx st
    let t : Turn := ⟨q, d, line, st, e, SMap.get 0 plan.bufs (entBuf e)⟩
    let s := s.updRuled q fun p => { p with decided := d, outBefore := p.out.map fun f => (p.decided, f) }
    if s.lifted line then s.emitPause t
    else
      let s :=
        match s.keptLost t with
        | some f => (s.bump 0x603B q 1).emit t (sealFrame (setField f.hdr.toNat 247 247 1) f.payload f.inst)
        | none => s.actTurn t
      if t.cu then s.updRuled q fun p => { p with kept := SMap.set none p.kept t.pk none } else s

/-- The row STROKE_DECISION. -/
def execStrokeDecision (q : QuillId) (s : State) : Out := .next (s.decideStroke q.val)

/-! ### What becomes of a frame (R242, R246, R247, R250, R254) -/

/-- The module's coordinates and job tag are among a frame's destinations (R250). -/
def State.addressed (s : State) (f : Frame) : Bool :=
  let xy := s.obj 0x2803 0
  bit f.hdr.toNat (96 + xy % 32) && bit f.hdr.toNat (64 + field xy 9 5) && f.tag = s.jobTag

/-- An RX entry awaits a catch-up or a later line, or not. -/
def State.setAwait (s : State) (q pk : Nat) (v : Bool) : State :=
  s.updRuled q fun p => { p with awaiting := SMap.set false p.awaiting pk v }

/-- A DATA frame reaches a TERMINATE or REPLICATE entry (R246, R247, R254, R255). -/
def State.landData (s : State) (q pk : Nat) (cu : Bool) (r : Nat) (f : Frame) : State :=
  let p := s.ruled q
  let payload := f.payload.take (regLen r)
  if cu && !SMap.get false p.awaiting pk then s.bump 0x8054 0 1
  else if f.inst ≠ SMap.get 0 p.expect pk then s.blot 6
  else if (wordsOf (regBase r) (regLen r)).any p.isLanded then (s.bump 0x8053 0 1).blot 5
  else
    let s := s.updRuled q fun p => (p.fill (regBase r) payload f.gen f.epoch).setLanded (regBase r) payload.length
    (s.setAwait q pk false).updRuled q fun p =>
      { p with expect := SMap.upd 0 p.expect pk fun c => (c + 1) % 2 ^ 32 }

/-- A VOID frame reaches a TERMINATE or REPLICATE entry (R254). -/
def State.landVoid (s : State) (q pk : Nat) (cu hascu : Bool) (why : Nat) : State :=
  let awaits := SMap.get false (s.ruled q).awaiting pk
  if why = 3 || why = 4 then s.blot 6
  else if cu then
    if !awaits then s
    else if why = 1 then s.setAwait q pk false
    else s.blot 6
  else
    match why with
    | 0 => s.setAwait q pk false
    | 1 => s.setAwait q pk true
    | _ => if hascu then s.setAwait q pk true else s.blot 6

/-- The states of the copy in force and those of the copy before it change places. -/
def RuledPort.swapOld (p : RuledPort) : RuledPort :=
  { p with awaiting := p.awaitOld, awaitOld := p.awaiting, expect := p.expectOld, expectOld := p.expect }

/-- A frame, or none for VOID LOST, is taken by a landing entry under the states in place. -/
def State.landNow (s : State) (q st e r : Nat) (f : Option Frame) : State :=
  match f with
  | none => s.landVoid q (entPrimary e st) (entCu e) (entHasCu e) 2
  | some f =>
    if f.kind = 0 then s.landData q (entPrimary e st) (entCu e) r f
    else s.landVoid q (entPrimary e st) (entCu e) (entHasCu e) f.why

/-- A frame, or none for VOID LOST, reaches a landing entry of the job (R254): without a running job nothing lands (R20,
R319), and a frame that left before the latest apply meets the states of the copy then in force (R240). -/
def State.land (s : State) (q st e r line : Nat) (f : Option Frame) : State :=
  if !s.ownRuns line then s
  else if line < s.lines.applyLine then
    ((s.updRuled q RuledPort.swapOld).landNow q st e r f).updRuled q RuledPort.swapOld
  else s.landNow q st e r f

/-- The frame is held for the TX entries of an OMASK (R238). One that left before the latest apply is carried by no entry of
the copy in force: it is discarded as stray (R240). -/
def State.hold (s : State) (q st e line : Nat) (f : Option Frame) (arrival : Int) : State :=
  if line < s.lines.applyLine then
    match f with
    | some _ => s.bump 0x8054 0 1
    | none => s
  else if entOmask e = 0 then s
  else
    let key := s.firedIndex line * 1024 + st
    let g : RxInput := ⟨f.getD ⟨0, [], 0⟩, f.isNone, arrival, entOmask e⟩
    s.updRuled q fun p => { p with got := SMap.set none p.got key (some g) }

/-- What a landing entry makes of a frame: one whose masks or job tag do not name the module is refused and handled as LOST
(R250). -/
def State.screen (s : State) (q line : Nat) (f : Option Frame) : State × Option Frame :=
  match f with
  | some g => if g.kind = 0 && s.ownRuns line && !s.addressed g then (s.bump 0x6037 q 1, none) else (s, f)
  | none => (s, none)

/-- The outcome of a stroke joins the report of R280. -/
def State.report (s : State) (q : Nat) (lost : Bool) : State :=
  s.updRuled q fun p => { p with rlost := p.rlost * 2 % 256 + (if lost then 1 else 0) }

/-- The neighbour's stroke `a`, counted from ruling time 0, is handled by its RX entry: an intact frame, or none for LOST
(R238, R242, R259). -/
def State.receiveStroke (s : State) (q a : Nat) (f : Option Frame) (arrival : Int) : State :=
  let line := a / 1024
  let st := a % 1024
  let plan := (s.quill q).plan (s.planOf line)
  let e := SMap.get 0 plan.rx st
  let s := s.updRuled q fun p => { p with rxDone := a }
  if s.lifted line then s.report q (f.isNone && entOp e ≠ 0)
  else
    match entOp e with
    | 2 => (s.hold q st e line f arrival).report q f.isNone
    | 3 =>
      let r := s.screen q line f
      (r.1.land q st e (SMap.get 0 plan.bufs (entBuf e)) line r.2).report q r.2.isNone
    | 5 =>
      -- a frame of another job's circuit is in transit: it goes on as it is and lands nothing (R250, R317)
      if f.any fun g => g.tag ≠ s.jobTag then (s.hold q st e line f arrival).report q false
      else
      let r := s.screen q line f
      ((r.1.hold q st e line r.2 arrival).land q st e (SMap.get 0 plan.bufs (entBuf e)) line r.2).report q r.2.isNone
    | _ =>
      let idle : Bool := (f.map fun f => f.kind = 1 && f.why = 0).getD true
      (if idle then s else s.bump 0x6037 q 1).report q false

/-- A stroke is handled as LOST: no frame, or none that is intact (R242). -/
def State.loseStroke (s : State) (q a : Nat) : State :=
  (s.bump 0x6036 q 1).receiveStroke q a none (384 * (a : Int) + signed 32 (s.obj 0x6021 q))

/-- The strokes between the latest handled one and `a` brought no frame. -/
def State.loseUpTo (s : State) (q a : Nat) : State :=
  (List.range (a - (s.ruled q).rxDone - 1)).foldl (fun s _ => s.loseStroke q ((s.ruled q).rxDone + 1)) s

/-- The arrival offset is recorded (R242, R263). -/
def State.noteOffset (s : State) (q : Nat) (off : Int) : State :=
  let seen := (s.ruled q).offSeen
  let s := s.updRuled q fun p => { p with offSeen := true }
  let s := if !seen || signed 32 (s.obj 0x6038 q) < off then s.setObj 0x6038 q (unsigned 32 off) else s
  if !seen || off < signed 32 (s.obj 0x6039 q) then s.setObj 0x6039 q (unsigned 32 off) else s

/-- A codeword is not usable: uncorrectable, or its framing symbol is wrong (R268, R271). -/
def FecReport.lost (fec : FecReport) (k : Nat) : Bool := fec.bad.contains k || fec.framing.contains k

/-- Framing errors of stroke `stroke` join the run of consecutive strokes that have them (R268, R271). -/
def LinkPort.noteFraming (p : LinkPort) (stroke : Nat) (wrong : Bool) : LinkPort :=
  let p :=
    if p.framingAt = stroke then p
    else { p with framingAt := stroke, framingBefore := if p.framingAt + 1 = stroke then p.framing else 0, framing := 0 }
  if wrong then { p with framing := p.framingBefore + 1 } else p

/-- What the FEC reports of the codewords `lo` to `hi` of a stroke is counted (R271), and its framing errors noted (R268). A quill that is
DOWN or trains receives no stroke. -/
def State.countFec (s : State) (q stroke : Nat) (fec : FecReport) (lo hi : Nat) : State :=
  if (s.quill q).link = .down || (s.quill q).link = .training then s
  else
    let ks := (List.range (hi + 1 - lo)).map (· + lo)
    let fixed := ((fec.corrected.filter fun c => ks.contains c.1 && !fec.lost c.1).map Prod.snd).sum
    let bad := (ks.filter fec.lost).length
    let s := if fixed = 0 then s else s.bump 0x6042 q fixed
    let s := if bad = 0 then s else s.bump 0x6043 q bad
    s.updQuill q fun x => { x with port := x.port.noteFraming stroke (fec.framing.any ks.contains) }

/-- The neighbour's stroke nearest to an arrival in 1/16 ns (R242). -/
def strokeNear (dq : Int) (arrival : Nat) : Nat := (((arrival : Int) - dq + 192) / 384).toNat

/-- The stroke of the neighbour in whose window an arrival falls, and its offset from plan in 1/16 ns; none outside every
window (R242). -/
def windowOf (dq : Int) (arrival : Nat) : Option (Nat × Int) :=
  let x : Int := (arrival : Int) - dq
  let a := (x + 192) / 384
  let off := x - 384 * a
  if a < 0 || off < -96 || 96 < off then none else some (a.toNat, off)

/-- A frame carries a KIND and VREASON that R248 defines: 0 for DATA. -/
def Frame.known (f : Frame) : Bool := (f.kind = 0 && f.why = 0) || (f.kind = 1 && f.why ≤ 4)

/-- The row RX_FRAME_ARRIVAL (R242). -/
def State.frameArrives (s : State) (q arrival : Nat) (f : Frame) (fec : FecReport) : State :=
  let dq := signed 32 (s.obj 0x6021 q)
  let s := s.countFec q (strokeNear dq arrival) fec 0 12
  if (s.quill q).link ≠ .up then s
  else
    match windowOf dq arrival with
    | none => s.bump 0x8054 0 1
    | some (a, off) =>
      if a ≤ (s.ruled q).rxDone then s.bump 0x8054 0 1
      else
        let s := s.loseUpTo q a
        if (List.range 13).any fec.lost || !f.intact || !f.known then s.loseStroke q a
        else (s.noteOffset q off).receiveStroke q a (some f) arrival

/-- The row RX_FRAME_ARRIVAL. -/
def execRxFrameArrival (q : QuillId) (arrival : Nat) (f : Frame) (fec : FecReport) (s : State) : Out :=
  .next (s.frameArrives q.val arrival f fec)

/-- A control field of the neighbour is missing (R281). -/
def State.missField (s : State) (q : Nat) : State :=
  s.updQuill q fun x => { x with port := { x.port with missing := x.port.missing + 1 } }

/-- The row ARRIVAL_WINDOW_CLOSE (R242, R281): the window of the next stroke has closed with no frame. -/
def State.closeWindow (s : State) (q : Nat) : State :=
  let x := s.quill q
  let a := x.ruled.rxDone + 1
  if 16 * (s.now : Int) ≤ 384 * (a : Int) + signed 32 (s.obj 0x6021 q) + 96 then s
  else
    let idle : Bool := entOp (SMap.get 0 (x.plan (s.planOf (a / 1024))).rx (a % 1024)) = 0
    let s := if x.link = .up || !idle then s.loseStroke q a else (s.updRuled q fun p => { p with rxDone := a }).report q false
    if x.link = .up then s.missField q else s

/-- The row ARRIVAL_WINDOW_CLOSE. -/
def execArrivalWindowClose (q : QuillId) (s : State) : Out := .next (s.closeWindow q.val)

/-! ### Packets to a landing buffer (R244) -/

/-- The row QUILL_PACKET_ARRIVAL (R244): the next packet of nib `src` reaches the edge port, unless a packet that waits elsewhere holds a
link of its route (R57). What reaches it after the job's end is dropped (13 R391). -/
def State.packetToQuill (s : State) (q src : Nat) : State :=
  match takePacket src (.quill q) s.mesh with
  | none => s
  | some (p, rest) =>
    if s.heldBack src (.quill q) then s
    else
      let hs := s.routeOf src (.quill q)
      let s := ((({ s with mesh := rest } : State).meshMoved hs).senderMoved p).heldCycles (s.slowCrossings hs)
      if s.recovery.ended then s
      else
        let s := (s.updRuled q fun r => { r with edge := r.edge ++ [p] }).offerEdge q
        if (s.ruled q).edge.contains p then s.heldCycles (s.fullCrossings (s.ruled q).edge) else s

/-- The row QUILL_PACKET_ARRIVAL. -/
def execQuillPacketArrival (q : QuillId) (src : NibId) (s : State) : Out := .next (s.packetToQuill q.val src.val)

/-! ### Pen-lifts and lines (R236, R258-R260, R262) -/

/-- The row PENLIFT_BLOCK_RECEIVE (R258): a block of a line that has begun is counted, one of a line and job not yet announced
is kept and relayed. -/
def State.takePenlift (s : State) (q b : Nat) : State :=
  if (s.quill q).link ≠ .up then s
  else
    let ahead := signed 16 (field b 63 48 + 2 ^ 16 - s.line % 2 ^ 16)
    if ahead ≤ 0 then s.bump 0x8052 0 1
    else
      let a : Announced := ⟨s.line + ahead.toNat, field b 47 36, field b 35 22, field b 21 20⟩
      if s.lines.announced.any fun x => x.line = a.line && x.tag = a.tag then s
      else State.relayPenlift { s with lines := { s.lines with announced := s.lines.announced ++ [a] } } a (some q)

/-- The row PENLIFT_BLOCK_RECEIVE. -/
def execPenliftBlockReceive (q : QuillId) (block : BitVec 64) (s : State) : Out :=
  .next (s.takePenlift q.val block.toNat)

/-- The stroke-use maps of the line that ends are kept if it was fired, and new ones begun (R262). -/
def State.turnMaps (s : State) (fired : Bool) : State :=
  (List.range 16).foldl (fun s q => s.updRuled q fun p =>
    { p with uses := p.usesNext, usesNext := [], usesDone := if fired then p.uses else p.usesDone }) s

/-- The pen-lifts counted against the job in the window (R260, 0x8055). -/
def State.liftCount (s : State) : Nat :=
  (s.lines.lifts.filter fun l => s.line < l + s.obj 0x4801 0).length

/-- A pen-lift is applied to the line that begins (R259, R260). -/
def State.applyLift (s : State) (line : Nat) : State :=
  let own : Bool := s.lines.announced.any fun a => a.line = line && a.tag = s.jobTag
  let s := s.bump 0x8050 0 1
  if own then
    let kept := s.lines.lifts.filter fun l => line < l + s.obj 0x4801 0
    let s : State := { s with lines := { s.lines with lifts := kept ++ [line] } }
    if s.obj 0x4800 0 < kept.length + 1 then s.blot 3 else s
  else s

/-- The plan line count goes on in a fired line, or begins at 0 in the first one in which the binding is ON (R236,
R240). -/
def State.countPlanLine (s : State) : State :=
  if s.lines.counting then
    { s with lines := { s.lines with planLine := (s.lines.planLine + 1) % 2 ^ 32 } }
  else if s.binding.fn.code = .on && s.planApplied then
    { s with lines := { s.lines with counting := true, planLine := 0, firstOn := some s.lines.fired } }
  else s

/-- A line fires (R236). -/
def State.fireLine (s : State) : State :=
  let s : State := { s with lines := { s.lines with fired := s.lines.fired + 1 } }
  s.countPlanLine

/-- Frames that no TX entry can take any more are let go, and announcements of past lines. -/
def State.forget (s : State) (line : Nat) : State :=
  let old := (s.lines.fired - 1) * 1024
  let s := (List.range 16).foldl (fun s q => s.updRuled q fun p =>
    { p with got := p.got.filter fun e => old ≤ e.1 }) s
  { s with lines := { s.lines with announced := s.lines.announced.filter fun a => line ≤ a.line + 1 } }

/-- The row LINE_BOUNDARY (R212, R223, R236, R259, R260, R262): `cycles` are the stretched cycles of each quire since its last
report. -/
def State.beginLine (s : State) (cycles : List (QuireId × Nat)) : State :=
  let line := s.line
  if line ≤ s.time.lineDone then s
  else
    let wasFired := !s.lifted s.time.lineDone
    let s := (s.countCycles cycles).endCounts
    let s : State := { s with time := { s.time with lineDone := line } }
    let s := (s.turnMaps wasFired).servoLine
    let s := if s.lifted line then s.applyLift line else s.fireLine
    s.forget line

/-- The row LINE_BOUNDARY. -/
def execLineBoundary (cycles : List (QuireId × Nat)) (s : State) : Out := .next (s.beginLine cycles)

/-! ### Apply of a plan epoch (R240) -/

/-- Frames that circuits of the plan in force still carry through this module (R240). -/
def State.strays (s : State) : Nat :=
  ((List.range 16).map fun q => ((s.ruled q).got.filter fun e => e.2.any fun g => !g.lost).length).sum

/-- The entry states of a quill that an apply at the start of stroke `k` starts anew. What the new copy's entry of that stroke
sent, decided before the apply, stays (R235, R240). -/
def RuledPort.restart (p : RuledPort) (k : Nat) : RuledPort :=
  let first : Option Frame := if p.decided = k then p.out else none
  let data : Bool := first.any fun f => f.kind = 0
  let late : Bool := first.any fun f => f.kind = 1 && f.why = 1
  { p with
    owed := if late then [(0, true)] else [], awaiting := [], holding := []
    sent := if data then [(0, 1)] else [], expect := []
    kept := p.kept.filter (fun e => e.2.any fun c => c.stroke = k), got := [], offSeen := false
    awaitOld := p.awaiting, expectOld := p.expect }

/-- The copy `copy` takes effect at the line boundary that has begun, the one in force as well as the other (R240, R263). -/
def State.applyPlan (s : State) (copy : Nat) : State :=
  let n := s.strays
  let s := if n = 0 then s else s.bump 0x8054 0 n
  let s := (List.range 16).foldl (fun s q =>
    ((s.updRuled q fun p => p.restart (1024 * s.line)).setObj 0x6038 q 0).setObj 0x6039 q 0) s
  let before := s.planCopy
  let s := s.setObj 0x2802 0 copy
  let begun : Bool := s.time.lineDone = s.line && !s.lifted s.line
  let s : State := { s with lines := { s.lines with
    applyLine := s.line, copyBefore := before, planLine := 0, counting := false, firstOn := none
    firstFired := if s.binding.fn.code ≠ .on then none else some (if begun then s.lines.fired else s.lines.fired + 1) } }
  let s := if begun then s.countPlanLine else s
  (List.range 16).foldl (fun s q => s.offerEdge q) s

end Sys2Proof.Machine
end

