-- ==== Sys2Proof/Machine/Links.lean ====
section
/-! DEFINITION. The quills: enable functions, training and the cable plan check, control fields, link frames, replay and going
down (09 R264-R284; 10 R311-R315; 12 R376, R377). -/

namespace Sys2Proof.Machine

/-! ### The enable function of a quill (R282, R376, R377) -/

/-- A quill's function takes a new state; a change of STATE raises FUNCTION. -/
def State.setQuillFn (s : State) (q : Nat) (f : FnState) : State :=
  let old := (s.quill q).fn
  let s := s.updQuill q fun x => { x with fn := f }
  if old.code = f.code then s else s.event 0x08 0x6041 (q <<< 8 + f.byte)

/-- The link state of a quill replaced. -/
def State.setLink (s : State) (q : Nat) (l : LinkState) : State := s.updQuill q fun x => { x with link := l }

/-- A quill begins OPENING: it trains (R282). -/
def State.trainQuill (s : State) (q : Nat) (failed : Bool) : State :=
  (s.setQuillFn q { code := .opening, failed := failed }).setLink q .training

/-- A quill begins CLOSING: it sends GOING_DOWN for 16 strokes (R282). -/
def State.closeQuill (s : State) (q : Nat) : State :=
  ((s.setQuillFn q { code := .closing }).setLink q .closing).updPort q fun p => { p with farewell := 16 }

/-- An enable of a quill is received (R377). -/
def State.enableQuill (s : State) (q : Nat) : State :=
  let f := (s.quill q).fn
  match f.code with
  | .off => s.trainQuill q false
  | .opening => s.setQuillFn q { f with pending := false, failed := false }
  | .on => s.setQuillFn q { f with failed := false }
  | .closing => s.setQuillFn q { f with pending := true, failed := false }

/-- A disable of a quill is received (R377). -/
def State.disableQuill (s : State) (q : Nat) : State :=
  let f := (s.quill q).fn
  match f.code with
  | .off => s
  | .opening => s.setQuillFn q { f with pending := true }
  | .on => s.closeQuill q
  | .closing => s.setQuillFn q { f with pending := false }

/-! ### Going down (R281) -/

/-- Packets that a quill holds: received, in part received, queued to leave and in part sent. -/
def LinkPort.packets (p : LinkPort) : Nat :=
  (p.rxBuf.map fun e => e.2.length).sum + (p.asm.filter fun e => !e.2.isEmpty).length +
    (p.txq.map fun e => e.2.length).sum + (p.part.filter fun e => !e.2.isEmpty).length

/-- The link side of a quill that starts afresh at stroke `k` (R282). -/
def freshPort (k : Nat) : LinkPort := { ctlSent := k, framingAt := k }

/-- Every request whose first hop was the quill is orphaned, in order of TXID (R281, R301). -/
def State.orphanHop (s : State) (q : Nat) : State :=
  (s.margin.requests.filter fun e => e.2.any fun r => r.hop = some q && r.parked.isNone).foldl (fun s e => s.orphan e.1) s

/-- What going down does to a quill's traffic (R281): it is discarded and counted, requests whose first hop it was are orphaned (R301), and
a time parent on it is lost (07 R224). -/
def State.dropTraffic (s : State) (q : Nat) : State :=
  let x := s.quill q
  let n := x.port.packets
  let s := s.updQuill q fun x => { x with
    link := .down, port := freshPort x.port.ctlSent, check := {}, penlifts := [], blots := []
    ruled := { x.ruled with kept := [], rlost := 0 }, time := { x.time with heard := false, departs := [] } }
  let s : State := { s with margin := { s.margin with order := s.margin.order.filter fun k => k / 4 ≠ q } }
  let s := if n = 0 then s else s.bump 0x604E q n
  ((s.bump 0x6046 q 1).orphanHop q).dropParent q

/-- The function of a quill after it went down (R282, R314, R377): CLOSING with an enable pending ends in OPENING; ON or OPENING goes to OFF
and, while enabled with 0x4902, at once to OPENING. `failed` says that OPENING failed. -/
def State.afterDown (s : State) (q : Nat) (failed : Bool) : State :=
  let f := (s.quill q).fn
  let auto : Bool := s.obj 0x6041 q = 1 && s.obj 0x4902 0 = 1
  if f.code = .closing && f.pending && !auto then s.trainQuill q failed
  else
    let s := s.setQuillFn q { code := .off, failed := failed }
    let s := if failed then s.event 0x09 0x6041 (q <<< 8 + s.obj 0x6052 q) else s
    let again : Bool := if f.code = .closing then f.pending else auto
    if again && f.code ≠ .off then s.trainQuill q failed else s

/-- The link domain starts (15 R431): every enabled quill trains (R282). -/
def State.startLinks (s : State) : State :=
  (List.range 16).foldl (fun s q => if s.obj 0x6041 q = 1 then s.trainQuill q false else s) s

/-- Ruling-time stroke in progress. -/
def State.stroke (s : State) : Nat := s.now / 24

/-- The condition for a quill to be taken down holds (R281). -/
def State.downHolds (s : State) (q : Nat) (cause : DownCause) : Bool :=
  let x := s.quill q
  match cause with
  | .missingFields => 64 ≤ x.port.missing
  | .unacknowledged => x.port.unacked.any fun f => f.first + 64 ≤ s.stroke
  | .framing => 16 ≤ x.port.framing
  | .laneLock => true
  | .goingDown => x.port.farewellSeen
  | .disabled => x.link = .closing && x.port.farewell = 0

/-- The row QUILL_DOWN (R281). -/
def State.takeDown (s : State) (q : Nat) (cause : DownCause) : State :=
  if (s.quill q).link = .down || !s.downHolds q cause then s
  else
    let s := if cause = .laneLock then s.updQuill q fun x => { x with laneLock := false } else s
    (s.dropTraffic q).afterDown q false

/-- The row QUILL_DOWN. -/
def execQuillDown (q : QuillId) (cause : DownCause) (s : State) : Out := .next (s.takeDown q.val cause)

/-! ### Training and the cable plan check (R282, R311-R315) -/

/-- Strokes of a neighbour are handled from the present on. -/
def State.syncWindows (s : State) (q : Nat) : State :=
  let a : Int := (16 * (s.now : Int) - signed 32 (s.obj 0x6021 q) - 96) / 384
  s.updRuled q fun p => { p with rxDone := a.toNat, rlost := 0 }

/-- The row QUILL_TRAINING_COMPLETE (R282). -/
def State.trained (s : State) (q : Nat) : State :=
  if (s.quill q).link ≠ .training || !s.time.refOk then s
  else
    let s := s.updQuill q fun x => { x with
      link := .check, laneLock := true, check := { since := s.now }, port := freshPort (s.now / 24)
      time := { x.time with heard := false, departs := [], missed := 0 } }
    (s.setObj 0x6052 q 0).syncWindows q

/-- The row QUILL_TRAINING_COMPLETE. -/
def execQuillTrainingComplete (q : QuillId) (s : State) : Out := .next (s.trained q.val)

/-- The IDENT record that the module sends on a quill (R312). -/
def State.identOf (s : State) (q : Nat) : Nat :=
  s.chip <<< 498 + q <<< 494 + s.margin.profile <<< 492 + (s.fuses.grade % 4) <<< 490 + (s.fuses.stepping % 256) <<< 482 +
    s.obj 0x2A01 0 <<< 450 + (if s.obj 0x6052 q = 1 then 2 ^ 449 else 0) + (s.fuses.serial % 2 ^ 64) <<< 385

/-- The cable plan entry of another quill names the chip. -/
def State.plannedElsewhere (s : State) (q chip : Nat) : Bool :=
  (List.range 16).any fun k => k ≠ q && bit (s.obj 0x6050 k) 63 && field (s.obj 0x6050 k) 62 49 = chip

/-- The result of checking an IDENT (R314): the first row whose condition holds. While the mean delay over the first full line of TIME
exchanges is not known, a limit on it leaves the result PENDING (log entry 52). -/
def State.checkIdent (s : State) (q r : Nat) : Nat :=
  let p := s.obj 0x6050 q
  let chip := field r 511 498
  let quill := field r 497 494
  let nchip := field p 62 49
  let mine := quillDir s.margin.profile q
  if !bit p 63 then 7
  else if chip = s.chip then 5
  else if field r 481 450 ≠ s.obj 0x2A01 0 then 4
  else if (chip = nchip && quill ≠ field p 48 45) || (chip ≠ nchip && s.plannedElsewhere q chip) then 3
  else if chip ≠ nchip then 2
  else if quillDir (field r 493 492) quill ≠ (mine + 2) % 4 then 8
  else if field p 31 16 = 0 then 1
  else
    match (s.quill q).check.delay with
    | none => 0
    | some d => if (field p 31 16 : Int) < d then 6 else 1

/-- The quill comes UP (R282, R377): everything of the link starts afresh. With a disable pending it closes at once instead. -/
def State.bringUp (s : State) (q : Nat) : State :=
  let f := (s.quill q).fn
  let s := (s.updQuill q fun x => { x with link := .up, port := freshPort x.port.ctlSent }).syncWindows q
  if f.pending then s.closeQuill q else s.setQuillFn q { code := .on }

/-- A control field passes CCRC. -/
def controlOk (ctl : List Byte) : Bool :=
  let block := natBE (ctl.take 40)
  ctl.length = 80 && field block 31 0 = crc32 (bytesBE 40 (setField block 31 0 0) ++ ctl.drop 40)

/-- A control field and its margin slot carry an intact IDENT record (R311, R274): two flits, no link frame, CCRC and FCRC pass. -/
def identOk (ctl slot : List Byte) : Bool :=
  let b := natBE (ctl.take 40)
  controlOk ctl && !bit b 319 && field b 274 270 = 2 && 64 ≤ slot.length && field b 63 32 = crc32 (slot.take 64)

/-- An intact IDENT record is checked (R314). -/
def State.takeIdent (s : State) (q r : Nat) : State :=
  let x := s.quill q
  if x.link ≠ .check then s
  else
    let result := s.checkIdent q r
    let old := s.obj 0x6052 q
    let same := if x.check.ident = some r then x.check.same + 1 else 1
    let s := ((s.setObj 0x6052 q result).setObj 0x6053 q (field r 511 498 * 16 + field r 497 494)).setObj 0x6054 q
      (field r 448 385)
    let s := s.updQuill q fun x => { x with check := { x.check with ident := some r, same := same } }
    let s := if result ≠ old && result ≠ 1 then s.event 0x03 q result else s
    if result = 1 && 4 ≤ same && bit r 449 then s.bringUp q else s

/-- The row IDENT_RECEIVE (R311, R314): a record that is not intact is ignored. -/
def State.identArrives (s : State) (q : Nat) (ctl slot : List Byte) : State :=
  if identOk ctl slot then s.takeIdent q (natBE (slot.take 64)) else s

/-- The row IDENT_RECEIVE. -/
def execIdentReceive (q : QuillId) (ctl slot : List Byte) (s : State) : Out := .next (s.identArrives q.val ctl slot)

/-- The row CHECK_TIMEOUT (R314). -/
def State.checkExpires (s : State) (q : Nat) : State :=
  let x := s.quill q
  if x.link = .check && x.check.since + 25000000 ≤ s.now then (s.dropTraffic q).afterDown q true else s

/-- The row CHECK_TIMEOUT. -/
def execCheckTimeout (q : QuillId) (s : State) : Out := .next (s.checkExpires q.val)

/-! ### Sending a control field (R272-R279, R284) -/

/-- The next flit of a virtual channel, and whether it starts a packet (R283): a packet starts only with credits for all of
it. -/
def LinkPort.nextFlit (p : LinkPort) (vc : Nat) : Option (LinkPort × Bool × List Byte) :=
  match SMap.get [] p.part vc with
  | b :: bs =>
    let r := b :: bs
    some ({ p with part := SMap.set [] p.part vc (r.drop 32) }, false, r.take 32)
  | [] =>
    match SMap.get [] p.txq vc with
    | [] => none
    | k :: ks =>
      let need := k.length / 32
      if 128 < SMap.get 0 p.used vc + need then none
      else some ({ p with
        txq := SMap.set [] p.txq vc ks, part := SMap.set [] p.part vc (k.drop 32)
        used := SMap.upd 0 p.used vc fun c => c + need }, true, k.take 32)

/-- A flit in a margin slot. -/
structure Flit where
  vc : Nat
  sop : Bool
  bytes : List Byte
deriving DecidableEq, Repr

/-- Up to `room` flits taken from the virtual channels in the given order; the first number bounds the steps. -/
def LinkPort.gather : Nat → Nat → List Nat → LinkPort → LinkPort × List Flit
  | 0, _, _, p => (p, [])
  | fuel + 1, room, vcs, p =>
    match room, vcs with
    | room + 1, vc :: rest =>
      match p.nextFlit vc with
      | some (p', sop, b) =>
        let r := LinkPort.gather fuel room vcs p'
        (r.1, ⟨vc, sop, b⟩ :: r.2)
      | none => LinkPort.gather fuel (room + 1) rest p
    | _, _ => (p, [])

/-- A link frame made of flits. -/
def makeFrame (fseq stroke : Nat) (fs : List Flit) : LinkFrame :=
  let bits (f : Flit → Nat) (w : Nat) : Nat := (fs.mapIdx fun i x => f x <<< (w * i)).sum
  ⟨fseq, fs.length, bits (fun x => if x.sop then 1 else 0) 1, bits Flit.vc 2, fs.flatMap Flit.bytes, stroke⟩

/-- Something waits to leave on the quill. -/
def LinkPort.hasFlits (p : LinkPort) : Bool := p.txq.any (fun e => !e.2.isEmpty) || p.part.any fun e => !e.2.isEmpty

/-- The link frame of a stroke's margin slot (R275, R278, R279): a replayed one first, else a new one where the rules allow
it. Which virtual channel's flits come first is a free choice. -/
def State.slotFrame (s : State) (q stroke : Nat) : State × Option LinkFrame :=
  let p := (s.quill q).port
  match p.replay with
  | f :: fs =>
    ((s.updPort q fun p => { p with replay := fs, lastReplay := if fs.isEmpty then some stroke else p.lastReplay }).bump
      0x6044 q 1, some f)
  | [] =>
    if !p.hasFlits || 256 ≤ p.unacked.length then (s, none)
    else if 128000 < s.occupancy q + 576 then (s.bump 0x6049 q 1, none)
    else
      let k := s.free % 4
      let order := [k, (k + 1) % 4, (k + 2) % 4, (k + 3) % 4]
      let g := p.gather 22 18 order
      if g.2.isEmpty then (s, none)
      else
        let f := makeFrame p.fseq stroke g.2
        let s := s.took.updPort q fun _ => { g.1 with fseq := (p.fseq + 1) % 4096, unacked := p.unacked ++ [f] }
        (s.noteOccupancy q, some f)

/-- The credits of a channel that leave in a control field of instant `t`, and what stays (R284). -/
def takeFreed (t vc : Nat) (fs : List Freed) : Nat × List Freed :=
  let due := fs.filter fun f => f.vc = vc && f.time + 8 ≤ t
  let rest := fs.filter fun f => !(f.vc = vc && f.time + 8 ≤ t)
  let n := (due.map Freed.count).sum
  if n ≤ 255 then (n, rest) else (255, ⟨vc, n - 255, 0⟩ :: rest)

/-- The credit returns of a control field (R272 CRET). -/
def State.takeCredits (s : State) (q t : Nat) : State × Nat :=
  let a := takeFreed t 0 (s.quill q).port.freed
  let b := takeFreed t 1 a.2
  let c := takeFreed t 2 b.2
  let d := takeFreed t 3 c.2
  (s.updPort q fun p => { p with freed := d.2 }, a.1 <<< 24 + b.1 <<< 16 + c.1 <<< 8 + d.1)

/-- The TIME block of a stroke (R220, R221), whose departure is taken as 20.96 ns after the stroke boundary. -/
def State.timeBlock (s : State) (q stroke : Nat) : State × Nat :=
  let p := (s.quill q).time
  let t := s.time
  let dep := 384 * stroke + 335
  let seq := (p.seq + 1) % 256
  let anchored : Bool :=
    if s.isRoot then s.anchorStatus ≠ 0 else (t.parent.map fun k => bit (s.quill k).time.flags 3).getD false
  let flags := (if anchored then 8 else 0) + (if t.st = 2 then 4 else 0) + (if s.isRoot then 2 else 0) +
    (if t.st = 4 then 0 else 1)
  let b := (s.obj 0x2706 0 % 2 ^ 14) <<< 148 + flags <<< 144 + s.hopsNow <<< 136 + (p.rxSeq % 256) <<< 128 +
    seq <<< 120 + (p.rxTime % 2 ^ 56) <<< 64 + dep % 2 ^ 64
  (s.updQuill q fun x => { x with time := { x.time with seq := seq, departs := SMap.insert seq dep x.time.departs } }, b)

/-- The items that leave in a control field of instant `t`, at most `n`: BLOT items first, then PENLIFT items, each by its type
and word (R273). -/
def State.takeItems (s : State) (q t n : Nat) : State × List (Nat × Nat) :=
  let x := s.quill q
  let ripe (is : List Item) : List Item := is.filter fun i => i.time + 8 ≤ t
  let green (is : List Item) : List Item := is.filter fun i => !(i.time + 8 ≤ t)
  let b := (ripe x.blots).take n
  let k := (ripe x.penlifts).take (n - b.length)
  (s.updQuill q fun x => { x with
      blots := (ripe x.blots).drop n ++ green x.blots
      penlifts := (ripe x.penlifts).drop (n - b.length) ++ green x.penlifts },
    b.map (fun i => (2, i.word)) ++ k.map fun i => (1, i.word))

/-- Header and body of an auxiliary area (R273): with a TIME block it carries one item, in word 3. -/
def auxArea (time : Option Nat) (items : List (Nat × Nat)) : List Byte :=
  match time with
  | some b =>
    let i := items.headD (0, 0)
    bytesBE 8 (i.1 <<< 48 + 2 ^ 47) ++ bytesBE 24 b ++ bytesBE 8 i.2
  | none =>
    let at_ (k : Nat) : Nat × Nat := items.getD k (0, 0)
    bytesBE 8 ((at_ 0).1 <<< 60 + (at_ 1).1 <<< 56 + (at_ 2).1 <<< 52 + (at_ 3).1 <<< 48) ++
      bytesBE 8 (at_ 0).2 ++ bytesBE 8 (at_ 1).2 ++ bytesBE 8 (at_ 2).2 ++ bytesBE 8 (at_ 3).2

/-- A control field: the link control block with its CCRC, then the auxiliary area (R272, R274). -/
def sealControl (block : Nat) (aux : List Byte) : List Byte :=
  bytesBE 40 (block + crc32 (bytesBE 40 block ++ aux)) ++ aux

/-- The margin slot of a stroke and its part of the link control block: FV, FSEQ, FCNT, SOP and FVC (R272, R275, R311). -/
def State.slotOf (s : State) (q stroke : Nat) : State × Nat × List Byte :=
  match (s.quill q).link with
  | .check =>
    if stroke % 16 = 0 then (s, 2 <<< 270 + 1 <<< 252, bytesBE 64 (s.identOf q)) else (s, 0, [])
  | .up =>
    let r := s.slotFrame q stroke
    match r.2 with
    | none => (r.1, 0, [])
    | some f => (r.1.bump 0x604C q f.fcnt,
        2 ^ 319 + f.fseq <<< 307 + f.fcnt <<< 270 + f.sop <<< 252 + f.fvc <<< 216, f.flits)
  | _ => (s, 0, [])

/-- The row CONTROL_FIELD_SEND: the field of the latest stroke whose link control part has begun, if it was not sent yet
(R234, R272-R279, R282). With it the stroke's fifteen codewords are whole, and its PAM4 levels on the four lanes (R267-R270). -/
def State.sendControl (s : State) (q : Nat) : State :=
  let stroke := (s.now - 21) / 24
  let x := s.quill q
  if stroke ≤ x.port.ctlSent || x.link = .down || x.link = .training then s
  else
    let t := 24 * stroke + 20
    let up : Bool := x.link = .up
    let m := s.slotOf q stroke
    let c := m.1.takeCredits q t
    let tp : Bool := stroke % 16 = 15
    let b := if tp then c.1.timeBlock q stroke else (c.1, 0)
    let i := if up then b.1.takeItems q t (if tp then 1 else 4) else (b.1, [])
    let p := x.port
    let block := m.2.1 + (if p.anyAccepted then 2 ^ 306 else 0) + p.aseq <<< 294 + (if p.nakf then 2 ^ 293 else 0) +
      (x.ruled.rxDone % 1024) <<< 283 + x.ruled.rlost <<< 275 + c.2 <<< 184 +
      (if x.link = .closing then 1 <<< 182 else 0) + crc32 m.2.2 <<< 32
    let ctl := sealControl block (auxArea (if tp then some b.2 else none) i.2)
    let bytes := strokeBytes (x.ruled.frameOf stroke) ctl m.2.2
    i.1.updPort q fun p => { p with
      ctlSent := stroke, farewell := p.farewell - 1, ctlOut := ctl, slotOut := padTo 576 m.2.2
      lanesOut := laneLevels (strokeWords stroke bytes) }

/-- The row CONTROL_FIELD_SEND. -/
def execControlFieldSend (q : QuillId) (s : State) : Out := .next (s.sendControl q.val)

/-! ### Receiving a control field (R273, R274, R278, R280, R284) -/

/-- A report of lost frames acts on the kept copies (R280). -/
def reportKept (rstroke rlost : Nat) (m : SMap (Option Kept)) : SMap (Option Kept) :=
  let step (e : Nat × Option Kept) : Nat × Option Kept :=
    match e.2 with
    | none => e
    | some k =>
      let i := (rstroke + 1024 - k.stroke % 1024) % 1024
      if 8 ≤ i then e else if bit rlost i then (e.1, some { k with lost := true }) else (e.1, none)
  (m.map step).filter fun e => e.2.isSome

/-- Sequence number `f` is acknowledged by `a` (R277). -/
def acked (a f : Nat) : Bool := (a + 4096 - f) % 4096 < 2048

/-- What an intact link control block does to the sending side (R277, R278, R283, R284). -/
def LinkPort.takeBlock (p : LinkPort) (b : Nat) : LinkPort :=
  let av := bit b 306
  let aseq := field b 305 294
  let drop (fs : List LinkFrame) : List LinkFrame := if av then fs.filter fun f => !acked aseq f.fseq else fs
  let give (m : SMap Nat) (vc k : Nat) : SMap Nat := SMap.upd 0 m vc fun c => c - k
  let used := give (give (give (give p.used 0 (field b 215 208)) 1 (field b 207 200)) 2 (field b 199 192)) 3
    (field b 191 184)
  let nak := bit b 293
  { p with
    unacked := drop p.unacked, replay := drop p.replay, used := used
    nakRose := p.nakRose || (nak && !p.nakSeen), nakSeen := nak
    farewellSeen := p.farewellSeen || field b 183 182 = 1, missing := 0 }

/-- Items of reserved types in an auxiliary area (R273). -/
def reservedItems (aux : Nat) : Nat :=
  ([field aux 63 60, field aux 59 56, field aux 55 52, field aux 51 48].filter fun t => 2 < t).length

/-- The row CONTROL_FIELD_RECEIVE (R271, R274, R280, R281). -/
def State.takeControl (s : State) (q : Nat) (ctl : List Byte) (fec : FecReport) : State :=
  let x := s.quill q
  if x.link = .down || x.link = .training then s
  else
    let s := s.countFec q x.ruled.rxDone fec 13 13
    if fec.lost 12 || fec.lost 13 || !controlOk ctl then (s.bump 0x604B q 1).missField q
    else
      let b := natBE (ctl.take 40)
      let r := reservedItems (natBE (slice ctl 40 8))
      let s := if r = 0 then s else s.bump 0x604B q r
      s.updQuill q fun x => { x with
        port := x.port.takeBlock b
        ruled := { x.ruled with kept := reportKept (field b 292 283) (field b 282 275) x.ruled.kept } }

/-- The row CONTROL_FIELD_RECEIVE. -/
def execControlFieldReceive (q : QuillId) (ctl : List Byte) (fec : FecReport) (s : State) : Out :=
  .next (s.takeControl q.val ctl fec)

/-! ### Link frames (R275-R278) -/

/-- A link frame is discarded and NAKF set; a new episode is counted (R276). -/
def State.nakFrame (s : State) (q : Nat) : State :=
  let p := (s.quill q).port
  if p.nakf then s else (s.updPort q fun p => { p with nakf := true }).bump 0x6045 q 1

/-- One flit enters the receive buffer of its channel; the last of a packet completes it. -/
def LinkPort.takeFlit (p : LinkPort) (vc : Nat) (sop : Bool) (b : List Byte) : LinkPort :=
  let k := (if sop then [] else SMap.get [] p.asm vc) ++ b
  if k.length < 64 || k.length < 64 + 32 * ceilDiv (mPayload (packetHdr k)) 32 then { p with asm := SMap.set [] p.asm vc k }
  else { p with asm := SMap.set [] p.asm vc [], rxBuf := SMap.upd [] p.rxBuf vc fun ps => ps ++ [k] }

/-- A packet whose first flit is `b` ends at this module: its route has no hop left (R285). -/
def endsHere (b : List Byte) : Bool :=
  let h := natBE (b.take 32) <<< 256
  (nextHop (mDx h) (mDy h)).isNone

/-- A flit of the oldest packet of its channel that ends here leaves the buffer for the mesh as soon as it is decoded, and frees its credit
(R284). -/
def LinkPort.passFlit (p : LinkPort) (vc : Nat) (sop : Bool) (b : List Byte) (now : Nat) : LinkPort :=
  let first := if sop then b else SMap.get [] p.asm vc
  if (SMap.get [] p.rxBuf vc).isEmpty && endsHere first then
    { p with early := SMap.upd 0 p.early vc (· + 1), freed := p.freed ++ [⟨vc, 1, now⟩] }
  else p

/-- The flits of an accepted frame. -/
def LinkPort.takeFlits (p : LinkPort) (sop fvc : Nat) (slot : List Byte) (n now : Nat) : LinkPort :=
  (List.range n).foldl (fun p i =>
    let vc := field fvc (2 * i + 1) (2 * i)
    let b := slice slot (32 * i) 32
    (p.passFlit vc (bit sop i) b now).takeFlit vc (bit sop i) b) p

/-- Requests that end here among the packets of a receive buffer. -/
def requestsHere (ps : List (List Byte)) : Nat :=
  (ps.filter fun p => mType (packetHdr p) ≠ 1 && endsHere p).length

/-- Flits accepted on quill `q` by `f`: the requests that reach the module with them take their places in its order (R296). -/
def State.acceptFlits (s : State) (q : Nat) (f : LinkPort → LinkPort) : State :=
  let old := (s.quill q).port
  let s := s.updPort q f
  let new := (s.quill q).port
  let came := (List.range 4).flatMap fun vc =>
    List.replicate (requestsHere (SMap.get [] new.rxBuf vc) - requestsHere (SMap.get [] old.rxBuf vc)) (4 * q + vc)
  { s with margin := { s.margin with order := s.margin.order ++ came } }

/-- The row LINK_FRAME_RECEIVE (R276). -/
def State.takeFrame (s : State) (q : Nat) (ctl slot : List Byte) (fec : FecReport) : State :=
  let x := s.quill q
  let s := s.countFec q x.ruled.rxDone fec 14 14
  if x.link ≠ .up then s
  else
    if fec.lost 12 || fec.lost 13 || !controlOk ctl then s.nakFrame q
    else
      let b := natBE (ctl.take 40)
      if !bit b 319 then s
      else
        let n := field b 274 270
        let fseq := field b 318 307
        let e := x.port.expected
        if fec.lost 14 || 18 < n || field b 63 32 ≠ crc32 (slice slot 0 (32 * n)) then s.nakFrame q
        else if fseq = e then
          s.acceptFlits q fun p =>
            let p := p.takeFlits (field b 269 252) (field b 251 216) slot n s.now
            { p with
              expected := (e + 1) % 4096, anyAccepted := true, nakf := false
              fresh := p.fresh + 1, oldest := if p.fresh = 0 then s.now else p.oldest }
        else if (e + 4095 - fseq) % 4096 < 2048 then s
        else s.nakFrame q

/-- The row LINK_FRAME_RECEIVE. -/
def execLinkFrameReceive (q : QuillId) (ctl : List Byte) (slot : List Byte) (fec : FecReport) (s : State) : Out :=
  .next (s.takeFrame q.val ctl slot fec)

/-- The row ASEQ_ADVANCE (R277): after 8 accepted frames, or 96 ns after the oldest of them. -/
def State.advanceAseq (s : State) (q : Nat) : State :=
  let p := (s.quill q).port
  if 8 ≤ p.fresh || (p.fresh ≠ 0 && p.oldest + 96 ≤ s.now) then
    s.updPort q fun p => { p with aseq := (p.expected + 4095) % 4096, fresh := 0 }
  else s

/-- The row ASEQ_ADVANCE. -/
def execAseqAdvance (q : QuillId) (s : State) : Out := .next (s.advanceAseq q.val)

/-- A replay is due (R278). -/
def LinkPort.replayDue (p : LinkPort) (stroke : Nat) : Bool :=
  p.nakRose || (p.nakSeen && p.replay.isEmpty &&
    match p.lastReplay with
    | some k => k + 8 ≤ stroke
    | none => false)

/-- The row LINK_REPLAY (R278): every unacknowledged frame is sent again, in order. -/
def State.startReplay (s : State) (q : Nat) : State :=
  if (s.quill q).port.replayDue s.stroke then
    s.updPort q fun p => { p with
      replay := p.unacked, nakRose := false
      lastReplay := if p.unacked.isEmpty then some s.stroke else p.lastReplay }
  else s

/-- The row LINK_REPLAY. -/
def execLinkReplay (q : QuillId) (s : State) : Out := .next (s.startReplay q.val)

end Sys2Proof.Machine
end

