-- ==== Sys2Proof/Machine/Margin.lean ====
section
/-! DEFINITION. Margin packets in transit, at their responder and back at their requester; timers of the request store and of the
duplicate filter; the mirror engine (09 R283-R303; 10 R325-R327). -/

namespace Sys2Proof.Machine

/-! ### Receive buffers and transit (R283-R286) -/

/-- The packet that stands at the head of a receive buffer, or of the module's own loop. -/
def State.headAt (s : State) : MarginAt → Option (List Byte)
  | .quill q vc => (SMap.get [] (s.quill q.val).port.rxBuf vc.val).head?
  | .own => s.margin.own.head?

/-- The head packet leaves its buffer, which frees the credits of those of its flits that have not left before (R284). -/
def State.popAt (s : State) : MarginAt → State
  | .quill q vc => s.updPort q.val fun p =>
      let n := ((SMap.get [] p.rxBuf vc.val).head?.map fun b => b.length / 32).getD 0 - SMap.get 0 p.early vc.val
      { p with
        rxBuf := SMap.upd [] p.rxBuf vc.val List.tail
        early := SMap.set 0 p.early vc.val 0
        freed := if n = 0 then p.freed else p.freed ++ [⟨vc.val, n, s.now⟩] }
  | .own => { s with margin := { s.margin with own := s.margin.own.tail } }

/-- The name of a buffer in the order of arriving requests (R296). -/
def orderKey : MarginAt → Nat
  | .quill q vc => 4 * q.val + vc.val
  | .own => State.ownOrder

/-- No request that reached the module earlier stands in another buffer (R296). -/
def State.firstAt (s : State) (at_ : MarginAt) : Bool := s.margin.order.head?.all (· = orderKey at_)

/-- The head request leaves its buffer, and the next in order may be executed. -/
def State.popRequest (s : State) (at_ : MarginAt) : State :=
  State.popAt { s with margin := { s.margin with order := s.margin.order.erase (orderKey at_) } } at_

/-- The row MARGIN_PACKET_FORWARD (R285, R286): a packet whose route goes on leaves on an UP quill of its direction once that
quill has credits for it, or is discarded where none is UP. -/
def State.forwardPacket (s : State) (q : QuillId) (vc : VcId) : State :=
  match s.headAt (.quill q vc) with
  | none => s
  | some p =>
    let h := packetHdr p
    match nextHop (mDx h) (mDy h) with
    | none => s
    | some (dir, dx, dy) =>
      match s.hopQuill dir (mTxid h) with
      | none => (s.popAt (.quill q vc)).bump 0x8069 0 1
      | some k =>
        let turns : Bool := quillDir s.margin.profile q.val % 2 = 0 && dir % 2 = 1
        let out := s.outVc k (2 ≤ vc.val) (vc.val % 2 = 1) turns
        if s.creditsLeft k out < p.length / 32 then s
        else (s.popAt (.quill q vc)).queuePacket k out (reroute p dx dy)

/-- The row MARGIN_PACKET_FORWARD. -/
def execMarginPacketForward (q : QuillId) (vc : VcId) (s : State) : Out := .next (s.forwardPacket q vc)

/-! ### Access at the responder (R288, R292, R296) -/

/-- Bytes of a module that a request names: a nib's store, or desk memory page by page with its COH bit. -/
inductive Target where
  | nib (n a : Nat)
  | desk (pages : List (Nat × Nat × Bool))
  | refused (status : Nat)
deriving DecidableEq, Repr

/-- Status of a cause of R194 (R296). -/
def causeStatus (c : Nat) : Nat := if c = 2 then 4 else if c = 3 then 5 else 3

/-- A desk-virtual range translated page by page (R186, R296). -/
def State.deskPages : Nat → State → Nat → Nat → Bool → State × Target
  | 0, s, _, _, _ => (s, .desk [])
  | fuel + 1, s, va, len, store =>
    if len = 0 then (s, .desk [])
    else
      let n := min len (2 ^ 21 - va % 2 ^ 21)
      let r := s.translate va store
      match r.2 with
      | .cause c => (r.1, .refused (causeStatus c))
      | .ok pa coh =>
        let t := State.deskPages fuel r.1 (va + n) (len - n) store
        match t.2 with
        | .desk ps => (t.1, .desk ((pa, n, coh) :: ps))
        | x => (t.1, x)

/-- The bytes that an offset names (R288). -/
def State.target (s : State) (off len : Nat) (store : Bool) : State × Target :=
  match field off 45 44 with
  | 0 =>
    let n := field off 35 23
    let a := field off 22 0
    if field off 43 36 ≠ 0 || !s.inGrid (n / 64) (n % 64) || (len ≠ 0 && (rangeFault (a, len)).isSome) then (s, .refused 3)
    else (s, .nib n a)
  | 1 => State.deskPages 3 s (field off 43 0) len store
  | _ => (s, .refused 3)

/-- Some line of the bytes is cached by the companion in a way that this access must end first (14 R417, R419). -/
def State.targetHeld (s : State) (t : Target) (store : Bool) : Bool :=
  match t with
  | .desk ps => ps.any fun p => p.2.2 && s.linesHeld p.1 p.2.1 store
  | _ => false

/-- The companion is asked for the lines of the bytes (14 R417, R419). -/
def State.targetClaim (s : State) (t : Target) (store : Bool) : State :=
  match t with
  | .desk ps => ps.foldl (fun s p => if p.2.2 then s.claimLines p.1 p.2.1 store else s) s
  | _ => s

/-- The bytes read, and the status: 5 where uncorrectable data was met (R296, R297). -/
def State.targetRead (s : State) (t : Target) (len : Nat) : State × Nat × List Byte :=
  match t with
  | .refused st => (s, st, [])
  | .nib n a =>
    let r := s.readStores n (if len = 0 then [] else [(a, len)])
    (r.1, if r.2.isSome then 5 else 0, (r.1.nib n).mem.readBytes a len)
  | .desk ps =>
    ps.foldl (fun (x : State × Nat × List Byte) p =>
      let r := x.1.deskRead p.1 p.2.1
      (r.1, if r.2.isEmpty then x.2.1 else 5, x.2.2 ++ r.1.deskBytes p.1 p.2.1)) (s, 0, [])

/-- The merge reads of a store: the status (R36, R182, R296). -/
def State.targetMerge (s : State) (t : Target) (len : Nat) : State × Nat :=
  match t with
  | .refused st => (s, st)
  | .nib n a =>
    let r := s.mergeStores n (if len = 0 then [] else [(a, len)])
    (r.1, if r.2.isSome then 5 else 0)
  | .desk ps =>
    ps.foldl (fun (x : State × Nat) p =>
      let r := x.1.deskMerge p.1 p.2.1
      (r.1, if r.2.isEmpty then x.2 else 5)) (s, 0)

/-- Bytes stored page by page. -/
def State.putPages (s : State) : List (Nat × Nat × Bool) → List Byte → State
  | [], _ => s
  | p :: ps, bs => (s.deskPut p.1 (bs.take p.2.1)).putPages ps (bs.drop p.2.1)

/-- Bytes stored. -/
def State.targetWrite (s : State) (t : Target) (bs : List Byte) : State :=
  match t with
  | .refused _ => s
  | .nib n a => s.updNib n fun x => { x with mem := x.mem.writeBytes a bs }
  | .desk ps => s.putPages ps bs

/-- What executing a request comes to: it must wait for the companion's copy of a line, or it is done with a status and the
response's payload. -/
inductive Executed where
  | waits (s : State)
  | done (s : State) (status : Nat) (result : List Byte)
deriving DecidableEq, Repr

/-- Access to one range: refused with its status, waiting for lines, or going on. -/
def State.withTarget (s : State) (off len : Nat) (store : Bool) (k : State → Target → Executed) : Executed :=
  let r := s.target off len store
  match r.2 with
  | .refused st => .done r.1 st []
  | t =>
    let s := r.1.targetClaim t store
    if s.targetHeld t store then .waits s else k s t

/-- READ (R292). -/
def State.readReq (s : State) (off len : Nat) : Executed :=
  s.withTarget off len false fun s t =>
    let r := s.targetRead t len
    .done r.1 r.2.1 (if r.2.1 = 0 then r.2.2 else [])

/-- WRITE of bytes at an offset (R292). -/
def State.writeReq (s : State) (off : Nat) (bs : List Byte) : Executed :=
  s.withTarget off bs.length true fun s t =>
    let r := s.targetMerge t bs.length
    if r.2 ≠ 0 then .done r.1 r.2 [] else .done (r.1.targetWrite t bs) 0 []

/-- ADD64 and CAS64 (R292): `f` gives the new word of the old one. -/
def State.atomicReq (s : State) (off : Nat) (f : Nat → Nat) : Executed :=
  s.withTarget off 8 false fun s _ =>
    s.withTarget off 8 true fun s t =>
      let r := s.targetRead t 8
      if r.2.1 ≠ 0 then .done r.1 r.2.1 []
      else
        let old := natLE r.2.2
        .done (r.1.targetWrite t (bytesLE 8 (f old % 2 ^ 64))) 0 (bytesLE 8 old)

/-- APPEND (R292): the payload goes behind the tail, wrapping at the end of the ring, and the tail advances. -/
def State.appendReq (s : State) (off : Nat) (bs : List Byte) : Executed :=
  s.withTarget off 32 false fun s t =>
    let r := s.targetRead t 32
    if r.2.1 ≠ 0 then .done r.1 r.2.1 []
    else
      let word (i : Nat) : Nat := natLE (slice r.2.2 (8 * i) 8)
      let base := word 0
      let size := word 1
      let tail := word 2
      let len := 64 * ceilDiv bs.length 64
      let used := (tail + 2 ^ 64 - word 3) % 2 ^ 64
      if size < used + len then .done r.1 7 []
      else
        let at_ := if size = 0 then 0 else tail % size
        let first := min bs.length (size - at_)
        r.1.withTarget ((base + at_) % 2 ^ 46) first true fun s t1 =>
          s.withTarget (base % 2 ^ 46) (bs.length - first) true fun s t2 =>
            s.withTarget ((off + 16) % 2 ^ 46) 8 true fun s t3 =>
              let a := s.targetMerge t1 first
              let b := a.1.targetMerge t2 (bs.length - first)
              if a.2 ≠ 0 || b.2 ≠ 0 then .done b.1 (if a.2 ≠ 0 then a.2 else b.2) []
              else
                let s := (b.1.targetWrite t1 (bs.take first)).targetWrite t2 (bs.drop first)
                .done (s.targetWrite t3 (bytesLE 8 ((tail + len) % 2 ^ 64))) 0 (bytesLE 8 tail)

/-- A request's operation (R292). -/
def State.runRequest (s : State) (h : Nat) (data : List Byte) : Executed :=
  match mOp h with
  | 0 => s.readReq (mAddr h) (mLen h)
  | 1 => s.writeReq (mAddr h) data
  | 2 => s.atomicReq (mAddr h) fun w => w + mOpa h
  | 3 => s.atomicReq (mAddr h) fun w => if w = mOpa h then mOpb h else w
  | _ => s.appendReq (mAddr h) data

/-- A request is named by its source and transaction ID. -/
def requestKey (h : Nat) : Nat × Nat := (mSrc h, mTxid h)

/-- A request whose line was lost with the TXL ends with DESK_UE's status (14 R418); another one runs. -/
def State.runUnlessLost (s : State) (h : Nat) (data : List Byte) : Executed :=
  if s.margin.lost.contains (requestKey h) then .done s (causeStatus 3) [] else s.runRequest h data

/-- The request waits for a line that the companion holds (14 R417). -/
def State.noteRecall (s : State) (h : Nat) : State :=
  { s with margin := { s.margin with recalls := (s.margin.recalls.filter fun k => k ≠ requestKey h) ++ [requestKey h] } }

/-- The request waits for no line any more. -/
def State.forgetRecall (s : State) (h : Nat) : State :=
  { s with margin := { s.margin with
    recalls := s.margin.recalls.filter fun k => k ≠ requestKey h
    lost := s.margin.lost.filter fun k => k ≠ requestKey h } }

/-- The SIGNAL of NOTIFY arrives at the target nib, with the request's stamp (R296). -/
def State.notify (s : State) (h : Nat) : State :=
  if !mNotify h || field (mAddr h) 45 44 ≠ 0 then s
  else
    let n := field (mAddr h) 35 23
    let p : Packet := ⟨n, .nib n, mGen h, mEpoch h, .signal (mNq h) (mNval h)⟩
    (s.updNib n fun x => { x with inbox := x.inbox ++ [⟨5, p⟩] }).drainInbox n

/-- The response to a request (R293, R296). -/
def State.responseTo (s : State) (h status : Nat) (result : List Byte) : List Byte :=
  let neg (i : Int) : Int := if i = -32 then -32 else -i
  let r := setField (setField h 511 508 1) 503 496 status
  let r := setField (setField r 472 459 s.chip) 458 445 (mSrc h)
  sealMargin (mRoute r (neg (mOdx h)) (neg (mOdy h))) result

/-- A response can leave: its route has no hop, or no quill of its direction is UP, or the quill it takes has credits for it
(R287). -/
def State.responseFits (s : State) (p : List Byte) : Bool :=
  let h := packetHdr p
  match nextHop (mDx h) (mDy h) with
  | none => true
  | some (dir, _, _) =>
    match s.hopQuill dir (mTxid h) with
    | none => true
    | some q => p.length / 32 ≤ s.creditsLeft q (s.outVc q true false false)

/-- A response leaves; where no quill of its direction is UP it is discarded (R285). -/
def State.respond (s : State) (p : List Byte) : State :=
  let r := s.sendPacket p
  if r.2.2 then r.1 else r.1.bump 0x8069 0 1

/-- The entry of the duplicate filter for a request (R299). -/
def State.filterEntry (s : State) (h : Nat) : Option FilterEntry :=
  s.margin.filter.find? fun e => e.src = mSrc h && e.txid = mTxid h && s.now < e.time + 1000000

/-- A request that is not idempotent and was executed enters the filter; with 256 entries less than 1 ms old the oldest is
evicted (R299). -/
def State.remember (s : State) (h status : Nat) (result : List Byte) : State :=
  let live := s.margin.filter.filter fun e => s.now < e.time + 1000000
  let full : Bool := 256 ≤ live.length
  let kept := if full then live.drop 1 else live
  let s : State := { s with margin := { s.margin with
    filter := kept ++ [⟨mSrc h, mTxid h, status, result, s.now⟩] } }
  if full then s.bump 0x8068 0 1 else s

/-- The job check of a request (R296, R319, R320). -/
def State.jobOk (s : State) (h : Nat) : Bool := mSvc h || (mTag h = s.jobTag && s.binding.fn.code = .on)

/-- A response leaves and its request leaves the buffer; it waits where the response cannot leave (R287). -/
def State.answer (s : State) (at_ : MarginAt) (h status : Nat) (result : List Byte) (k : State → State) : State :=
  let p := s.responseTo h status result
  if s.responseFits p then ((k s).popRequest at_).respond p else s

/-- A request that passes the checks of R298 and names this module is answered (R296, R299). -/
def State.serve (s : State) (at_ : MarginAt) (h : Nat) (data : List Byte) : State :=
  if !s.jobOk h then s.answer at_ h 6 [] id
  else
    match if mIdemp h then none else s.filterEntry h with
    | some e => s.answer at_ h e.status e.result fun s => s.bump 0x8067 0 1
    | none =>
      -- room for the response is looked for with the longest payload the request can bring back
      let back := mPayload (setField (setField h 511 508 1) 503 496 0)
      if !s.responseFits (s.responseTo h 0 (List.replicate back 0)) then s
      else
        match s.runUnlessLost h data with
        | .waits s => s.noteRecall h
        | .done s st result =>
          let s := s.forgetRecall h
          let s := if mIdemp h then s else s.remember h st result
          let s := if st = 0 then s.notify h else s
          (s.popRequest at_).respond (s.responseTo h st result)

/-- The row MARGIN_REQUEST_EXECUTE (R291, R296, R298): requests are executed in the order in which they reached the module. -/
def State.executeRequest (s : State) (at_ : MarginAt) : State :=
  match s.headAt at_ with
  | none => s
  | some p =>
    let h := packetHdr p
    if (nextHop (mDx h) (mDy h)).isSome || mType h = 1 || !s.firstAt at_ then s
    else if !hcrcOk p then (s.popRequest at_).bump 0x8064 0 1
    else if mType h ≠ 0 || 4 < mOp h || mDst h ≠ s.chip then (s.popRequest at_).bump 0x8069 0 1
    else if !crcOk p then s.answer at_ h 9 [] fun s => s.bump 0x8064 0 1
    else s.serve at_ h (packetData p)

/-- The row MARGIN_REQUEST_EXECUTE. -/
def execMarginRequestExecute (at_ : MarginAt) (s : State) : Out := .next (s.executeRequest at_)

/-! ### Back at the requester (R297, R298, R303) -/

/-- A request is sent again at once after an end-to-end failure, or completes with E2E_FAIL after three times (R298). -/
def State.endToEnd (s : State) (i : Nat) (r : Request) : State :=
  if mE2e r.hdr < 3 then
    let r := { r with hdr := setField r.hdr 490 489 (mE2e r.hdr + 1) }
    ((s.setRequest i (some r)).bump 0x8065 0 1).launchRequest i
  else s.completeRequest i 9

/-- Response data is written at RADDR (R297), also that of a request whose stamp the nib no longer accepts: R172 drops the EVENT and says
nothing of the data (DESIGN CHOICE, log entry 46). Bytes of a word that meets an uncorrectable one are left. -/
def State.putResponse (s : State) (r : Request) (data : List Byte) : State :=
  if data.isEmpty || r.who ≠ .send then s
  else
    let n := mRnib r.hdr
    let a := mRaddr r.hdr
    let m := s.mergeStores n [(a, data.length)]
    let bad := ((m.1.nib n).ecc.filter fun e => wordIn e.1 (a, data.length)).map Prod.fst
    let cells := (data.mapIdx fun i b => (a + i, b)).filter fun c => m.2.isNone || !bad.contains (c.1 / 8 * 8)
    m.1.updNib n fun x => { x with mem := SMap.setAll 0 x.mem cells }

/-- The row MARGIN_RESPONSE_RECEIVE. -/
def State.takeResponse (s : State) (at_ : MarginAt) : State :=
  match s.headAt at_ with
  | none => s
  | some p =>
    let h := packetHdr p
    if (nextHop (mDx h) (mDy h)).isSome || mType h ≠ 1 then s
    else
      let s := s.popAt at_
      if !hcrcOk p then s.bump 0x8064 0 1
      else
        match SMap.get none s.margin.requests (mTxid h) with
        | none => s.bump 0x8066 0 1
        | some r =>
          if r.parked.isSome then s.bump 0x8066 0 1
          else if !crcOk p then (s.bump 0x8064 0 1).endToEnd (mTxid h) r
          else if mStatus h = 9 then s.endToEnd (mTxid h) r
          else
            let data := if mStatus h = 0 then packetData p else []
            (s.putResponse r data).completeRequest (mTxid h) (mStatus h)

/-- The row MARGIN_RESPONSE_RECEIVE. -/
def execMarginResponseReceive (at_ : MarginAt) (s : State) : Out := .next (s.takeResponse at_)

/-! ### Timers (R295, R299, R301, R302) -/

/-- The row REQUEST_TIMEOUT (R301): the timer has run out. -/
def State.requestExpires (s : State) (i : Nat) : State :=
  match SMap.get none s.margin.requests i with
  | none => s
  | some r =>
    if r.parked.isNone && r.sentAt + s.obj 0x4900 0 * 1000 ≤ s.now then s.orphan i else s

/-- The row REQUEST_TIMEOUT. -/
def execRequestTimeout (txid : BitVec 16) (s : State) : Out := .next (s.requestExpires txid.toNat)

/-- The row PARK_LIMIT_EXPIRY (R301). -/
def State.parkExpires (s : State) (i : Nat) : State :=
  match SMap.get none s.margin.requests i with
  | none => s
  | some r =>
    match r.parked with
    | some t => if t + s.obj 0x4901 0 * 1000 ≤ s.now then s.completeRequest i 1 else s
    | none => s

/-- The row PARK_LIMIT_EXPIRY. -/
def execParkLimitExpiry (txid : BitVec 16) (s : State) : Out := .next (s.parkExpires txid.toNat)

/-- The row FILTER_ENTRY_EXPIRY (R299). -/
def execFilterEntryExpiry (s : State) : Out :=
  .next { s with margin := { s.margin with filter := s.margin.filter.filter fun e => s.now < e.time + 1000000 } }

/-- The row TRANSACTION_ID_RELEASE (R295): an ID is free again 2 ms after its request completed. -/
def State.releaseTxid (s : State) (i : Nat) : State :=
  match SMap.get none s.margin.ended i with
  | some t =>
    if t + 2000000 ≤ s.now then { s with margin := { s.margin with ended := SMap.set none s.margin.ended i none } } else s
  | none => s

/-- The row TRANSACTION_ID_RELEASE. -/
def execTransactionIdRelease (txid : BitVec 16) (s : State) : Out := .next (s.releaseTxid txid.toNat)

/-- The mirror's route in a header (R325). -/
def State.mirrorRoute (s : State) (h : Nat) : Nat :=
  let r := s.obj 0x2A24 0
  let h := setField h 458 445 (s.obj 0x2A21 0)
  let h := setField (setField h 396 391 (field r 5 0)) 390 385 (field r 11 6)
  setField (setField h 142 137 (field r 5 0)) 136 131 (field r 11 6)

/-- A parked request is looked up afresh and sent again (R302). -/
def State.resend (s : State) (i : Nat) (r : Request) : State :=
  let h := setField r.hdr 492 491 (mRetry r.hdr + 1)
  let go (s : State) (h : Nat) : State :=
    ((s.setRequest i (some { r with hdr := h })).bump 0x8063 0 1).launchRequest i
  match r.who with
  | .send =>
    let st := s.lookup (setField h 384 339 r.rel)
    if st ≠ 0 then s.completeRequest i st else go s (s.address h r.rel)
  | _ => go s (s.mirrorRoute h)

/-- The Endpoint Table copy `copy` takes effect: every parked request is sent again, in order of TXID (R291, R302). -/
def State.applyEndpoints (s : State) (copy : Nat) : State :=
  let s := s.setObj 0x2901 0 copy
  (s.margin.requests.filter fun e => (e.2.map fun r => r.parked.isSome).getD false).foldl (fun s e =>
    match e.2 with
    | some r => s.resend e.1 r
    | none => s) s

/-! ### The mirror (10 R325-R327) -/

/-- Mirror requests outstanding (R326). -/
def State.mirrorCount (s : State) : Nat :=
  (s.margin.requests.filter fun e => e.2.any fun r => r.who ≠ .send).length

/-- A mirror request may be sent (R295, R326). -/
def State.mirrorRoom (s : State) : Bool := s.obj 0x2A20 0 = 1 && s.marginRoom && s.mirrorCount < 256

/-- A mirror WRITE is sent (R325): SVC = 1, NOTIFY = 0, no endpoint. -/
def State.sendMirror (s : State) (n ctx first : Nat) (who : Requester) (off : Nat) (data : List Byte) : State :=
  let t := s.takeTxid
  let s := t.1
  let x := s.nib n
  let h := s.mirrorRoute (1 <<< 504 + 2 ^ 494 + 2 ^ 493 + (x.tags.gen % 8) <<< 486 + (x.tags.epoch % 2) <<< 485 +
    s.jobTag <<< 473 + s.chip <<< 459 + t.2 <<< 409 + data.length <<< 397 + (off % 2 ^ 46) <<< 339 + (n % 8192) <<< 303)
  (s.enterRequest t.2 ⟨h, data, s.now, none, none, who, n, ctx, first, 0⟩).launchRequest t.2

/-- Mirror WRITEs of one position: the key entry, then the value entry, each split at 2,048 B (R325). -/
def Context.mirrorPieces (c : Context) (p : Nat) : List (Nat × Nat) :=
  let cut (e : Nat × Nat) : List (Nat × Nat) :=
    (List.range (ceilDiv e.2 2048)).map fun i => (e.1 + 2048 * i, min 2048 (e.2 - 2048 * i))
  cut (c.keyAt p) ++ cut (c.valAt p)

/-- Pieces of a commit record. -/
def Context.pieceCount (c : Context) (r : CommitRecord) : Nat := r.count * (ceilDiv c.ek 2048 + ceilDiv c.ev 2048)

/-- The row MIRROR_WRITE (R325, R326): the next piece of the first record that has one is read from the well and sent. An
uncorrectable word met there makes the context STALE (log entry 28). -/
def State.mirrorWrite (s : State) (n : Nat) : State :=
  let x := s.nib n
  if !s.mirrorRoom then s
  else
    match x.mirror.queue.findIdx? fun r => r.written < (x.ctx r.ctx).pieceCount r with
    | none => s
    | some i =>
      match x.mirror.queue[i]? with
      | none => s
      | some r =>
        let c := x.ctx r.ctx
        let per := ceilDiv c.ek 2048 + ceilDiv c.ev 2048
        let e := (c.mirrorPieces (r.first + r.written / per)).getD (r.written % per) (0, 0)
        let m := s.readStores n [e]
        match m.2 with
        | some _ => m.1.makeStale n r.ctx
        | none =>
          let s := m.1.updNib n fun x => { x with mirror := { x.mirror with
            queue := x.mirror.queue.modify i fun r => { r with written := r.written + 1 } } }
          s.sendMirror n r.ctx r.first .mirrorData (n <<< 23 + e.1) ((s.nib n).mem.readBytes e.1 e.2)

/-- The row MIRROR_WRITE. -/
def execMirrorWrite (n : NibId) (s : State) : Out := .next (s.mirrorWrite n.val)

/-- The row MIRROR_MARK (R325, R326): the first record of its context whose WRITEs all completed OK sends its mark. -/
def State.mirrorMark (s : State) (n : Nat) : State :=
  let x := s.nib n
  if !s.mirrorRoom then s
  else
    let ready (i : Nat) (r : CommitRecord) : Bool :=
      r.acked = (x.ctx r.ctx).pieceCount r && r.written = r.acked && (x.mirror.queue.take i).all fun p => p.ctx ≠ r.ctx
    match (x.mirror.queue.mapIdx fun i r => (i, ready i r)).find? fun e => e.2 with
    | none => s
    | some (i, _) =>
      match x.mirror.queue[i]? with
      | none => s
      | some r =>
        let va := s.obj 0x2A23 0 + 8 * (64 * n + r.ctx)
        let s := s.updNib n fun x => { x with mirror := { x.mirror with
          queue := x.mirror.queue.modify i fun r => { r with written := r.written + 1 } } }
        s.sendMirror n r.ctx r.first .mirrorMark (2 ^ 44 + va % 2 ^ 44) (bytesLE 8 (r.first + r.count))

/-- The row MIRROR_MARK. -/
def execMirrorMark (n : NibId) (s : State) : Out := .next (s.mirrorMark n.val)

end Sys2Proof.Machine
end

