-- ==== Sys2Proof/Machine/Reservoir.lean ====
section
/-! DEFINITION. Reservoir instructions and chunks (04 R135-R137; 06 R188-R203). -/

namespace Sys2Proof.Machine

/-- Reservoir queue `q`, oldest unretired first. -/
def Nib.resQueue (x : Nib) (q : Nat) : List Transfer := SMap.get [] x.resq q
/-- Reservoir queue `q` replaced. -/
def Nib.setResQueue (x : Nib) (q : Nat) (ts : List Transfer) : Nib := { x with resq := SMap.set [] x.resq q ts }

/-- rbase (R135). -/
def execRbase (n : NibId) (w : BitVec 64) (s : State) : Out :=
  let w := w.toNat
  s.issue n 0x28 w (field w 10 0 = 0) fun s =>
    .go (s.updNib n fun x => { x with rbase := SMap.set 0 x.rbase (field w 53 52) (field w 51 11 * 64) })

/-- Desk-virtual start address of a transfer (R136). -/
def transferVa (x : Nib) (w : Nat) : Nat :=
  let ct := if bit w 10 then x.ct (field w 9 7) else 0
  SMap.get 0 x.rbase (field w 44 43) + 64 * ((field w 42 11 + ct) % 2 ^ 32)

/-- An rfetch or rstore takes an entry of its queue (R136). -/
def State.issueTransfer (s : State) (n w : Nat) (store : Bool) : Issued :=
  let x := s.nib n
  match x.operands [(field w 53 45, !store)] with
  | .error e => badOperand e
  | .ok [t] =>
    let q := field w 44 43
    let va := transferVa x w
    if !inWell t.base then .fault 0x02 (some t.handle) (localDetail t.base)
    else if t.scaled then .fault 0x03 (some t.handle) (formatDetail (descFormat t.raw) 0 0)
    else if 2 ^ 47 < va + t.denseSize then .fault 0x02 none 0
    else if 64 ≤ (x.resQueue q).length then .wait .reservoirFull
    else .go (s.setNib n (x.setResQueue q (x.resQueue q ++ [{ word := w, va := va, tensor := t }])))
  | .ok _ => .go s

/-- rfetch (R136). -/
def execRfetch (n : NibId) (w : BitVec 64) (s : State) : Out :=
  s.issue n 0x29 w.toNat (field w.toNat 6 0 = 0) fun s => s.issueTransfer n w.toNat false

/-- rstore (R136). -/
def execRstore (n : NibId) (w : BitVec 64) (s : State) : Out :=
  s.issue n 0x2A w.toNat (field w.toNat 6 0 = 0) fun s => s.issueTransfer n w.toNat true

/-! ### Chunks (R188) -/

/-- Every chunk has completed. -/
def Transfer.complete (t : Transfer) : Bool := (List.range t.chunks).all t.done.contains
/-- The transfer ended in error. -/
def Transfer.isError (t : Transfer) : Bool :=
  match t.st with
  | .error _ => true
  | _ => false
/-- The transfer waits for a fault to be resolved (R195). -/
def Transfer.isStopped (t : Transfer) : Bool :=
  match t.st with
  | .active => false
  | .error _ => false
  | _ => true
/-- The progress mark: the first chunk not completed (R188). Of a stopped transfer with nothing in flight it is the lowest faulted chunk,
since chunks start in order (R195). -/
def Transfer.mark (t : Transfer) : Nat := ((List.range t.chunks).find? fun c => !t.done.contains c).getD t.chunks

/-- The oldest transfer of a queue may now be another: a queue whose oldest is HELD is not checked, and its sample drops (13 R383,
R384). -/
def State.queueTurned (s : State) (n q : Nat) : State :=
  match (s.nib n).resQueue q with
  | t :: _ => if t.isStopped then s.unchecked n (5 + q) else s
  | [] => s

/-- rwait (R137). -/
def execRwait (n : NibId) (w : BitVec 64) (s : State) : Out :=
  let w := w.toNat
  s.issue n 0x2B w (field w 45 0 = 0) fun s =>
    let x := s.nib n
    let q := field w 53 52
    let ts := x.resQueue q
    if ts.length ≤ field w 51 46 then .go s
    else
      match ts with
      | t :: rest =>
        if t.isError && t.flight.isEmpty then
          .stop (((s.setNib n (x.setResQueue q rest)).queueTurned n q).issueFault n 0x12 none (q <<< 16))
        else .wait .reservoir
      | [] => .go s

/-- Chunks of a queue in flight. -/
def queueFlight (ts : List Transfer) : Nat := (ts.map fun t => t.flight.length).sum

/-- The transfer whose chunk starts next: the first not wholly started, unless one before it has stopped (R189,
R195). Its position. -/
def nextStarter : Nat → List Transfer → Option Nat
  | _, [] => none
  | i, t :: ts =>
    if t.isStopped then none
    else if t.isError || t.chunks ≤ t.next then nextStarter (i + 1) ts
    else some i

/-- Chunks may start: no abort has ended the job, and a pre-emption allows it (R199, R391). -/
def State.chunksStart (s : State) : Bool :=
  !s.recovery.ended &&
    (s.desk.preempt.status ≠ 1 || (s.obj 0x4626 0 = 1 && !s.desk.preempt.drained))

/-- A transfer of a queue changed by `f`. -/
def State.updTransfer (s : State) (n q i : Nat) (f : Transfer → Transfer) : State :=
  s.updNib n fun x => x.setResQueue q ((x.resQueue q).modify i f)

/-- The row CHUNK_START (R186-R189). -/
def State.startChunk (s : State) (n q : Nat) : State :=
  let ts := (s.nib n).resQueue q
  match nextStarter 0 ts with
  | none => s
  | some i =>
    match ts[i]? with
    | none => s
    | some t =>
      if !s.chunksStart || 8 ≤ queueFlight ts then s
      else
        let c := t.next
        if t.flight.any fun k => k.idx = c then s.updTransfer n q i fun t => { t with next := c + 1 }
        else
          let r := s.translate (t.chunkVa c) t.store
          let was := if t.store then (t.wellAddrs c).map fun a => (s.nib n).mem.read a else []
          let k : Chunk :=
            match r.2 with
            | .ok pa _ => ⟨c, pa, 0, s.now, r.1.desk.tlbGen, was⟩
            | .cause e => ⟨c, 0, e, s.now, r.1.desk.tlbGen, []⟩
          let s := r.1.updTransfer n q i fun t => { t with next := c + 1, flight := t.flight ++ [k] }
          match r.2 with
          | .ok pa true => s.claimLines pa (t.chunkLen c) t.store
          | _ => s

/-- The row CHUNK_START. -/
def execChunkStart (n : NibId) (rq : RqId) (s : State) : Out := .next (s.startChunk n rq.val)

/-- Two ranges of desk bytes meet. -/
def vaMeet (a la b lb : Nat) : Bool := a < b + lb && b < a + la

/-- Chunks of a transfer that may still act: those not completed, and of one that ended in error those in flight. -/
def Transfer.acting (t : Transfer) : List Nat :=
  if t.isError then t.flight.map Chunk.idx else (List.range t.chunks).filter fun d => !t.done.contains d

/-- Desk-physical address of a chunk of a transfer: as it started, or as the page ledger places it now. -/
def State.chunkPa (s : State) (t : Transfer) (d : Nat) : Option Nat :=
  match t.flight.find? fun k => k.idx = d with
  | some k => if k.cause = 0 then some k.pa else none
  | none =>
    match (s.translate (t.chunkVa d) t.store).2 with
    | .ok pa _ => some pa
    | .cause _ => none

/-- An older transfer of a queue moves, in a chunk that may still act, some of the desk bytes of a chunk of `t`, and one of the two is a
store (R190). Bytes are the same where their desk-virtual addresses are, or where two pages share a frame. -/
def State.meets (s : State) (u t : Transfer) (k : Chunk) : Bool :=
  (u.store || t.store) && u.acting.any fun d =>
    vaMeet (u.chunkVa d) (u.chunkLen d) (t.chunkVa k.idx) (t.chunkLen k.idx) ||
      (k.cause = 0 && match s.chunkPa u d with
        | some pa => vaMeet pa (u.chunkLen d) k.pa (t.chunkLen k.idx)
        | none => false)

/-- A chunk must wait for an older one of its queue (R190). -/
def State.olderMeets (s : State) (ts : List Transfer) (i : Nat) (t : Transfer) (k : Chunk) : Bool :=
  (ts.take i).any fun u => s.meets u t k

/-- The transfer of a queue that has chunk `c` in flight: its position, itself, and the chunk. -/
def findFlight (c : Nat) : Nat → List Transfer → Option (Nat × Transfer × Chunk)
  | _, [] => none
  | i, t :: ts =>
    match t.flight.find? fun k => k.idx = c with
    | some k => some (i, t, k)
    | none => findFlight c (i + 1) ts

/-- Bytes written at a list of addresses. -/
def putBytes : List Nat → List Byte → Memory → Memory
  | a :: as, b :: bs, m => putBytes as bs (m.write a b)
  | _, _, m => m

/-- Bytes that lie in unreadable blocks replaced by `b`. -/
def blankBytes (b : Byte) (bad : List Nat) (pa : Nat) (bs : List Byte) : List Byte :=
  bs.mapIdx fun i x => if bad.contains ((pa + i) / 64) then b else x

/-- The well bytes that an rstore's chunk moves: an 8 B word written since the chunk started is old or new, a free choice (R40). -/
def State.storeBytes (s : State) (n : Nat) (addrs : List Nat) (was : List Byte) : State × List Byte :=
  let now := addrs.map fun a => (s.nib n).mem.read a
  if was = now || was.isEmpty then (s, now)
  else
    let f := s.free
    (s.took, (addrs.zip (was.zip now)).map fun e => if f.testBit (e.1 / 8) then e.2.2 else e.2.1)

/-- What becomes of a chunk when it moves its bytes: the state, and the cause of a fault, 0 for none (R177, R181,
R182, R194, R195). A store that meets an uncorrectable block in a merge read writes nothing; of a faulted rfetch chunk the bytes that
could be read are written or not, a free choice. -/
def State.moveChunk (s : State) (n : Nat) (t : Transfer) (k : Chunk) (ecc : List LinkEcc) : State × Nat :=
  let len := t.chunkLen k.idx
  let addrs := t.wellAddrs k.idx
  let rs := joinAddrs addrs
  let s := s.expectLinks k.pa ecc
  if k.cause ≠ 0 then (s, k.cause)
  else if t.store then
    let r := s.readStores n rs
    match r.2 with
    | some _ => (r.1, 4)
    | none =>
      let b := r.1.storeBytes n addrs k.was
      let m := b.1.deskMerge k.pa len
      if m.2.isEmpty then (m.1.deskPut k.pa b.2, 0) else (m.1, 3)
  else
    let r := s.deskRead k.pa len
    let m := r.1.mergeStores n rs
    let bytes := m.1.deskBytes k.pa len
    let left (b : Byte) : Memory := putBytes addrs (blankBytes b r.2 k.pa bytes) (m.1.nib n).mem
    if r.2.isEmpty && m.2.isNone then (m.1.updNib n fun x => { x with mem := left 0 }, 0)
    else (m.1.partWritten n (left 0) (left 0xFF) rs rs, if r.2.isEmpty then 4 else 3)

/-- The row CHUNK_COMPLETE (R188): acts on a chunk that completes. -/
def State.completeChunk (s : State) (n q c : Nat) (ecc : List LinkEcc) : State :=
  let ts := (s.nib n).resQueue q
  match findFlight c 0 ts with
  | none => s
  | some (i, t, k) =>
    if s.olderMeets ts i t k then s
    else if k.cause = 0 && s.linesHeld k.pa (t.chunkLen c) t.store then s.claimLines k.pa (t.chunkLen c) t.store
    else
      let r := s.moveChunk n t k ecc
      if r.2 ≠ 0 then s
      else
        let s := (r.1.updTransfer n q i fun t => { t with
          flight := t.flight.filter fun j => j.idx ≠ c
          done := if t.done.contains c then t.done else t.done ++ [c] }).progress n (5 + q)
        if s.recovery.ended then s.updNib n fun x => x.setResQueue q (endTransfers (x.resQueue q)) else s

/-- The row CHUNK_COMPLETE. -/
def execChunkComplete (n : NibId) (rq : RqId) (chunk : Nat) (ecc : List LinkEcc) (s : State) : Out :=
  .next (s.completeChunk n rq.val chunk ecc)

/-! ### Faults (R195-R198, R203) -/

/-- A transfer ends in error (R195): 0x8037 rises. -/
def State.endInError (s : State) (n q i cause : Nat) : State :=
  (s.updTransfer n q i fun t => { t with st := .error cause }).bump 0x8037 0 1

/-- A transfer stops on a faulted chunk with action HOLD: a fault entry HELD, or PREEMPTED while a pre-emption runs, or ABORT where
all entries are in use (R195, R203). -/
def State.holdTransfer (s : State) (n q i c cause : Nat) (t : Transfer) : State :=
  match s.freeEntry with
  | none => (s.bump 0x8038 0 1).endInError n q i cause
  | some e =>
    let running := s.desk.preempt.status = 1
    let x : FaultEntry :=
      { nib := s.physNib n, rq := q, cause := cause, store := t.store, pos := i, st := if running then 4 else 1,
        chunk := c, va := t.chunkVa c, time := s.now, virt := n }
    let s := ((s.setEntry e x).updTransfer n q i fun t => { t with st := .held cause e }).queueTurned n q
    s.event 0x01 (e + 1) (x.bits >>> 64)

/-- A chunk of a transfer has faulted with a cause (R195, R203, R391): the cause's action is taken. A further chunk of a stopped transfer
takes the action of its own cause: ABORT ends the transfer and frees its entry; with HOLD the entry and the progress mark go to the lower
chunk, with its cause (DESIGN CHOICE, log entry 26). -/
def State.chunkFaulted (s : State) (n q i c cause : Nat) : State :=
  let s := s.updTransfer n q i fun t => { t with flight := t.flight.filter fun j => j.idx ≠ c }
  match ((s.nib n).resQueue q)[i]? with
  | none => s
  | some t =>
    if s.recovery.ended then s.updNib n fun x => x.setResQueue q (endTransfers (x.resQueue q))
    else
      match t.st with
      | .error _ => s
      | .held _ e =>
        match SMap.get none s.desk.entries e with
        | some x =>
          if s.obj 0x4620 cause ≠ 0 then (s.setEntry e { x with st := 3 }).endInError n q i cause
          else if c < x.chunk then
            (s.setEntry e { x with chunk := c, va := t.chunkVa c, cause := cause }).updTransfer n q i fun t =>
              { t with st := .held cause e }
          else s
        | none => s
      | .active =>
        if s.obj 0x4620 cause ≠ 0 then s.endInError n q i cause else s.holdTransfer n q i c cause t

/-- The row CHUNK_FAULT (R195): acts on a chunk that faults. -/
def State.faultChunk (s : State) (n q c : Nat) (ecc : List LinkEcc) : State :=
  let ts := (s.nib n).resQueue q
  match findFlight c 0 ts with
  | none => s
  | some (i, t, k) =>
    if s.olderMeets ts i t k then s
    else if k.cause = 0 && s.linesHeld k.pa (t.chunkLen c) t.store then s.claimLines k.pa (t.chunkLen c) t.store
    else
      let r := s.moveChunk n t k ecc
      if r.2 = 0 then s else r.1.chunkFaulted n q i c r.2

/-- The row CHUNK_FAULT. -/
def execChunkFault (n : NibId) (rq : RqId) (chunk : Nat) (ecc : List LinkEcc) (s : State) : Out :=
  .next (s.faultChunk n rq.val chunk ecc)

/-- The row CHUNK_TIMEOUT (R192): a chunk started more than 20 µs ago faults DESK_UE, and 0x8032 does not rise. Time that it waits behind
a transfer held for a fault handler does not count. -/
def State.timeoutChunk (s : State) (n q c : Nat) : State :=
  let ts := (s.nib n).resQueue q
  match findFlight c 0 ts with
  | none => s
  | some (i, t, k) =>
    if (ts.take i).any fun u => u.isStopped && s.meets u t k then s
    else if k.start + 20000 < s.now then s.chunkFaulted n q i c 3
    else s

/-- The row CHUNK_TIMEOUT. -/
def execChunkTimeout (n : NibId) (rq : RqId) (chunk : Nat) (s : State) : Out := .next (s.timeoutChunk n rq.val chunk)

/-- The row TRANSFER_RETIRE (R137): the oldest transfer of a queue retires once it has completed. -/
def State.retire (s : State) (n q : Nat) : State :=
  match (s.nib n).resQueue q with
  | t :: ts =>
    if t.complete && t.flight.isEmpty && t.st = .active then
      let s := ((s.updNib n fun x => x.setResQueue q ts).progress n (5 + q)).queueTurned n q
      if (s.nib n).issue.run = .halting then s.progress n 0 else s
    else s
  | [] => s

/-- The row TRANSFER_RETIRE. -/
def execTransferRetire (n : NibId) (rq : RqId) (s : State) : Out := .next (s.retire n rq.val)

/-- The transfer a fault entry names: its position in its queue. -/
def State.entryTransfer (s : State) (e : Nat) (x : FaultEntry) : Option Nat :=
  ((s.nib x.virt).resQueue x.rq).findIdx? fun t => t.st = .held x.cause e

/-- Time since `since` that a chunk in flight waited behind a HELD transfer does not count against R192. -/
def Transfer.excuse (t : Transfer) (since now : Nat) : Transfer :=
  { t with flight := t.flight.map fun k => { k with start := k.start + (now - max since k.start) } }

/-- A HELD entry is resolved (R197, R198): 1 RESUME, 2 ABORT. RESUME restarts the transfer at its progress mark: chunks from there on,
those in flight among them, are translated and done again. -/
def State.resolve (s : State) (e action : Nat) : State :=
  match SMap.get none s.desk.entries e with
  | none => s
  | some x =>
    let s := s.setEntry e { x with st := if action = 1 then 2 else 3 }
    match s.entryTransfer e x with
    | none => s
    | some i =>
      let s := s.updNib x.virt fun y => y.setResQueue x.rq ((y.resQueue x.rq).mapIdx fun j t =>
        if i < j then t.excuse x.time s.now else t)
      if action = 1 then
        s.updTransfer x.virt x.rq i fun t => { t with
          st := .active, next := x.chunk, done := t.done.filter (· < x.chunk), flight := t.flight.filter (·.idx < x.chunk) }
      else s.endInError x.virt x.rq i x.cause

/-- The entry is HELD. -/
def State.entryHeld (s : State) (e : Nat) : Bool :=
  match SMap.get none s.desk.entries e with
  | some x => x.st = 1
  | none => false

/-- The row HOLD_LIMIT_EXPIRY (R198): an entry HELD for the limit of 0x4621:00 is aborted. -/
def State.holdExpiry (s : State) (e : Nat) : State :=
  match SMap.get none s.desk.entries e with
  | some x => if x.st = 1 && x.time + s.obj 0x4621 0 * 1000 ≤ s.now then s.resolve e 2 else s
  | none => s

/-- The row HOLD_LIMIT_EXPIRY. -/
def execHoldLimitExpiry (entry : BitVec 6) (s : State) : Out := .next (s.holdExpiry entry.toNat)

/-- A translation flush is requested (R187). -/
def State.startFlush (s : State) : State :=
  let s := s.flushTlb
  { s with desk := { s.desk with flushing := some s.desk.tlbGen } }

/-- Some chunk in flight started under a translation older than generation `g`. -/
def State.oldChunks (s : State) (g : Nat) : Bool :=
  s.nibs.any fun e => e.2.resq.any fun r => r.2.any fun t => t.flight.any fun k => k.trans < g

/-- The row TRANSLATION_FLUSH_COMPLETE (R187). -/
def State.endFlush (s : State) : State :=
  match s.desk.flushing with
  | some g => if s.oldChunks g then s else { s with desk := { s.desk with flushing := none } }
  | none => s

/-- The row TRANSLATION_FLUSH_COMPLETE. -/
def execTranslationFlushComplete (s : State) : Out := .next s.endFlush

/-! ### The desk controller (R176, R177) -/

/-- A channel's record changed by `f`. -/
def State.updChannel (s : State) (ch : Nat) (f : Channel → Channel) : State :=
  { s with desk := { s.desk with channels := SMap.upd {} s.desk.channels ch f } }

/-- The desk controller runs: the devices are not in self refresh (R176). -/
def State.deskRuns (s : State) : Bool := !s.desk.selfRefresh

/-- The row PER_BANK_REFRESH (R176): one REFpb at the rate the device's MR4 requests. `found.errors` is what has gone wrong in desk memory since
the row before (log entry 8). -/
def execPerBankRefresh (ch : Fin 128) (found : RefreshReport) (s : State) : Out :=
  .next (if s.deskRuns then
    (found.errors.foldl State.deskError s).updChannel ch.val fun c => { c with mr4 := found.mr4, refreshes := c.refreshes + 1 }
  else s)

/-- The row REFRESH_MANAGEMENT (R176): the device's request is answered. -/
def execRefreshManagement (ch : Fin 128) (s : State) : Out :=
  .next (if s.deskRuns then s.updChannel ch.val fun c => { c with rfm := c.rfm + 1 } else s)

/-- The end of the latest retraining window of a channel's package. -/
def State.packageBusy (s : State) (ch : Nat) : Nat :=
  ((s.desk.channels.filter fun e => (packageOf e.1).1 = (packageOf ch).1).map fun e => e.2.retrainEnd).foldl max 0

/-- A channel runs a retraining window of at most 1.2 µs, after those of its package's other channels (R176). -/
def State.retrain (s : State) (ch : Nat) : State :=
  s.updChannel ch fun c => { c with retrains := c.retrains + 1, retrainEnd := max s.now (s.packageBusy ch) + 1200 }

/-- The row WCK2DQ_OSCILLATOR_READ (R176): a drift over its limit runs a retraining window. -/
def execWck2dqOscillatorRead (ch : Fin 128) (overLimit : Bool) (s : State) : Out :=
  .next (if s.deskRuns && overLimit then s.retrain ch.val else s)

/-- The row WRITE_LINK_ECC_POLL (R177). -/
def execWriteLinkEccPoll (corrections : Nat) (s : State) : Out := .next (if s.deskRuns then s.bump 0x8033 0 corrections else s)

end Sys2Proof.Machine
end

