-- ==== Sys2Proof/Machine/Streams.lean ====
section
/-! DEFINITION. send and recv, their completion, and the arrival of stream packets (02 R53-R57; 04 R129-R134). -/

namespace Sys2Proof.Machine

/-- A message of `bytes` cut into packets of up to 1 KiB (R56): `at_` the offset of the first byte in the message. -/
def packets (mk : Nat → List Byte → Bool → Packet) : Nat → Nat → List Byte → List Packet
  | 0, _, _ => []
  | fuel + 1, at_, bs =>
    let last : Bool := bs.length ≤ 1024
    mk at_ (bs.take 1024) last :: (if last then [] else packets mk fuel (at_ + 1024) (bs.drop 1024))

/-- The words in error that a send's source holds, met in order: the unreadable ones read as zeros (R134). -/
def State.meetZeros (s : State) (n : Nat) : List (Nat × Nat) → State × List Nat
  | [] => (s, [])
  | (w, b) :: ws =>
    let r := s.meetWord n w b
    let t := r.1.meetZeros n ws
    (t.1, if r.2 then w :: t.2 else t.2)

/-- The bytes a send moves, its row bytes, with zero in place of each unreadable word, and the first such word (R111, R134). -/
def State.sendBytes (s : State) (n : Nat) (t : Tensor) : State × List Byte × Option Nat :=
  let r := s.meetZeros n ((s.nib n).ecc.filter fun e => t.rowRanges.any (wordIn e.1))
  let v := r.1.viewed n t.rowRanges
  (v.1, t.dense (r.2.foldl (wordAs 0) v.2), r.2.head?)

/-- The stream engine is busy with a send or a receive (R133). -/
def Nib.streamBusy (x : Nib) (e : EngineUnit) : Bool := (x.oldest e).isSome

/-- Reserved bits and codes of a send word (R129). -/
def sendReserved (w : Nat) : Bool :=
  field w 4 0 = 0 &&
    match field w 44 43 with
    | 0 => true
    | 1 => field w 38 30 = 0
    | 2 => field w 42 30 = 0
    | _ => false

/-- A send takes its slot, or faults where its source held an unreadable word (R134, R146). -/
def State.sendIssued (s : State) (n k w : Nat) (t : Tensor) (ue : Option Nat) : Issued :=
  let x := s.nib n
  match ue with
  | some ue => .stop (s.nibFault n { code := ueCode ue, addr := x.issue.addr })
  | none =>
    let o : InFlight :=
      { slot := k, kind := .send, word := w, addr := x.issue.addr, gen := x.tags.gen, epoch := x.tags.epoch,
        tensors := [t], reads := t.ranges, writes := [], left := t.denseSize }
    .go ((s.updNib n fun x => { x with slots := x.slots ++ [o] }).progress n 3)

/-- The packets of a message enter the mesh (R130). -/
def State.launch (s : State) (n k w : Nat) (t : Tensor) (mk : Nat → List Byte → Bool → Packet) : Issued :=
  let r := s.sendBytes n t
  (r.1.inject n (packets mk (t.denseSize / 1024 + 1) 0 r.2.1)).sendIssued n k w t r.2.2

/-- A send of KIND MARGIN hands its bytes to the margin engine (R130, R134, R294). -/
def State.sendMargin (s : State) (n k w : Nat) (t : Tensor) : Issued :=
  let r := s.sendBytes n t
  (r.1.issueRequest n r.2.1).sendIssued n k w t r.2.2

/-- send (R130, R133, R134). -/
def execSend (n : NibId) (w : BitVec 64) (s : State) : Out :=
  let w := w.toNat
  s.issue n 0x20 w (sendReserved w) fun s =>
    let x := s.nib n
    match x.operands [(field w 53 45, false)] with
    | .error e => badOperand e
    | .ok [t] =>
      let len := t.denseSize
      let off := 64 * field w 29 14
      let row := field w 42 36
      let col := field w 35 30
      let kind := field w 44 43
      if t.scaleFault then .fault 0x03 (some t.handle) (formatDetail 0 (descFormat t.raw) 0)
      else if kind = 0 && !s.inGrid row col then .fault 0x02 none 0
      else if kind = 1 && (65536 < off + len || s.landTouched (field w 42 39) off len) then .fault 0x02 none 0
      else if kind = 2 && 2048 < len - 64 then .fault 0x0A (some t.handle) (min (ceilDiv (len - 64) 64) (2 ^ 18 - 1))
      else if x.streamBusy .sender then .wait .stream
      else if kind = 2 && !s.marginRoom then .wait .margin
      else
        match x.freeSlotNo with
        | none => .wait .slots
        | some k =>
          if x.rangeBusy t.ranges [] then .wait .range
          else
            let q := field w 13 10
            match kind with
            | 0 => s.launch n k w t fun a bs last =>
                ⟨n, .nib (row * 64 + col), x.tags.gen, x.tags.epoch, .data q off len (off + a) bs last⟩
            | 1 => s.launch n k w t fun a bs _ =>
                ⟨n, .quill (field w 42 39), x.tags.gen, x.tags.epoch, .quill (off + a) bs
                  ((List.range (ceilDiv bs.length 64)).map fun i => t.denseAddr (a + 64 * i))⟩
            | _ => s.sendMargin n k w t
    | .ok _ => .go s

/-- No flit of a send's message stands in the nib's store: the path has room for those not yet taken (R130). -/
def State.sendLeft (s : State) (n : Nat) (o : InFlight) : Bool :=
  match sendDest o.word with
  | none => true
  | some d => s.flitsUnderway n d ≤ s.pathRoom n d

/-- The row SEND_COMPLETE: the last flit has left the store (R130). A send of an aborted job frees its slot and emits nothing (13 R391);
one stopped by a pre-emption keeps it for its record (06 R199). -/
def State.sendDone (s : State) (n : Nat) : State :=
  match s.engineOp n .send with
  | none => s
  | some o =>
    if !s.sendLeft n o then s
    else if s.recovery.ended then s.updNib n fun x => { x with slots := x.slots.filter fun p => p.slot ≠ o.slot }
    else if o.stop.any (· < o.total) then s
    else (s.progress n 3).finishOp n { o with left := 0 }

/-- The row SEND_COMPLETE. -/
def execSendComplete (n : NibId) (s : State) : Out := .next (s.sendDone n)

/-- Reserved bits and codes of a recv word (R129, R132). -/
def recvReserved (w : Nat) : Bool :=
  field w 3 0 = 0 &&
    match field w 24 23 with
    | 0 => true
    | 1 => field w 44 41 = 0 && field w 40 25 = 0
    | _ => false

/-- recv (R131, R132). -/
def execRecv (n : NibId) (w : BitVec 64) (s : State) : Out :=
  let w := w.toNat
  s.issue n 0x21 w (recvReserved w) fun s =>
    let x := s.nib n
    match x.operands [(field w 53 45, true)] with
    | .error e => badOperand e
    | .ok [t] =>
      if t.scaleFault then .fault 0x03 (some t.handle) (formatDetail (descFormat t.raw) 0 0)
      else if field w 24 23 = 1 && 65536 < 64 * field w 18 9 + t.denseSize then .fault 0x02 none 0
      else if x.streamBusy .receiver then .wait .stream
      else
        match s.takeSlot n .recv w [t] [] t.ranges fun o => { o with left := field w 40 25 + 1 } with
        | .go s => .go (s.drainInbox n)
        | r => r
    | .ok _ => .go s

/-- The row RECV_COMPLETE (R131, R132): every message is whole, or the range of the landing buffer has landed and is
copied. -/
def State.recvDone (s : State) (n : Nat) : State :=
  match s.engineOp n .recv with
  | none => s
  | some o =>
    match o.tensors with
    | [] => s
    | t :: _ =>
      if field o.word 24 23 = 0 then
        if o.left = 0 then ((s.progress n 4).finishOp n o).settle n else s
      else
        let q := field o.word 22 19
        let lo := 64 * field o.word 18 9
        if !s.landed q lo t.denseSize then s
        else if !(s.landStampOk n q lo t.denseSize) then
          (s.takeLanded q lo t.denseSize).1.bump 0x7016 (s.nibQuire n) 1
        else
          let r := s.takeLanded q lo t.denseSize
          let segs := t.rowRanges
          let m := r.1.mergeStores n segs
          let mem := t.writeDense (m.1.nib n).mem 0 r.2
          match m.2 with
          | some ue => m.1.opFault n o ue mem mem segs segs
          | none =>
            ((m.1.updNib n fun x => { x with mem := mem }).progress n 4).finishOp n o

/-- The row RECV_COMPLETE. -/
def execRecvComplete (n : NibId) (s : State) : Out := .next (s.recvDone n)

/-- The row STREAM_PACKET_ARRIVAL (R57, R131). -/
def execStreamPacketArrival (n : NibId) (src : NibId) (s : State) : Out :=
  .next (s.arrive n src fun b =>
    match b with
    | .data _ _ _ _ _ _ => true
    | _ => false)

end Sys2Proof.Machine
end

