-- ==== Sys2Proof/Machine/Binding.lean ====
section
/-! DEFINITION. The job binding: OPENING, ON, CLOSING with pre-emption and its records, OFF (04 R125, R126; 06 R199-R203; 10 R319;
11 R347, R350, R351; 12 R377). -/

namespace Sys2Proof.Machine

/-! ### Pre-emption (R199) -/

/-- Every HELD entry becomes PREEMPTED (R199). -/
def preemptHeld (m : SMap (Option FaultEntry)) : SMap (Option FaultEntry) :=
  m.map fun e =>
    match e.2 with
    | some x => if x.st = 1 then (e.1, some { x with st := 4 }) else e
    | none => e

/-- A nib stops issue at t0 (R199). -/
def stopNib (x : Nib) : Nib :=
  if x.issue.run = .running then { x with issue := { x.issue with run := .stopped, hold := .none } } else x

/-- CLOSING of the job binding begins, and with it pre-emption (R199, R319). -/
def State.closeBinding (s : State) : State :=
  let s := s.setBinding { code := .closing, pending := false, failed := s.binding.fn.failed }
  let s : State := { s with
    binding := { s.binding with openLine := none, drainAt := some (s.now + s.obj 0x4625 0 * 1000) }
    desk := { s.desk with
      entries := preemptHeld s.desk.entries
      preempt := { status := 1, t0 := s.now } } }
  (s.mapNibs stopNib).vacate.stopMirror

/-- A send in flight stops at the first 4 KiB boundary of its message, in dense order, that has not begun to leave its store (R199):
`begun` bytes have, as far as what has been taken and the room of its path bound them. Packets beyond the boundary never leave. -/
def State.drainSend (s : State) (n : Nat) (o : InFlight) (begun : Nat) : State :=
  let sent := ceilDiv o.total 1024 - (s.ownPackets n o).length
  let b := max (min o.total (1024 * sent)) (min (min o.total begun) (1024 * (sent + s.mayHaveBegun n o)))
  let stop := min o.total (4096 * ceilDiv b 4096)
  (s.stopSend n o (ceilDiv stop 1024 - sent)).updNib n fun x => { x with slots := x.slots.map fun p =>
    if p.slot = o.slot && p.stop.isSome then { p with stop := some stop, left := o.total - stop } else p }

/-- The sends in flight on the module's nibs that have not completed. -/
def State.liveSends (s : State) : List (Nat × InFlight) :=
  s.nibs.flatMap fun e => (e.2.slots.filter fun o => o.kind = .send && !o.written).map fun o => (e.1, o)

/-- The row DRAIN_DEADLINE (R199): `begun` lists nibs with the bytes of their sends that have begun to leave; a send that it does not
name has begun no more than what has been taken. -/
def State.reachDeadline (s : State) (begun : List (NibId × Nat)) : State :=
  let due : Bool := s.binding.drainAt.any fun t => t ≤ s.now
  if s.desk.preempt.status ≠ 1 || s.desk.preempt.drained || !due then s
  else
    let s : State := { s with desk := { s.desk with preempt := { s.desk.preempt with drained := true } } }
    s.liveSends.foldl (fun s x =>
      s.drainSend x.1 x.2 (((begun.find? fun b => b.1.val = x.1).map Prod.snd).getD 0)) s

/-- The row DRAIN_DEADLINE. -/
def execDrainDeadline (begun : List (NibId × Nat)) (s : State) : Out := .next (s.reachDeadline begun)

/-! ### Records (R200, R201) -/

/-- A descriptor as taken, with LEN = 0 and the resolved bases (R201). -/
def Tensor.resolved (t : Tensor) : Nat :=
  setField (setField (setField t.raw 319 319 0) 22 0 t.base) 86 64 t.sbase

/-- A reservoir entry of the record (R201). -/
def transferRecord (t : Transfer) : List Byte :=
  let st : Nat × Nat :=
    match t.st with
    | .error c => (4, c)
    | .held c _ => (2, c)
    | .active => if t.complete then (3, 0) else if t.next = 0 then (0, 0) else (1, 0)
  bytesLE 8 t.word ++ bytesLE 8 t.va ++ bytesLE 40 t.tensor.resolved ++ bytesLE 2 t.mark ++ bytesLE 1 st.1 ++
    bytesLE 1 st.2 ++ bytesLE 4 0

/-- A captured packet (R200): the 16 B header in a layout of the model's own (log entry 29), then its data. -/
def parkedRecord (p : Packet) : List Byte :=
  let common := p.src % 8192 + (p.gen % 8) <<< 20 + (p.epoch % 2) <<< 23
  match p.body with
  | .signal q v => bytesLE 16 (common + q <<< 16 + 2 ^ 26 + v <<< 32)
  | .data q base total off bs last =>
    bytesLE 16 (common + q <<< 16 + (if last then 2 ^ 24 else 0) + off <<< 32 + bs.length <<< 64 + (base / 64) <<< 80 +
      total <<< 96) ++ padTo (8 * ceilDiv bs.length 8) bs
  | .quill _ _ _ => []

/-- Packets that fit the parked area, in order, and whether some did not (R200, R203). -/
def fitParked : Nat → List Packet → List Byte × Bool
  | _, [] => ([], false)
  | room, p :: ps =>
    let r := parkedRecord p
    if room < r.length then ([], true)
    else
      let t := fitParked (room - r.length) ps
      (r ++ t.1, t.2)

/-- The record of a nib, as byte strings at offsets, and whether it is INCOMPLETE (R200). -/
def nibRecord (x : Nib) (packets : List Packet) : List (Nat × List Byte) × Bool :=
  let queues := (List.range 4).flatMap fun q => (x.resQueue q).mapIdx fun i t => (0x1000 * q + 64 * i, transferRecord t)
  let bases := (List.range 4).map fun q => (0x4000 + 8 * q, bytesLE 8 (SMap.get 0 x.rbase q))
  let counts := (List.range 4).map fun q => (0x4020 + q, bytesLE 1 (x.resQueue q).length)
  let send := (x.oldest .sender).filter fun o => o.left ≠ 0 && (sendDest o.word).isSome
  let recv := x.oldest .receiver
  let raw (o : InFlight) : Nat := (o.tensors.head?.map Tensor.resolved).getD 0
  let parked := fitParked 48128 packets
  let flags := (if parked.2 then 1 else 0) + (if send.isSome then 2 else 0) + (if recv.isSome then 4 else 0)
  let sendPart :=
    match send with
    | some o => [(0x4028, bytesLE 8 o.word ++ bytesLE 40 (raw o) ++ bytesLE 4 (o.total - o.left))]
    | none => []
  let recvPart :=
    match recv with
    | some o => [(0x405C, bytesLE 8 o.word ++ bytesLE 40 (raw o) ++ bytesLE 2 o.left)]
    | none => []
  (queues ++ bases ++ counts ++ [(0x4024, bytesLE 4 flags)] ++ sendPart ++ recvPart ++
    [(0x4094, bytesLE 4 parked.1.length), (0x4400, parked.1)], parked.2)

/-- Desk memory holds zeros in a range. -/
def State.zeroDesk (s : State) (a n : Nat) : State :=
  { s with desk := { s.desk with
    mem := SMap.eraseRange s.desk.mem a n
    prompt := SMap.eraseRange s.desk.prompt (a - s.obj 0x2E01 0) (a + n - s.obj 0x2E01 0 - (a - s.obj 0x2E01 0))
    ecc := s.desk.ecc.filter fun e => !(a ≤ 64 * e.1 && 64 * e.1 + 64 ≤ a + n) } }

/-- Byte strings written at offsets from a base. -/
def State.putPieces (s : State) (base : Nat) (ps : List (Nat × List Byte)) : State :=
  ps.foldl (fun s p => s.deskPut (base + p.1) p.2) s

/-- Stream packets on their way to nib `n`: those at its local input, then those in the mesh. -/
def State.packetsFor (s : State) (n : Nat) : List Packet :=
  (s.nib n).inbox.map Waiting.pkt ++ s.mesh.filter fun p => p.dst = .nib n

/-- The nibs for which a record holds more than zeros: those that are not as a reset leaves them, and destinations of packets in
the mesh. -/
def State.recordNibs (s : State) : List Nat :=
  let live := s.nibs.map Prod.fst
  let dests := s.mesh.filterMap fun p =>
    match p.dst with
    | .nib n => if live.contains n then none else some n
    | .quill _ => none
  live ++ dests.eraseDups

/-- The records are written (R200): true when one is INCOMPLETE, as when the area does not lie in the data space. -/
def State.writeRecords (s : State) : State × Bool :=
  let base := s.obj 0x4624 0
  if s.deskSize < base + 2 ^ 29 then (s, true)
  else
    s.recordNibs.foldl (fun (r : State × Bool) n =>
      let p := nibRecord (s.nib n) (s.packetsFor n)
      (r.1.putPieces (base + 65536 * n) p.1, r.2 || p.2)) (s.zeroDesk base (2 ^ 29), false)

/-- Some chunk is in flight, or an operation of a matrix or vector engine. -/
def State.draining (s : State) : Bool :=
  s.nibs.any fun e => e.2.resq.any (fun r => r.2.any fun t => !t.flight.isEmpty) ||
    e.2.slots.any fun o => o.kind ≠ .send && o.kind ≠ .recv && !o.written

/-- A stream operation has nothing left to do when the records are made: its message has left the store, or every message is whole. -/
def InFlight.streamDone (o : InFlight) : Bool :=
  !o.written &&
    match o.kind with
    | .send => o.stop.getD o.total = o.total
    | .recv => field o.word 24 23 = 0 && o.left = 0
    | _ => false

/-- Stream operations with nothing left to do complete, and their DONE tokens are emitted or wait (R44, R199). -/
def State.finishStreams (s : State) : State :=
  let ops := s.nibs.flatMap fun e => (e.2.slots.filter InFlight.streamDone).map fun o => (e.1, o)
  ops.foldl (fun s x => s.finishOp x.1 { x.2 with left := 0 }) s

/-- What the records have taken leaves the nibs: transfers, unfinished streams and waiting packets. An operation whose DONE token waits
for room keeps its slot. -/
def takenNib (x : Nib) : Nib :=
  { x with resq := [], inbox := [], slots := x.slots.filter fun o => o.written || (o.kind ≠ .send && o.kind ≠ .recv) }

/-! ### Entering the states (R126, R319, R350, R377) -/

/-- Entry to OFF clears every placed mark, the doorbell's binding, and its held events (R126, R350). -/
def State.enterOff (s : State) (failed : Bool) : State :=
  let bells := s.binding.heldBells.length
  let s := if bells = 0 then s else s.bump 0x80E7 0 bells
  let s := s.setBinding { code := .off, pending := false, failed := failed }
  let s : State := { s with binding := { s.binding with
    openLine := none, drainAt := none, doorbell := none, heldBells := [] } }
  s.mapNibs fun x => { x with issue := { x.issue with
    placed := false, run := if x.issue.run = .placed then .notPlaced else x.issue.run } }

/-- OPENING begins (R319, R351): it sets the nibs' tags from the placement epoch in force (05 R171), and ends at the next line
boundary. -/
def State.openBinding (s : State) : State :=
  let s := (s.setBinding { code := .opening }).setEpoch (s.obj 0x4602 0 % 2)
  { s with
    recovery := { s.recovery with ended := false }
    binding := { s.binding with
    openLine := some (s.line + 1), drainAt := none, placeBusy := s.place.running } }

/-- CLOSING ends: OFF, or OPENING at once where an enable is pending (R377). -/
def State.endClosing (s : State) : State :=
  if s.binding.fn.pending then s.openBinding else s.enterOff s.binding.fn.failed

/-- A reset of the compute domain or of the part has been requested or has begun: it takes precedence over pre-emption (R203). -/
def State.resetComing (s : State) : Bool :=
  s.recovery.wanted.any (fun t => 3 ≤ t.step) || s.recovery.steps.any fun t => 3 ≤ t.step

/-- The row PREEMPTION_COMPLETE (R199, R203, R319). -/
def State.endPreemption (s : State) : State :=
  if s.desk.preempt.status ≠ 1 || !s.desk.preempt.drained || s.draining || s.resetComing then s
  else
    let r := s.finishStreams.writeRecords
    let s := r.1.mapNibs takenNib
    let s : State := { s with
      mesh := s.mesh.filter fun p =>
        match p.dst with
        | .nib _ => false
        | .quill _ => true
      desk := { s.desk with preempt := { s.desk.preempt with status := if r.2 then 3 else 2 } } }
    s.endClosing

/-- The row PREEMPTION_COMPLETE. -/
def execPreemptionComplete (s : State) : Out := .next s.endPreemption

/-- An enable of the job binding is received (R377). In COMPUTE_HELD and RETIRED it is refused before (13 R395, R404). -/
def State.enableBinding (s : State) : State :=
  let f := s.binding.fn
  match f.code with
  | .off => s.openBinding
  | .opening => s.setBinding { f with pending := false, failed := false }
  | .on => s.setBinding { f with failed := false }
  | .closing => s.setBinding { f with pending := true, failed := false }

/-- A disable of the job binding is received (R377). -/
def State.disableBinding (s : State) : State :=
  let f := s.binding.fn
  match f.code with
  | .off => s
  | .opening => s.setBinding { f with pending := true }
  | .on => s.closeBinding
  | .closing => s.setBinding { f with pending := false }

/-! ### Resuming a nib (R202, R347) -/

/-- A descriptor of a record as a tensor. -/
def recordTensor (handle raw : Nat) : Tensor := ⟨handle, raw, descBase raw, descSbase raw⟩

/-- A transfer of a record, ready to go on from its progress mark (R201, R202). -/
def restoreTransfer (b : List Byte) : Transfer :=
  let w := natLE (b.take 8)
  let t : Transfer := { word := w, va := natLE (slice b 8 8), tensor := recordTensor (field w 53 45) (natLE (slice b 16 40)) }
  let mark := natLE (slice b 56 2)
  match natLE (slice b 58 1) with
  | 3 => { t with next := t.chunks, done := List.range t.chunks }
  | 4 => { t with next := mark, done := List.range mark, st := .error (natLE (slice b 59 1)) }
  | _ => { t with next := mark, done := List.range mark }

/-- The packets of a parked area (R200). -/
def restoreParked : Nat → Nat → List Byte → List Packet
  | 0, _, _ => []
  | fuel + 1, n, b =>
    if b.length < 16 then []
    else
      let h := natLE (b.take 16)
      let len := field h 74 64
      let body : PacketBody :=
        if bit h 26 then .signal (field h 19 16) (field h 55 32)
        else .data (field h 19 16) (64 * field h 95 80) (field h 127 96) (field h 63 32) (slice b 16 len) (bit h 24)
      let used := if bit h 26 then 16 else 16 + 8 * ceilDiv len 8
      ⟨field h 12 0, .nib n, field h 22 20, field h 23 23, body⟩ :: restoreParked fuel n (b.drop used)

/-- The packets of a restored send, from its restart offset (R202). -/
def restoredPackets (x : Nib) (n w : Nat) (t : Tensor) (start : Nat) : List Packet :=
  let len := t.denseSize
  let off := 64 * field w 29 14
  let q := field w 13 10
  let mk (a : Nat) (bs : List Byte) (last : Bool) : Packet :=
    if field w 44 43 = 0 then
      ⟨n, .nib (field w 42 36 * 64 + field w 35 30), x.tags.gen, x.tags.epoch, .data q off len (off + a) bs last⟩
    else
      ⟨n, .quill (field w 42 39), x.tags.gen, x.tags.epoch, .quill (off + a) bs
        ((List.range (ceilDiv bs.length 64)).map fun i => t.denseAddr (a + 64 * i))⟩
  packets mk (len / 1024 + 1) start ((t.dense x.mem).drop start)

/-- An operation put back into a slot (R202). The record holds no stamp: it takes the nib's tags at ON (05 R164; DESIGN CHOICE, log entry
29). -/
def restoredOp (x : Nib) (k : Nat) (kind : OpKind) (w : Nat) (t : Tensor) (left : Nat) : InFlight :=
  { slot := k, kind := kind, word := w, addr := x.issue.addr, gen := x.tags.gen, epoch := x.tags.epoch, tensors := [t],
    reads := if kind = .send then t.ranges else [], writes := if kind = .send then [] else t.ranges, left := left }

/-- A nib resumes from its record (R202, R347). -/
def State.restoreNib (s : State) (n : Nat) : State :=
  let base := s.obj 0x4624 0 + 65536 * n
  let r := s.deskRead base 65536
  let s := r.1
  let get (o l : Nat) : List Byte := s.deskBytes (base + o) l
  let queue (q : Nat) : List Transfer :=
    (List.range (natLE (get (0x4020 + q) 1))).map fun i => restoreTransfer (get (0x1000 * q + 64 * i) 64)
  let x := s.nib n
  let x := (List.range 4).foldl (fun (x : Nib) q =>
    ({ x with rbase := SMap.set 0 x.rbase q (natLE (get (0x4000 + 8 * q) 8)) }).setResQueue q (queue q)) x
  let flags := natLE (get 0x4024 1)
  let sw := natLE (get 0x4028 8)
  let st := recordTensor (field sw 53 45) (natLE (get 0x4030 40))
  let start := natLE (get 0x4058 4)
  let rw := natLE (get 0x405C 8)
  let rt := recordTensor (field rw 53 45) (natLE (get 0x4064 40))
  let sends : List Packet := if bit flags 1 then restoredPackets x n sw st start else []
  let x := if bit flags 1 then
      { x with slots := x.slots ++ [restoredOp x 0 .send sw st (st.denseSize - start)] } else x
  let x := if bit flags 2 then
      { x with slots := x.slots ++ [restoredOp x 1 .recv rw rt (natLE (get 0x408C 2))] } else x
  let parked := restoreParked 3009 n (get 0x4400 (natLE (get 0x4094 4)))
  let x := { x with inbox := (parked.map fun p => ⟨5, p⟩) ++ x.inbox, issue := { x.issue with resume := false } }
  let s := s.setNib n x
  State.drainInbox { s with mesh := s.mesh ++ sends } n

/-! ### OPENING ends (R319, R351) -/

/-- Nibs that a context is bound on, and those that are its HOME. -/
def State.homes (s : State) (k : Nat) : Nat × Nat :=
  let b := s.nibs.filter fun e => (e.2.ctx k).bound
  (b.length, (b.filter fun e => (e.2.ctx k).home).length)

/-- The first check of OPENING that fails, 0 for none (R351). -/
def State.openingCode (s : State) : Nat :=
  if !s.allPlaced then 10
  else if (List.range 64).any fun k => (s.homes k).1 ≠ 0 && (s.homes k).2 ≠ 1 then 11
  else if s.binding.placeBusy then 12
  else 0

/-- A placed nib begins issue (R319), one that a pre-emption stopped and that no entry to OFF has unmarked too (R321, R377). What PUTs
have left beyond its counts is gone. -/
def startNib (x : Nib) : Nib :=
  if x.issue.run = .placed || (x.issue.run = .stopped && x.issue.placed) then
    { x with
      issue := { x.issue with run := .running, hold := .none }
      stash := []
      ctxs := SMap.mapVals {} (fun _ c => { c with rest := [] }) x.ctxs }
  else x

/-- Nibs of the declared grid changed by `f`; the others execute nothing (01 R15). -/
def State.mapGrid (s : State) (f : Nib → Nib) : State :=
  { s with nibs := SMap.mapVals Nib.fresh (fun n x => if s.inGrid (n / 64) (n % 64) then f x else x) s.nibs }

/-- The binding becomes ON: nibs issue, those that resume take their records, and the plan line count starts (R240, R319,
R347). -/
def State.enterOn (s : State) : State :=
  let s := (s.setObj 0x2B01 0 0).setBinding { code := .on }
  let s : State := { s with
    binding := { s.binding with openLine := none, halted := 0, firstHalt := 0 }
    recovery := { s.recovery with samples := [] } }
  let s := s.mapGrid startNib
  let s := (s.nibs.filter fun e => e.2.issue.resume && s.inGrid (e.1 / 64) (e.1 % 64)).foldl (fun s e => s.restoreNib e.1) s
  let begun : Bool := s.time.lineDone = s.line && !s.lifted s.line
  let s : State := { s with lines := { s.lines with counting := false } }
  let s := if begun then s.countPlanLine else s
  State.ringBells 64 s

/-- The row OPENING_END (R319, R351, R377). -/
def State.endOpening (s : State) : State :=
  let due : Bool := s.binding.openLine.any fun l => l ≤ s.line
  if s.binding.fn.code ≠ .opening || !due then s
  else
    let c := s.openingCode
    if c ≠ 0 then
      ((s.setObj 0x2B01 0 c).enterOff true).event 0x09 0x2A10 c
    else if s.binding.fn.pending then (s.setObj 0x2B01 0 0).closeBinding
    else s.enterOn

/-- The row OPENING_END. -/
def execOpeningEnd (s : State) : Out := .next s.endOpening

end Sys2Proof.Machine
end

