-- ==== Sys2Proof/Machine/Place.lean ====
section
/-! DEFINITION. The place engine (11 R344-R349): its spaces, and PUT, GET, FILL, START, NOP entries. -/

namespace Sys2Proof.Machine

/-! ### The entry (R344, R345) -/

/-- Size of a space, 0 for a reserved code (R345). -/
def spaceSize (sp : Nat) : Nat :=
  match sp with
  | 0 => 8388608
  | 1 => 32768
  | 2 => 24576
  | 3 => 8192
  | 4 => 8192
  | _ => 0

/-- OP of a place entry. -/
def placeOp (e : Nat) : Nat := field e 255 252
/-- SPACE of a place entry. -/
def placeSpace (e : Nat) : Nat := field e 251 249
/-- OFFSET of a place entry. -/
def placeOffset (e : Nat) : Nat := field e 219 197
/-- LENGTH of a place entry. -/
def placeLength (e : Nat) : Nat := field e 159 128
/-- DESK of a place entry. -/
def placeDesk (e : Nat) : Nat := field e 46 0

/-- A write's part of DESC below the escape records is whole 40 B entries: the loader writes all 40 B at once (R345, 04 R105). -/
def wholeEntries (off len : Nat) : Bool :=
  off ≥ 20480 || (off % 40 = 0 && (20480 ≤ off + len || (off + len) % 40 = 0))

/-- The nibs an entry names: every exposed nib, or one; none where it lies outside the exposed grid (R344, R348). -/
def State.placeNibs (s : State) (e : Nat) : Option (List Nat) :=
  if bit e 248 then some (List.range (s.gridRows * 64))
  else if field e 245 233 < s.gridRows * 64 then some [field e 245 233] else none

/-- The entry keeps R344 and R345, so far as its own bits show. -/
def placeEntryOk (e : Nat) : Bool :=
  let off := placeOffset e
  field e 196 160 = 0 && field e 127 47 = 0 && placeOp e ≤ 4 && placeSpace e ≤ 4 && off % 8 = 0 &&
    match placeOp e with
    | 0 => true
    | 4 => field e 232 220 ≤ 0x1000 && !(bit e 247 && field e 232 220 = 0x1000)
    | op =>
      let len := placeLength e
      len % 8 = 0 && off + len ≤ spaceSize (placeSpace e) &&
        (op = 3 || placeDesk e % 8 = 0) && (placeSpace e ≠ 0 || (rangeFault (off, len)).isNone) &&
        (op = 2 || placeSpace e ≠ 2 || wholeEntries off len)

/-! ### The blocks of R346 -/

/-- The code of a run state in the state block (R346). -/
def RunState.num : RunState → Nat
  | .notPlaced => 0
  | .placed => 4
  | .running => 1
  | .stopped => 1
  | .halting => 2
  | .halted => 2
  | .faulting => 3
  | .faulted => 3

/-- The run state of a code (R346); codes past 4 are not defined, and `free` stands for what they leave (log entry 14). -/
def RunState.ofNum (v free : Nat) : RunState :=
  match if v ≤ 4 then v else free % 5 with
  | 1 => .stopped
  | 2 => .halted
  | 3 => .faulted
  | 4 => .placed
  | _ => .notPlaced

/-- Bits 51:10 of the cmp instruction that sets a comparator (R138, R346). -/
def Cmp.bits (c : Cmp) : Nat :=
  (c.a % 8) <<< 39 + (c.rel % 8) <<< 36 + (if c.imm then 2 ^ 35 else 0) + (c.cb % 8) <<< 32 + c.val % 2 ^ 32

/-- The comparator of such bits. -/
def Cmp.ofBits (v : Nat) : Cmp := ⟨field v 41 39, field v 38 36, bit v 35, field v 34 32, field v 31 0⟩

/-- A loop level of the state block (R346). -/
def LoopLevel.bytes (l : LoopLevel) : List Byte :=
  bytesLE 1 1 ++ bytesLE 1 (match l.exit with
    | some c => 4 + c % 4
    | none => 0) ++ bytesLE 2 l.first ++ bytesLE 2 l.last ++ bytesLE 2 0 ++ bytesLE 4 l.count ++ bytesLE 4 l.index

/-- Loop levels read from the state block, innermost first, up to the first that is not active. -/
def loopsOf : Nat → List Byte → List LoopLevel
  | 0, _ => []
  | fuel + 1, b =>
    if natLE (b.take 1) % 2 = 0 then []
    else
      let x := natLE (slice b 1 1)
      ⟨natLE (slice b 2 2), natLE (slice b 4 2), natLE (slice b 8 4), natLE (slice b 12 4),
        if bit x 2 then some (x % 4) else none⟩ :: loopsOf fuel (b.drop 16)

/-- The nib state block (R346). -/
def stateBlock (x : Nib) : Memory :=
  let put (m : Memory) (p : Nat × List Byte) : Memory := m.writeBytes p.1 p.2
  ([(0, bytesLE 1 x.issue.run.num), (2, bytesLE 2 x.issue.addr), (4, bytesLE 2 x.issue.haltCode),
    (8, bytesLE 8 x.issue.faultRec), (0x50, x.issue.loops.flatMap LoopLevel.bytes),
    (0x90, bytesLE 1 x.tags.gen ++ bytesLE 1 x.tags.epoch ++ bytesLE 1 x.tags.gmask ++ bytesLE 1 x.tags.emask)] ++
    (List.range 8).map (fun c => (0x10 + 4 * c, bytesLE 4 (x.ct c))) ++
    (List.range 4).map (fun c => (0x30 + 8 * c, bytesLE 8 (SMap.get ({} : Cmp) x.cmps c).bits)) ++
    (List.range 16).map (fun q => (0x94 + q, bytesLE 1 (x.queue q).length)) ++
    (List.range 16).map (fun q => (0x100 + 256 * q, (x.queue q).flatMap (bytesLE 4)))).foldl put []

/-- The STATE space of a nib as it reads: its state block, and where no register stands the bytes that a PUT has left there. -/
def stateSpace (x : Nib) : Memory := x.stash.foldl (fun m e => m.write e.1 e.2) (stateBlock x)

/-- The bytes of a state block where a queue entry or a loop level would stand and none does while the counts before it are small: past
a queue's number of entries, and from the first loop level that is not active. -/
def stashed (x : Nib) (m : Memory) : Memory :=
  m.filter fun e =>
    (0x100 ≤ e.1 && e.1 < 0x1100 && 4 * (x.queue ((e.1 - 0x100) / 256)).length ≤ (e.1 - 0x100) % 256) ||
      (0x50 + 16 * x.issue.loops.length ≤ e.1 && e.1 < 0x90)

/-- A nib whose state block is `m`. -/
def ofStateBlock (x : Nib) (free : Nat) (m : Memory) : Nib :=
  let queue (q : Nat) : List Nat :=
    (List.range (min 64 (m.readLE (0x94 + q) 1))).map fun i => m.readLE (0x100 + 256 * q + 4 * i) 4
  { x with
    issue := { x.issue with
      run := RunState.ofNum (m.readLE 0 1) free
      addr := m.readLE 2 2 % 4096
      haltCode := m.readLE 4 2
      faultRec := m.readLE 8 8
      loops := loopsOf 4 (m.readBytes 0x50 64) }
    tags := ⟨m.readLE 0x90 1 % 8, m.readLE 0x91 1 % 2, m.readLE 0x92 1, m.readLE 0x93 1 % 4⟩
    counters := SMap.setAll 0 [] ((List.range 8).map fun c => (c, m.readLE (0x10 + 4 * c) 4))
    cmps := SMap.setAll ({} : Cmp) [] ((List.range 4).map fun c => (c, Cmp.ofBits (m.readLE (0x30 + 8 * c) 8)))
    queues := SMap.setAll [] [] ((List.range 16).map fun q => (q, queue q)) }

/-- The context block of a context (R346); a position at or above D reads as unused unless a PUT has given it a byte. -/
def Context.block (c : Context) : List Byte :=
  bytesLE 16 c.binding ++ bytesLE 4 c.committed ++ bytesLE 1 c.drafts ++ bytesLE 3 0 ++
    ((List.range 64).map fun i => BitVec.ofNat 8
      (if i < c.drafts then c.parents.getD i 0x7F else c.rest.getD (i - c.drafts) 0xFF)) ++ bytesLE 40 0

/-- The context of a context block. Reserved bits of the binding read zero (05 R151, 00 R8). Node-table bytes at and above D are kept, so
that a later PUT may raise D over them (R347). -/
def contextOf (b : List Byte) : Context :=
  let d := natLE (slice b 0x14 1)
  let table := (slice b 0x18 64).map (·.toNat)
  let rest := table.drop d
  ⟨(natLE (b.take 16)) >>> 42 <<< 42, natLE (slice b 0x10 4), d, table.take d, if rest.all (· = 0xFF) then [] else rest⟩

/-! ### Bytes of a space -/

/-- Byte string cut into little-endian 8 B words. -/
def words8 : Nat → List Byte → List Nat
  | 0, _ => []
  | fuel + 1, bs => if bs.isEmpty then [] else natLE (bs.take 8) :: words8 fuel (bs.drop 8)

/-- `bs` with the bytes from `off` replaced by `new`. -/
def patch (bs : List Byte) (off : Nat) (new : List Byte) : List Byte :=
  bs.take off ++ new ++ bs.drop (off + new.length)

/-- The 8 B word of DESC at `a` (R345). -/
def descWord (x : Nib) (a : Nat) : Nat :=
  if a < 20480 then (SMap.get 0 x.descs (a / 40)) >>> (8 * (a % 40)) % 2 ^ 64
  else SMap.get 0 x.escs ((a - 20480) / 8)

/-- An 8 B word of DESC written (R345): the entry is now the loader's (04 R104), and a PUT clears its escape record. -/
def putDescWord (clear : Bool) (x : Nib) (a v : Nat) : Nib :=
  if a < 20480 then
    let lo := 8 * (a % 40)
    { x with
      descs := SMap.upd 0 x.descs (a / 40) fun d => setField d (lo + 63) lo v
      escs := if clear then SMap.set 0 x.escs (a / 40) 0 else x.escs
      dloaded := SMap.set false x.dloaded (a / 40) false }
  else { x with escs := SMap.set 0 x.escs ((a - 20480) / 8) v }

/-- The bytes of a range of a space of a nib (R345). -/
def getSpace (x : Nib) (sp off len : Nat) : List Byte :=
  let at8 (f : Nat → Nat) : List Byte := (List.range (len / 8)).flatMap fun i => bytesLE 8 (f (off + 8 * i))
  match sp with
  | 0 => x.mem.readBytes off len
  | 1 => at8 fun a => SMap.get 0 x.instrs (a / 8)
  | 2 => at8 (descWord x)
  | 3 => slice ((List.range 64).flatMap fun k => (x.ctx k).block) off len
  | _ => (stateSpace x).readBytes off len

/-- A context block rewritten where a byte range meets it; the mirror takes the context up anew when its binding record is placed again
(10 R327, R345). -/
def putContext (off : Nat) (bs : List Byte) (x : Nib) (k : Nat) : Nib :=
  let lo := max off (128 * k)
  let hi := min (off + bs.length) (128 * k + 128)
  if hi ≤ lo then x
  else
    let y := x.setCtx k (contextOf (patch (x.ctx k).block (lo - 128 * k) (slice bs (lo - off) (hi - lo))))
    if lo = 128 * k && lo + 16 ≤ hi then
      { y with mirror := { y.mirror with stale := SMap.set false y.mirror.stale k false, marked := SMap.set 0 y.mirror.marked k 0 } }
    else y

/-- Bytes written to a range of a space of a nib by a PUT or a FILL (R345). -/
def putSpace (isPut : Bool) (x : Nib) (free sp off : Nat) (bs : List Byte) : Nib :=
  let ws := (words8 bs.length bs).mapIdx fun i v => (off + 8 * i, v)
  match sp with
  | 0 => { x with
      mem := x.mem.writeBytes off bs
      ecc := x.ecc.filter fun e => !wordWhole e.1 (off, bs.length) }
  | 1 => { x with instrs := ws.foldl (fun m p => SMap.set 0 m (p.1 / 8) p.2) x.instrs }
  | 2 => ws.foldl (fun x p => putDescWord isPut x p.1 p.2) x
  | 3 => (List.range 64).foldl (putContext off bs) x
  | _ =>
    let m := (stateSpace x).writeBytes off bs
    let y := ofStateBlock x free m
    { y with stash := stashed y m }

/-! ### Desk bytes (R186, R348) -/

/-- A desk-virtual range translated page by page, up to the first cause: the pages, and the cause or 0. -/
def State.placePages : Nat → State → Nat → Nat → Bool → State × List (Nat × Nat) × Nat
  | 0, s, _, _, _ => (s, [], 0)
  | fuel + 1, s, va, len, store =>
    if len = 0 then (s, [], 0)
    else if 2 ^ 47 ≤ va then (s, [], 1)
    else
      let n := min len (2 ^ 21 - va % 2 ^ 21)
      let r := s.translate va store
      match r.2 with
      | .cause c => (r.1, [], c)
      | .ok pa _ =>
        let t := State.placePages fuel r.1 (va + n) (len - n) store
        (t.1, (pa, n) :: t.2.1, t.2.2)

/-- Bytes read page by page, with a mark on each that lies in an uncorrectable block; and the cause or 0. -/
def State.placeRead (s : State) (va len : Nat) : State × List (Byte × Bool) × Nat :=
  let p := State.placePages (len / 2 ^ 21 + 2) s va len false
  let r := p.2.1.foldl (fun (x : State × List (Byte × Bool) × Bool) g =>
    let r := x.1.deskRead g.1 g.2
    (r.1, x.2.1 ++ (r.1.deskBytes g.1 g.2).mapIdx (fun i b => (b, r.2.contains ((g.1 + i) / 64))), x.2.2 || !r.2.isEmpty))
    (p.1, [], false)
  (r.1, r.2.1, if r.2.2 then 3 else p.2.2)

/-- New bytes where `f` picks their 8 B word and they could be read, else old ones (R348). -/
def mixWords (f : Nat) (old : List Byte) (new : List (Byte × Bool)) : List Byte :=
  old.mapIdx fun i b =>
    match new[i]? with
    | some (v, bad) => if bad || f.testBit (i / 8) then b else v
    | none => b

/-- Bytes stored page by page, from the start of the range. -/
def State.placeStore (s : State) : List (Nat × Nat) → List Byte → State
  | [], _ => s
  | p :: ps, bs => (s.deskPut p.1 (bs.take p.2)).placeStore ps (bs.drop p.2)

/-! ### Running the list (R348) -/

/-- The list ends with a fault: status FAULT, the entry's index and its cause. -/
def State.placeStop (s : State) (k cause : Nat) : State :=
  { s with place := { s.place with
      running := false, status := 3, fault := cause <<< 24 + k % 2 ^ 21, done := [], failed := none } }

/-- Entries that have completed at the front of the list are passed. -/
def passDone : Nat → Nat → List Nat → Nat × List Nat
  | 0, k, ds => (k, ds)
  | fuel + 1, k, ds => if ds.contains k then passDone fuel (k + 1) (ds.filter (· ≠ k)) else (k, ds)

/-- Entry `k` is no longer in flight; a list that has faulted ends once no earlier entry is. -/
def State.placePast (s : State) (k : Nat) : State :=
  let p := passDone (s.place.done.length + 1) s.place.next (s.place.done ++ [k])
  let s : State := { s with place := { s.place with next := p.1, done := p.2 } }
  match s.place.failed with
  | some f => if f.1 ≤ p.1 then s.placeStop f.1 f.2 else s
  | none => s

/-- Entry `k` has faulted: no later entry starts, those before it finish, and the first fault is reported (R348). -/
def State.placeFault (s : State) (k cause : Nat) : State :=
  match s.place.failed with
  | some _ => s.placePast k
  | none =>
    if s.place.next = k then s.placeStop k cause
    else { s with place := { s.place with failed := some (k, cause) } }

/-- Entry `k` has completed. -/
def State.placeDone (s : State) (k : Nat) : State := (s.placePast k).bump 0x8082 0 1

/-- What an entry touches: the nib, or none for all of them; a range of a space; and desk bytes. A START stands for its nib's STATE
space (log entry 14). -/
def placeTouch (e : Nat) : Option (Option Nat × Nat × (Nat × Nat)) × (Nat × Nat) :=
  let nib := if bit e 248 then none else some (field e 245 233)
  let rng := (placeOffset e, placeLength e)
  match placeOp e with
  | 0 => (none, (0, 0))
  | 4 => (some (nib, 4, (0, spaceSize 4)), (0, 0))
  | 3 => (some (nib, placeSpace e, rng), (0, 0))
  | _ => (some (nib, placeSpace e, rng), (placeDesk e, placeLength e))

/-- An entry waits for an earlier one: the same nib and an overlapping range of one space, or overlapping desk bytes (R348). -/
def placeWaits (e earlier : Nat) : Bool :=
  let a := placeTouch e
  let b := placeTouch earlier
  overlaps a.2 b.2 ||
    match a.1, b.1 with
    | some x, some y => x.2.1 = y.2.1 && overlaps x.2.2 y.2.2 && (x.1.isNone || y.1.isNone || x.1 = y.1)
    | _, _ => false

/-- The list searched in order from entry `k` for the first of an OP that waits for none of the `earlier` entries in flight: a cause that
an entry meets before it moves a byte faults it, and one of another OP waits for its own row (R348). -/
def State.placeFrom (op : Nat) (eff : State → Nat → Nat → List Nat → State) : Nat → State → Nat → List Nat → State
  | 0, s, _, _ => s
  | fuel + 1, s, k, earlier =>
    if s.place.done.contains k then State.placeFrom op eff fuel s (k + 1) earlier
    else
      let r := s.placeRead (s.place.base + 32 * k) 32
      if r.2.2 ≠ 0 then r.1.placeFault k r.2.2
      else
        let e := natLE (r.2.1.map Prod.fst)
        if !placeEntryOk e then r.1.placeFault k 6
        else
          match r.1.placeNibs e with
          | none => r.1.placeFault k 6
          | some ns =>
            if placeOp e = op && !(earlier.any (placeWaits e)) then eff r.1 k e ns
            else State.placeFrom op eff fuel r.1 (k + 1) (e :: earlier)

/-- The row of one OP of the place list: it acts while the engine runs and the binding is OFF (01 R16). -/
def State.placeEntry (s : State) (op : Nat) (eff : State → Nat → Nat → List Nat → State) : State :=
  let last := (s.place.failed.map Prod.fst).getD s.place.count
  if !s.place.running || s.binding.fn.code ≠ .off then s
  else State.placeFrom op eff (last - s.place.next) s s.place.next []

/-- PUT (R345, R348). -/
def State.put (s : State) (k e : Nat) (ns : List Nat) : State :=
  let sp := placeSpace e
  let off := placeOffset e
  let len := placeLength e
  let r := s.placeRead (placeDesk e) len
  let bs := r.2.1.map Prod.fst
  if r.2.2 ≠ 0 then
    let f := r.1.free
    let s := r.1.took
    (ns.foldl (fun s n => s.updNib n fun x =>
      putSpace true x (Config.free s.fresh) sp off (mixWords f (getSpace x sp off len) r.2.1)) s).took.placeFault k r.2.2
  else
    let entries := (List.range ((min (off + len) 20480 - off) / 40)).map fun i => natLE (slice bs (40 * i) 40)
    if sp = 2 && entries.any fun d => !descReservedOk d then r.1.placeFault k 6
    else
      let f := r.1.free
      (ns.foldl (fun s n => s.updNib n fun x => putSpace true x f sp off bs) r.1.took).placeDone k

/-- GET (R345, R348). With ALL, each 8 B word comes from one of the nibs, a free choice (log entry 14). -/
def State.get (s : State) (k e : Nat) (ns : List Nat) : State :=
  let sp := placeSpace e
  let off := placeOffset e
  let len := placeLength e
  let p := State.placePages (len / 2 ^ 21 + 2) s (placeDesk e) len true
  let ue := if sp = 0 then
      ns.foldl (fun (x : State × Bool) n =>
        let r := x.1.readStores n (if len = 0 then [] else [(off, len)])
        (r.1, x.2 || r.2.isSome)) (p.1, false)
    else (p.1, false)
  let m := p.2.1.foldl (fun (x : State × List Nat) g =>
    let r := x.1.deskMerge g.1 g.2
    (r.1, x.2 ++ r.2)) (ue.1, [])
  let s := m.1
  let cause := if p.2.2 ≠ 0 then p.2.2 else if ue.2 then 4 else if !m.2.isEmpty then 3 else 0
  let all := ns.map fun n => getSpace (s.nib n) sp off len
  let pick (i : Nat) : List Byte :=
    if all.length = 1 then all.headD [] else all.getD (s.free / all.length ^ (i / 8) % all.length) []
  let new := (List.range len).map fun i => (pick i).getD i 0
  let old := p.2.1.flatMap fun g => s.deskBytes g.1 g.2
  let s := s.took
  if cause ≠ 0 then
    let f := s.free
    let bad := p.2.1.flatMap fun g => (List.range g.2).map fun i => m.2.contains ((g.1 + i) / 64)
    (s.took.placeStore p.2.1 (mixWords f old (new.zip bad))).placeFault k cause
  else (s.placeStore p.2.1 new).placeDone k

/-- FILL (R344, R345). -/
def State.fill (s : State) (k e : Nat) (ns : List Nat) : State :=
  let f := s.free
  (ns.foldl (fun s n => s.updNib n fun x =>
    putSpace false x f (placeSpace e) (placeOffset e) (List.replicate (placeLength e) 0)) s.took).placeDone k

/-- The scalar state of R104. -/
def scalarReset (x : Nib) : Nib :=
  { x with counters := [], cmps := [], queues := [], slots := [], tags := {}, issue := { x.issue with loops := [] } }

/-- What a pre-emption left is cleared (R347). -/
def clearLeft (x : Nib) : Nib :=
  { x with
    resq := []
    rbase := []
    inbox := []
    slots := x.slots.filter fun o => o.kind ≠ .send && o.kind ≠ .recv }

/-- A FRESH START (R347, 04 R104): the scalar state, the halt CODE and fault record of before, what a PUT of STATE has left, and the
descriptor entries that a dload wrote over those of the loader are gone. -/
def freshStart (x : Nib) : Nib :=
  let x := scalarReset x
  { x with
    issue := { x.issue with haltCode := 0, faultRec := 0 }
    stash := []
    descs := x.descs.filter fun e => !SMap.get false x.dloaded e.1
    dloaded := [] }

/-- START on one nib (R347). -/
def startPlaced (e : Nat) (x : Nib) : Nib :=
  let x := if bit e 247 then freshStart x else x
  let x := if bit e 246 then x else clearLeft x
  let a := field e 232 220
  { x with issue := { x.issue with
      placed := true
      run := .placed
      hold := .none
      resume := bit e 246
      addr := if a = 0x1000 then x.issue.addr else a } }

/-- START (R347). -/
def State.start (s : State) (k e : Nat) (ns : List Nat) : State :=
  (ns.foldl (fun s n => s.updNib n (startPlaced e)) s).placeDone k

/-- The row PUT. -/
def execPlacePut (s : State) : Out := .next (s.placeEntry 1 State.put)
/-- The row GET. -/
def execPlaceGet (s : State) : Out := .next (s.placeEntry 2 State.get)
/-- The row FILL. -/
def execPlaceFill (s : State) : Out := .next (s.placeEntry 3 State.fill)
/-- The row START. -/
def execPlaceStartNib (s : State) : Out := .next (s.placeEntry 4 State.start)
/-- The row PLACE_NOP. -/
def execPlaceNop (s : State) : Out := .next (s.placeEntry 0 fun s k _ _ => s.placeDone k)

/-- The row PLACE_LIST_COMPLETE (R348). -/
def State.placeEnd (s : State) : State :=
  if s.place.running && s.place.count ≤ s.place.next && s.binding.fn.code = .off then
    { s with place := { s.place with running := false, status := 2 } }
  else s

/-- The row PLACE_LIST_COMPLETE. -/
def execPlaceListComplete (s : State) : Out := .next s.placeEnd

/-- A write of 1 to 0x2B12:00 (R348): refused, or the engine starts on the list of 0x2B10:00 and 0x2B11:00. -/
def State.placeBegin (s : State) : Option State :=
  if s.binding.fn.code ≠ .off || s.place.running then none
  else some { s with place :=
    { running := true, next := 0, base := s.obj 0x2B10 0, count := s.obj 0x2B11 0, status := 1, fault := s.place.fault } }

end Sys2Proof.Machine
end

