-- ==== Sys2Proof/Machine/Sha3.lean ====
section
/-! DEFINITION. SHA3-256 (12 R361; 15 R435, R441-R444), as FIPS 202 defines it (log entry 7). The turns and the round constants are
computed, by the walk over the columns and the shift register through which the standard defines them. -/

namespace Sys2Proof.Machine

/-- A 64-bit lane turned left by `n`. -/
def laneTurn (v n : Nat) : Nat := v * 2 ^ (n % 64) % 2 ^ 64 + v / 2 ^ (64 - n % 64)

/-- The 25 lanes of a sponge as five rows of five. -/
abbrev Sponge := List (List Nat)

/-- Lane of a column and a row, both counted modulo 5. -/
def Sponge.at (g : Sponge) (col row : Nat) : Nat := (g.getD (row % 5) []).getD (col % 5) 0

/-- A sponge given by its lanes. -/
def spongeOf (f : Nat → Nat → Nat) : Sponge := (List.range 5).map fun row => (List.range 5).map fun col => f col row

/-- The walk of ρ: from column 1 of row 0 each step goes to column `row` of row 2·col + 3·row, and step k turns its lane by
(k+1)(k+2)/2. The lanes met, with their turns. -/
def turnWalk : Nat → Nat → Nat → Nat → List ((Nat × Nat) × Nat)
  | 0, _, _, _ => []
  | left + 1, k, col, row => ((col, row), (k + 1) * (k + 2) / 2) :: turnWalk left (k + 1) row ((2 * col + 3 * row) % 5)

/-- The turn of a lane, 0 for the one the walk does not meet. -/
def turnOf (col row : Nat) : Nat := (((turnWalk 24 0 1 0).find? fun e => e.1 = (col, row)).map Prod.snd).getD 0

/-- The bits that the shift register of ι gives, `left` of them, from its content `r`: x⁸ + x⁶ + x⁵ + x⁴ + 1. -/
def iotaBits : Nat → Nat → List Bool
  | 0, _ => []
  | left + 1, r => bit r 0 :: iotaBits left (if bit r 7 then (2 * r % 256) ^^^ 0x71 else 2 * r)

/-- A round constant: the seven bits of its round stand at places 2^j − 1. -/
def iotaConst (bs : List Bool) : Nat := ((bs.take 7).mapIdx fun j b => if b then 2 ^ (2 ^ j - 1) else 0).sum

/-- The constants of the 24 rounds. -/
def iotaConsts : List Nat :=
  let bs := iotaBits 168 1
  (List.range 24).map fun r => iotaConst (bs.drop (7 * r))

/-- Parity of a column. -/
def Sponge.parity (g : Sponge) (col : Nat) : Nat := (g.map fun row => row.getD (col % 5) 0).foldl Nat.xor 0

/-- θ: each lane meets the parities of the columns beside it. -/
def stepTheta (g : Sponge) : Sponge :=
  let sides := (List.range 5).map fun col => g.parity (col + 4) ^^^ laneTurn (g.parity (col + 1)) 1
  g.map fun row => List.zipWith Nat.xor row sides

/-- ρ and π: the lane of column `col` and row `row` comes, turned, from column col + 3·row of row `col`. -/
def stepRhoPi (g : Sponge) : Sponge :=
  spongeOf fun col row =>
    let from_ := (col + 3 * row) % 5
    laneTurn (g.at from_ col) (turnOf from_ col)

/-- χ: each lane meets the next but one of its row where the next is clear. -/
def stepChi (g : Sponge) : Sponge :=
  g.map fun row => (List.range 5).map fun col =>
    let next := row.getD ((col + 1) % 5) 0
    let far := row.getD ((col + 2) % 5) 0
    row.getD col 0 ^^^ (far - (next &&& far))

/-- ι: the round constant enters the first lane. -/
def stepIota (c : Nat) (g : Sponge) : Sponge :=
  spongeOf fun col row => if col = 0 && row = 0 then g.at 0 0 ^^^ c else g.at col row

/-- The 24 rounds. -/
def permuteSponge (g : Sponge) : Sponge := iotaConsts.foldl (fun g c => stepIota c (stepChi (stepRhoPi (stepTheta g)))) g

/-- A block of 136 B joined to the first 17 lanes. -/
def joinBlock (g : Sponge) (b : List Byte) : Sponge :=
  spongeOf fun col row =>
    let i := col + 5 * row
    if i < 17 then g.at col row ^^^ natLE (slice b (8 * i) 8) else g.at col row

/-- Whole blocks taken in order. -/
def takeBlocks : Nat → List Byte → Sponge → Sponge
  | 0, _, g => g
  | left + 1, bs, g => takeBlocks left (bs.drop 136) (permuteSponge (joinBlock g (bs.take 136)))

/-- A message with the padding of SHA3: 0x06, zeros, 0x80 in the last byte of the block. -/
def sha3Pad (bs : List Byte) : List Byte :=
  let n := 136 - bs.length % 136
  bs ++ if n = 1 then [0x86] else 0x06 :: (List.replicate (n - 2) 0 ++ [0x80])

/-- SHA3-256. -/
def sha3 (bs : List Byte) : List Byte :=
  let p := sha3Pad bs
  let g := takeBlocks (p.length / 136) p (spongeOf fun _ _ => 0)
  (List.range 4).flatMap fun col => bytesLE 8 (g.at col 0)

end Sys2Proof.Machine
end

