-- ==== Sys2Proof/Machine/LedgerRead.lean ====
section
/-! DEFINITION. What a read of a Ledger object returns (12 R355-R359, R376, R378; the object tables of every chapter). -/

namespace Sys2Proof.Machine

/-! ### Values that other state holds -/

/-- The home nib of a context (R151): its virtual index. -/
def State.homeNib (s : State) (k : Nat) : Option Nat :=
  (s.nibs.find? fun e => (e.2.ctx k).bound && (e.2.ctx k).home).map Prod.fst

/-- 0x2600:cc (R174). -/
def State.contextState (s : State) (k : Nat) : Nat :=
  match s.homeNib k with
  | none => 0
  | some n =>
    let c := (s.nib n).ctx k
    2 ^ 63 + (c.drafts % 128) <<< 56 + c.committed % 2 ^ 32

/-- 0x2A22:cc (R326): the lowest marked C over the bound nibs, and STALE. -/
def State.mirrorState (s : State) (k : Nat) : Nat :=
  let bound := s.nibs.filter fun e => (e.2.ctx k).bound
  let marks := bound.map fun e => SMap.get 0 e.2.mirror.marked k
  let low := marks.foldl min (marks.headD 0)
  low % 2 ^ 31 + if bound.any fun e => SMap.get false e.2.mirror.stale k then 2 ^ 31 else 0

/-- 0x2804:00 (R319). -/
def State.jobState (s : State) : Nat :=
  match s.binding.fn.code with
  | .on => 1
  | .opening => 2
  | .closing => 2
  | .off => if s.planApplied then 2 else 0

/-- 0x2C00:00 (R395, R404, R406). -/
def State.recoveryState (s : State) : Nat :=
  let r := s.recovery
  if r.retired.isSome then 4
  else if r.held.isSome then 3
  else if r.abort.isSome then 1
  else if !r.steps.isEmpty || !r.wanted.isEmpty then 2
  else 0

/-- A part reset is in progress (R393, R431). -/
def State.inPartReset (s : State) : Bool := s.boot.phase ≠ .running

/-- Service time in ms (R403): time spent in part reset is not counted. -/
def State.serviceTime (s : State) : Nat :=
  s.recovery.serviceMs + (if s.inPartReset then 0 else s.time.ticks / 2000000)

/-- 0x2C01:00 (R406). -/
def State.resetStepNow (s : State) : Nat :=
  if s.inPartReset then 4 else (s.recovery.steps.map ResetStep.step).foldl max 0

/-- 0x603A:qq (R262): two bits a stroke. -/
def useMap (m : SMap Nat) : List Byte :=
  (List.range 256).map fun i => BitVec.ofNat 8 <|
    (List.range 4).foldl (fun a j => a + (SMap.get 0 m (4 * i + j) % 4) <<< (2 * j)) 0

/-- 0x8090:ss, the record of the log at subindex `sub` (R379). -/
def State.logRecord (s : State) (sub : Nat) : List Byte :=
  match s.agent.log.find? fun r => r.eseq % 64 + 1 = sub with
  | some r => r.bytes
  | none => List.replicate 24 0

/-- A slot record (R434). -/
def SlotRec.bits (r : SlotRec) : Nat :=
  (r.fwver % 2 ^ 32) <<< 96 + (r.svn % 256) <<< 88 + (r.st % 4) <<< 62 + (r.tries % 4) <<< 60 +
    (if r.pref then 2 ^ 59 else 0) + r.len % 2 ^ 32

/-- The retirement record (R404, R406). -/
def State.retireRecord (s : State) : List Byte := padTo 16 s.flash.retired

/-- The identity key seed ξ (15 R442). -/
def State.xi (s : State) : List Byte := sha3 (ascii "VZID" ++ padTo 32 s.fuses.seed)

/-- 0x2F10:pp (R466). -/
def Pin.byte (p : Pin) : Nat := (if p.stuck then 128 else 0) + (if p.armed then 64 else 0) + if p.level then 1 else 0

/-- Little-endian bytes of a sparse table of `n` entries of `k` bytes each. -/
def tableBytes (k n : Nat) (m : SMap Nat) : List Byte := (List.range n).flatMap fun i => bytesLE k (SMap.get 0 m i)

/-- The copy that is not in force. -/
def otherCopy (c : Nat) : Nat := if c = 1 then 0 else 1

/-- The copy of the Endpoint Table not in force (R291). -/
def State.spareEndpoints (s : State) : SMap Nat := if s.obj 0x2901 0 = 1 then s.margin.eps0 else s.margin.eps1

/-- Epochs' outstanding requests and other numeric objects that other state holds; none for an object of `objs`. -/
def State.derivedNum (s : State) (index sub : Nat) : Option Nat :=
  match index with
  | 0x1000 =>
    match sub with
    | 2 => some s.fuses.serial
    | 3 => some s.fuses.grade
    | 4 => some s.fuses.stepping
    | 5 => some s.boot.fwver
    | _ => none
  | 0x1002 => if sub = 1 then some s.gridRows else none
  | 0x1004 => some ([16, 6, 10, 6, 4, 2].getD (sub - 1) 0)
  | 0x2600 => some (s.contextState sub)
  | 0x2621 => some s.deskSize
  | 0x2700 => some s.now
  | 0x2701 => some s.time.st
  | 0x2702 => some (s.time.parent.getD 0xFF)
  | 0x2703 => some s.hopsNow
  | 0x2704 => some (unsigned 32 (s.time.theta.mulInt 16).floor)
  | 0x2705 => some (unsigned 32 ((s.time.adj.mulInt 1000000000).divNat 24576).floor)
  | 0x2709 => some s.anchorStatus
  | 0x2804 => some s.jobState
  | 0x2805 => some s.lines.planLine
  | 0x2A11 => some s.binding.fn.byte
  | 0x2A22 => some (s.mirrorState sub)
  | 0x2B13 => some s.place.status
  | 0x2B14 => some s.place.fault
  | 0x2C00 => some s.recoveryState
  | 0x2C01 => some s.resetStepNow
  | 0x2C02 => some s.recovery.newestSeq
  | 0x2C03 => some s.recovery.newestSlot
  | 0x2C05 => some s.serviceTime
  | 0x2D00 => some (s.boot.rejected <<< 8 + s.boot.slot)
  | 0x2D06 => some s.fuses.floor
  | 0x2D07 => some ((List.range 4).foldl (fun a k => a + if s.fuses.revoked.contains k then 2 ^ k else 0) 0)
  | 0x2D08 => some s.flash.boots
  | 0x2E03 => some s.txl.link.num
  | 0x2E04 => some (match s.binding.doorbell with
    | some (n, q) => 2 ^ 31 + n <<< 4 + q
    | none => 0)
  | 0x2F10 => some (SMap.get ({} : Pin) s.pins.inputs (sub - 1)).byte
  | 0x6040 => some (s.quill sub).link.num
  | 0x6047 => some (s.occupancy sub)
  | 0x6058 => some (s.quill sub).fn.byte
  | 0x8030 => if sub = 0 then some s.entriesUsed else none
  | 0x8035 => some (if s.desk.flushing.isSome then 1 else 0)
  | 0x8036 => some s.desk.preempt.status
  | 0x8055 => some s.liftCount
  | 0x8080 => some s.binding.halted
  | 0x8081 => some s.binding.firstHalt
  | 0x8090 => if sub = 0 then some s.agent.eseq else none
  | 0x9000 => some s.agent.staging.instant
  | 0x9001 => some s.agent.staging.st.num
  | 0x9002 => some s.agent.staging.owner
  | 0x9003 => some s.agent.staging.firstFail
  | 0x9004 => some s.agent.staging.vals.length
  | 0x9005 => some s.agent.staging.lastApply
  | _ => none

/-- BLOB and STR objects that other state holds; none for one of `blobs`. -/
def State.derivedBlob (s : State) (index sub : Nat) : Option (List Byte) :=
  match index with
  | 0x1000 => some (ascii "Volzin Yalhedel Octuf")
  | 0x1001 => if sub = 4 then some (padTo 6 s.fuses.mac) else none
  | 0x1003 =>
    if sub = 1 then
      some ((List.range 128).map fun r => BitVec.ofNat 8 (if r < s.gridRows then s.physRow r else 0xFF))
    else some ((List.range 64).map fun c => BitVec.ofNat 8 (s.physCol c))
  | 0x2601 => some (match s.homeNib sub with
    | some n => bytesLE 16 ((s.nib n).ctx sub).binding
    | none => List.replicate 16 0)
  | 0x2C04 => some s.retireRecord
  | 0x2D01 => some (padTo 1312 (Config.identityKey s.xi))
  | 0x2D02 => some (padTo 4096 s.flash.cert)
  | 0x2D05 => some (bytesLE 16 (if sub = 1 then s.flash.slotA else s.flash.slotB).bits)
  | 0x6030 => some (tableBytes 8 1024 ((s.quill sub).plan (otherCopy s.planCopy)).tx)
  | 0x6031 => some (tableBytes 8 1024 ((s.quill sub).plan (otherCopy s.planCopy)).rx)
  | 0x6032 => some (tableBytes 16 256 ((s.quill sub).plan (otherCopy s.planCopy)).bufs)
  | 0x603A => some (useMap (s.quill sub).ruled.usesDone)
  | 0x8030 => some (match SMap.get none s.desk.entries (sub - 1) with
    | some e => bytesLE 16 e.bits
    | none => List.replicate 16 0)
  | 0x8090 => some (s.logRecord sub)
  | _ => if 0x5000 ≤ index && index ≤ 0x500F then
      some (bytesLE 16 (SMap.get 0 s.spareEndpoints ((index - 0x5000) * 256 + sub)))
    else none

/-- The numeric value in force of an object. -/
def State.readNum (s : State) (index sub : Nat) : Nat := (s.derivedNum index sub).getD (s.obj index sub)

/-- The value in force of an object, as it travels (R356). -/
def State.readValue (s : State) (e : ObjEntry) (index sub : Nat) : List Byte :=
  if e.type.size = 0 then
    (s.derivedBlob index sub).getD (s.blob index sub e.blob)
  else bytesLE e.type.size (s.readNum index sub)

/-- A read result (R365) of a value read whole. -/
def readResult (index sub status type : Nat) (total : Nat) (data : List Byte) : List Byte :=
  bytesLE 2 index ++ bytesLE 1 sub ++ bytesLE 1 status ++ bytesLE 1 type ++ bytesLE 1 0 ++ bytesLE 2 data.length ++
    bytesLE 4 total ++ padTo (4 * ceilDiv data.length 4) data

end Sys2Proof.Machine
end

