-- ==== Sys2Proof/Machine/Blotter.lean ====
section
/-! DEFINITION. Units and their progress, and the blotter record (13 R383, R398-R402). -/

namespace Sys2Proof.Machine

/-! ### Units (R383, R385) -/

/-- The nib's unit has work: 0 issue, 1 matrix, 2 vector, 3 send, 4 recv, 5–8 reservoir queues (R385). -/
def Nib.unitBusy (x : Nib) (u : Nat) : Bool :=
  match u with
  | 0 => x.issue.run = .running || x.issue.run = .halting
  | 1 => x.slots.any fun o => o.kind.engine = .matrix
  | 2 => x.slots.any fun o => o.kind.engine = .vector
  | 3 => x.slots.any fun o => o.kind = .send && o.left ≠ 0
  | 4 => x.slots.any fun o => o.kind = .recv
  | _ => !(x.resQueue (u - 5)).isEmpty

/-- The issue unit waits in a way that the check covers (R383). -/
def Nib.issueChecked (x : Nib) : Bool :=
  match x.issue.run with
  | .halting => true
  | .running =>
    match x.issue.hold with
    | .none => false
    | .tokens _ event => !event
    | _ => true
  | _ => false

/-- The unit is checked (R383). -/
def Nib.unitChecked (x : Nib) (u : Nat) : Bool :=
  match u with
  | 0 => x.issueChecked
  | 4 => x.slots.any fun o => o.kind = .recv && !o.partials.isEmpty
  | 5 => !(((x.resQueue 0).head?.map Transfer.isStopped).getD true)
  | 6 => !(((x.resQueue 1).head?.map Transfer.isStopped).getD true)
  | 7 => !(((x.resQueue 2).head?.map Transfer.isStopped).getD true)
  | 8 => !(((x.resQueue 3).head?.map Transfer.isStopped).getD true)
  | u => x.unitBusy u

/-! ### The region header (R400) -/

/-- Base of the blotter region. -/
def State.blotBase (s : State) : Nat := s.obj 0x4C01 0

/-- Desk memory can take a region at `base`: it has been started since the part reset, and the region lies in the data space
(R398, R400, R402). -/
def State.blotWritable (s : State) (base : Nat) : Bool := s.recovery.headerRead && base + 2 ^ 31 ≤ s.deskSize

/-- A tally time, or all ones. -/
def tallyBytes (t : Option Nat) : List Byte := bytesLE 8 (t.getD (2 ^ 64 - 1))

/-- The region header (R400). -/
def State.regionHeader (s : State) : List Byte :=
  ascii "BLTH" ++ bytesLE 2 1 ++ bytesLE 1 s.recovery.newestSlot ++ bytesLE 1 0 ++ bytesLE 4 s.recovery.newestSeq ++
    bytesLE 4 0 ++ bytesLE 8 s.serviceTime ++ tallyBytes s.recovery.tc1 ++ tallyBytes s.recovery.tc2 ++
    bytesLE 8 (s.obj 0x80A5 3) ++ bytesLE 8 (s.obj 0x80A5 4) ++ bytesLE 8 0

/-- The region header is written, and with it the service time (R400, R403). -/
def State.saveHeader (s : State) : State :=
  let s : State := { s with recovery := { s.recovery with savedMs := s.serviceTime } }
  if s.blotWritable s.blotBase then s.deskPut s.blotBase s.regionHeader else s

/-- Units of a nib that have not come to rest: engines with an operation in flight, queues with a chunk in flight (R393). -/
def Nib.hung (x : Nib) : List Nat :=
  [1, 2, 3, 4].filter (fun u => x.slots.any fun o => !o.written && o.unit = u) ++
    ((List.range 4).filter fun q => (x.resQueue q).any fun t => !t.flight.isEmpty).map (· + 5)

/-! ### A record (R401) -/

/-- The record header (R401). -/
def State.recordHeader (s : State) (j : BlotterJob) (complete : Bool) : List Byte :=
  let a := if j.trigger = 0 then s.recovery.lastAbort else none
  ascii "BLTR" ++ bytesLE 2 1 ++ bytesLE 1 (if complete then 1 else 0) ++ bytesLE 1 j.trigger ++ bytesLE 4 j.seq ++
    bytesLE 1 j.reason ++ bytesLE 1 0 ++ bytesLE 2 s.jobTag ++ bytesLE 8 j.time ++ bytesLE 8 s.serviceTime ++
    bytesLE 2 ((a.map Abort.origin).getD 0) ++ bytesLE 1 ((a.map Abort.bseq).getD 0) ++ bytesLE 5 0 ++
    bytesLE 8 (s.obj 0x80A4 0) ++ bytesLE 8 (s.obj 0x8010 0) ++ bytesLE 8 0 ++ s.blob 0x2B00 0 64 ++ s.blob 0x2B02 0 32

/-- Entry states of a quill (R401): one byte a stroke, TX then RX. -/
def RuledPort.stateBytes (p : RuledPort) : List Byte :=
  let fl (m : SMap Bool) (i k : Nat) : Nat := if SMap.get false m i then k else 0
  (List.range 1024).map (fun i => BitVec.ofNat 8 (fl p.owed i 1 + fl p.holding i 4)) ++
    (List.range 1024).map fun i => BitVec.ofNat 8 (fl p.awaiting i 2)

/-- Landing-buffer marks of a quill (R401): two bits a word. -/
def RuledPort.markBytes (p : RuledPort) : List Byte :=
  let two (w : Nat) : Nat := (if p.isFull w then 1 else 0) + if p.isLanded w then 2 else 0
  (List.range 2048).map fun i => BitVec.ofNat 8 (two (4 * i) + 4 * two (4 * i + 1) + 16 * two (4 * i + 2) + 64 * two (4 * i + 3))

/-- Every object of 0x7000–0x8FFF as read results, in index order (R401). -/
def State.counterResults (s : State) : List Byte :=
  (dictionary.filter fun e => 0x7000 ≤ e.first && e.last ≤ 0x8FFF).flatMap fun e =>
    (List.range (e.last + 1 - e.first)).flatMap fun i => (List.range (e.hi + 1 - e.lo)).flatMap fun j =>
      let v := s.readValue e (e.first + i) (e.lo + j)
      readResult (e.first + i) (e.lo + j) 0 e.type.code v.length v

/-- An entry of the request store (R401): the header, then state, timer and RETRY, in widths of the model's own (log entry
29). -/
def State.requestEntry (s : State) (r : Request) : List Byte :=
  bytesBE 64 r.hdr ++ bytesLE 8 (if r.parked.isSome then 2 else 1) ++ bytesLE 8 (s.now - r.sentAt) ++ bytesLE 8 (mRetry r.hdr)

/-- An in-flight slot (R401), in a layout of the model's own (log entry 29); the input cycles done are a free value. -/
def slotRecord (free : Nat) (o : InFlight) : List Byte :=
  bytesLE 8 o.word ++ bytesLE 2 o.addr ++ bytesLE 1 (o.gen % 8 + (o.epoch % 2) <<< 3) ++ bytesLE 1 0 ++ bytesLE 4 free

/-- A reset step in progress covers a unit of the nib (R393). -/
def State.unitInReset (s : State) (n u : Nat) : Bool :=
  s.recovery.steps.any fun t =>
    match t.step with
    | 1 => t.nib = s.physNib n && t.unit = u
    | 2 => t.nib = s.physNib n
    | _ => true

/-- The state of a unit (R401): 0 idle, 1 busy, 2 hung when an abort has ended without its coming to rest, 3 in reset. Unit 9 is the mesh
of the nib's quire. -/
def State.unitState (s : State) (n : Nat) (x : Nib) (trigger u : Nat) : Nat :=
  let busy : Bool := if u = 9 then s.meshQuires.contains (s.nibQuire n) else x.unitBusy u
  let hung : Bool := if u = 9 then busy else if u = 0 then x.issue.run = .running else x.hung.contains u
  if s.unitInReset n u then 3 else if trigger = 0 && hung then 2 else if busy then 1 else 0

/-- The nib record (R401): byte strings at offsets. -/
def State.blotNib (s : State) (n : Nat) (x : Nib) (trigger free : Nat) : List (Nat × List Byte) :=
  let mesh := SMap.get ({} : Quire) s.quires (s.nibQuire n)
  let unit (u : Nat) : List Byte :=
    bytesLE 4 (s.unitState n x trigger u) ++ bytesLE 4 (if u = 9 then mesh.meshMoves else SMap.get 0 x.progress u) ++
      bytesLE 8 (if u = 9 then mesh.meshAt else SMap.get 0 x.progressAt u)
  let packets := s.packetsFor n
  let res := (nibRecord x packets).1.filter fun p => p.1 < 0x4098
  [(0, (stateBlock x).readBytes 0 0x1100), (0x2000, (List.range 64).flatMap fun k => (x.ctx k).block)] ++
    x.slots.map (fun o => (0x4000 + 64 * o.slot, slotRecord free o)) ++
    [(0x4100, (List.range 10).flatMap unit)] ++ res.map (fun p => (0x4400 + p.1, p.2)) ++
    [(0x9000, (fitParked 28672 packets).1)]

/-- The body of a record (R401): byte strings at offsets of the slot. -/
def State.recordBody (s : State) (trigger free : Nat) : List (Nat × List Byte) :=
  let qs := List.range 16
  qs.flatMap (fun q =>
    let c := (s.quill q).plan s.planCopy
    let p := (s.quill q).ruled
    [(0x1000 + 16384 * q, tableBytes 8 1024 c.tx), (0x1000 + 16384 * q + 8192, tableBytes 8 1024 c.rx),
      (0x41000 + 4096 * q, tableBytes 16 256 c.bufs), (0x51000 + 2048 * q, p.stateBytes), (0x59000 + 2048 * q, p.markBytes)]) ++
    [(0x61000, s.counterResults)] ++
    (s.margin.requests.filterMap fun e => e.2).mapIdx (fun i r => (0x161000 + 128 * i, s.requestEntry r)) ++
    (List.range (s.gridRows * 64)).flatMap fun n =>
      (s.blotNib n (s.nib n) trigger free).map fun p => (0x400000 + 65536 * s.physNib n + p.1, p.2)

/-- Desk-physical base of a record slot of the region at `base` (R398). -/
def slotBase (base slot : Nat) : Nat := base + (if slot = 0 then 0x200000 else 0x40000000)

/-- A record begins (R402): the header with COMPLETE = 0, then the body; without a writable region there is no record. -/
def State.beginRecord (s : State) (trigger reason time : Nat) : State :=
  if !s.blotWritable s.blotBase then s
  else
    let r := s.recovery
    let j : BlotterJob := ⟨s.blotBase, if r.newestSlot = 0 then 1 else 0,
      if r.newestSlot = 0xFF then 1 else (r.newestSeq + 1) % 2 ^ 32, trigger, reason, time⟩
    let f := s.free
    let s := s.took
    let base := slotBase j.base j.slot
    let body := s.recordBody trigger f
    let s := (s.zeroDesk base 0x21400000).deskPut base (s.recordHeader j false)
    let s := s.putPieces base body
    { s with recovery := { s.recovery with record := some j } }

/-- The record being written is complete (R402): COMPLETE = 1, then the header of its region, which a change of 0x4C01:00 since its
beginning has not moved (R399), and the header of the region in force. -/
def State.endRecord (s : State) : State :=
  match s.recovery.record with
  | none => s
  | some j =>
    let s := s.deskPut (slotBase j.base j.slot + 6) [1]
    let s : State := { s with recovery := { s.recovery with
      record := none, recordDone := some s.now, newestSeq := j.seq, newestSlot := j.slot } }
    (s.deskPut j.base s.regionHeader).saveHeader

end Sys2Proof.Machine
end

