-- ==== Sys2Proof/Machine/TensorOps.lean ====
section
/-! DEFINITION. mma, vop and cvt and their completion (02 R28-R30; 03; 04 R113-R120). -/

namespace Sys2Proof.Machine

/-- Format code of a tensor. -/
def Tensor.fcode (t : Tensor) : Nat := descFormat t.raw

/-- mma's checks beyond those of its operands (R66, R68, R114): the first that fails. -/
def mmaFault (d a b : Tensor) : Option Issued :=
  let fd := formatDetail d.fcode a.fcode b.fcode
  let fmtBad (t : Tensor) : Option Issued := some (.fault 0x03 (some t.handle) fd)
  let shape (t : Tensor) (dim : Nat) : Option Issued := some (.fault 0x04 (some t.handle) dim)
  if a.scaleFault then fmtBad a
  else if b.scaleFault then fmtBad b
  else if d.scaleFault then fmtBad d
  else
    match mmaPair a.fmt b.fmt with
    | none => fmtBad a
    | some win =>
      if !(d.fmt.isLane || (win && d.fmt.isWide)) then fmtBad d
      else if inWell b.base then some (.fault 0x02 (some b.handle) (localDetail b.base))
      else if a.ndim ≠ 2 then shape a (if a.ndim < 2 then 1 else 2)
      else if 2 < b.ndim then shape b 2
      else if 2 < d.ndim then shape d 2
      else if b.ext 0 ≠ a.ext 0 then shape b 0
      else if d.ext 0 ≠ a.ext 1 then shape d 0
      else if d.ext 1 ≠ b.ext 1 then shape d 1
      else none

/-- mma (R114). -/
def execMma (n : NibId) (w : BitVec 64) (s : State) : Out :=
  let w := w.toNat
  s.issue n 0x18 w (field w 20 0 = 0) fun s =>
    match (s.nib n).operands [(field w 44 36, false), (field w 35 27, false), (field w 53 45, true)] with
    | .error e => badOperand e
    | .ok [a, b, d] =>
      match mmaFault d a b with
      | some f => f
      | none =>
        let reads := a.ranges ++ b.ranges ++ (if bit w 26 then d.ranges else [])
        s.takeSlot n .mma w [d, a, b] reads d.ranges id
    | .ok _ => .go s

/-- What a matrix operation reads, writes and leaves (R114). -/
def InFlight.mmaWork (o : InFlight) : Option Work :=
  match o.tensors with
  | [d, a, b] =>
    let acc := bit o.word 26
    some ⟨a.touched ++ b.touched ++ (if acc then d.touched else []), d.touched, d.wholeParts, mmaResult d a b acc⟩
  | _ => none

/-- The row MMA_COMPLETE (R28): the oldest operation of the matrix engine writes its results. -/
def State.mmaDone (s : State) (n : Nat) : State :=
  match s.engineOp n .mma with
  | none => s
  | some o =>
    match o.mmaWork with
    | some w => (s.progress n 1).completeOp n o w
    | none => s

/-- The row MMA_COMPLETE. -/
def execMmaComplete (n : NibId) (s : State) : Out := .next (s.mmaDone n)

/-- Handles of vop's used sources (R117). -/
def vopHandles (w : Nat) : List Nat :=
  let u := vopUses (field w 17 13)
  [field w 44 36] ++ (if u.2.1 then [field w 35 27] else []) ++ (if u.2.2 then [field w 26 18] else [])

/-- Reserved codes and fields of a vop word (R113, R117). -/
def vopReserved (w : Nat) : Bool :=
  let u := vopUses (field w 17 13)
  field w 6 0 = 0 && field w 17 13 ≤ 14 && (u.2.1 || field w 35 27 = 0) && (u.2.2 || field w 26 18 = 0)

/-- The formats of R118 are kept. -/
def vopFormats (fn : Nat) (d : Tensor) (ss : List Tensor) : Bool :=
  if d.fmt.isWide then (fn = 0 || fn = 1 || fn = 14) && ss.all fun t => t.fmt.isWide
  else if !d.fmt.isLane then false
  else
    match fn, ss with
    | 10, [a, b, c] => a.fmt = d.fmt && b.fmt = d.fmt && c.fmt.isLane
    | _, ss => ss.all fun t => t.fmt = d.fmt

/-- The first source and dimension that break R119, with D's own dimension 0 under RED. -/
def vopShape (red : Bool) (d : Tensor) (ss : List Tensor) : Option (Nat × Nat) :=
  let len := if red then ss.foldl (fun m t => max m (t.ext 0)) 1 else d.ext 0
  if red && d.ext 0 ≠ 1 then some (d.handle, 0)
  else
    ss.findSome? fun t =>
      ([0, 1, 2, 3, 4].find? fun i =>
        t.ext i ≠ 1 && t.ext i ≠ (if i = 0 then len else d.ext i)).map fun i => (t.handle, i)

/-- vop's checks beyond those of its operands (R66, R118, R119). -/
def vopFault (fn : Nat) (red : Bool) (d : Tensor) (ss : List Tensor) : Option Issued :=
  let c (i : Nat) : Nat := (ss[i]?.map Tensor.fcode).getD 0
  let fd := formatDetail d.fcode (c 0) (c 1)
  match (d :: ss).find? Tensor.scaleFault with
  | some t => some (.fault 0x03 (some t.handle) fd)
  | none =>
    if !vopFormats fn d ss then some (.fault 0x03 (some d.handle) fd)
    else
      match vopShape red d ss with
      | some (h, i) => some (.fault 0x04 (some h) i)
      | none => none

/-- vop (R117-R119). -/
def execVop (n : NibId) (w : BitVec 64) (s : State) : Out :=
  let w := w.toNat
  s.issue n 0x19 w (vopReserved w) fun s =>
    match (s.nib n).operands ((field w 53 45, true) :: (vopHandles w).map fun h => (h, false)) with
    | .error e => badOperand e
    | .ok [] => .go s
    | .ok (d :: ss) =>
      match vopFault (field w 17 13) (bit w 12) d ss with
      | some f => f
      | none => s.takeSlot n .vop w (d :: ss) (ss.flatMap Tensor.ranges) d.ranges id

/-- What a vector operation reads, writes and leaves (R117). Sources a function does not use repeat the first. -/
def InFlight.vopWork (o : InFlight) : Option Work :=
  match o.tensors with
  | d :: s1 :: ss =>
    some ⟨(s1 :: ss).flatMap Tensor.touched, d.touched, d.wholeParts,
      vopResult d s1 (ss.headD s1) ((ss.drop 1).headD s1) (field o.word 17 13) (bit o.word 12)⟩
  | _ => none

/-- The row VOP_COMPLETE (R30). -/
def State.vopDone (s : State) (n : Nat) : State :=
  match s.engineOp n .vop with
  | none => s
  | some o =>
    match o.vopWork with
    | some w => (s.progress n 2).completeOp n o w
    | none => s

/-- The row VOP_COMPLETE. -/
def execVopComplete (n : NibId) (s : State) : Out := .next (s.vopDone n)

/-- cvt (R120). -/
def execCvt (n : NibId) (w : BitVec 64) (s : State) : Out :=
  let w := w.toNat
  s.issue n 0x1B w (field w 30 0 = 0) fun s =>
    match (s.nib n).operands [(field w 44 36, false), (field w 53 45, true)] with
    | .error e => badOperand e
    | .ok [src, d] =>
      let fd := formatDetail d.fcode src.fcode 0
      if src.scaleFault then .fault 0x03 (some src.handle) fd
      else if d.scaleFault then .fault 0x03 (some d.handle) fd
      else
        match [0, 1, 2, 3, 4].find? fun i => src.ext i ≠ d.ext i with
        | some i => .fault 0x04 (some d.handle) i
        | none => s.takeSlot n .cvt w [d, src] src.ranges d.ranges id
    | .ok _ => .go s

/-- What a conversion reads, writes and leaves (R120). -/
def InFlight.cvtWork (o : InFlight) : Option Work :=
  match o.tensors with
  | [d, src] => some ⟨src.touched, d.touched, d.wholeParts, cvtResult d src⟩
  | _ => none

/-- The row CVT_COMPLETE (R97). -/
def State.cvtDone (s : State) (n : Nat) : State :=
  match s.engineOp n .cvt with
  | none => s
  | some o =>
    match o.cvtWork with
    | some w => (s.progress n 2).completeOp n o w
    | none => s

/-- The row CVT_COMPLETE. -/
def execCvtComplete (n : NibId) (s : State) : Out := .next (s.cvtDone n)

end Sys2Proof.Machine
end

