-- ==== Sys2Proof/Machine/Reset.lean ====
section
/-! DEFINITION. Progress checks, received blots, the end of an abort, the reset ladder and retirement (13 R383-R406). -/

namespace Sys2Proof.Machine

/-! ### Progress checks (R383-R385) -/

/-- A failed unit: physical nib index, unit, quire, counter. -/
structure Failure where
  phys : Nat
  unit : Nat
  quire : Nat
  count : Nat
deriving DecidableEq, Repr

/-- The failure record (R385). -/
def Failure.bits (f : Failure) : Nat :=
  (f.phys % 2 ^ 16) <<< 48 + (f.unit % 16) <<< 44 + (f.quire % 16) <<< 40 + f.count % 2 ^ 32

/-- The checked units of nibs with their counters: sample key and failure. -/
def State.checkedNibs (s : State) : List (Nat × Failure) :=
  s.nibs.flatMap fun e => (List.range 9).filterMap fun u =>
    if e.2.unitChecked u then
      some (16 * e.1 + u, ⟨s.physNib e.1, u, s.nibQuire e.1, SMap.get 0 e.2.progress u⟩)
    else none

/-- Sample keys of mesh units lie past those of the nibs. -/
def meshKey (k : Nat) : Nat := 16 * 8192 + k

/-- The checked mesh units: those whose routers hold a flit (log entry 30). -/
def State.checkedMesh (s : State) : List (Nat × Failure) :=
  let ks := s.meshQuires
  ((List.range 16).filter ks.contains).map fun k => (meshKey k, ⟨0xFFFF, 9, k, (s.quire k).meshMoves⟩)

/-- The failure that is reported: the lowest physical nib index, and of one nib the lowest unit (R385). -/
def firstFailure : List Failure → Option Failure
  | [] => none
  | f :: fs =>
    match firstFailure fs with
    | none => some f
    | some g => if g.phys * 16 + g.unit < f.phys * 16 + f.unit then some g else some f

/-- The units that failed are recorded, counted and reported, and the job is blotted (R385). -/
def State.failProgress (s : State) (fs : List Failure) : State :=
  match firstFailure fs with
  | none => s
  | some f =>
    let s := if s.obj 0x80A4 0 = 0 then s.setObj 0x80A4 0 f.bits else s
    let s := fs.foldl (fun s f => s.bump 0x7030 f.quire 1) s
    (s.event 0x0B f.quire f.bits).blot 7

/-- The row PROGRESS_CHECK (R384), at a boundary of the progress window. -/
def State.checkProgress (s : State) : State :=
  let w := s.obj 0x4C00 0 * 1000
  let b := s.now / w * w
  if b ≤ s.recovery.lastBoundary then s
  else
    let units := if s.binding.fn.code = .on && s.obj 0x4C06 0 = 1 then s.checkedNibs ++ s.checkedMesh else []
    let old := s.recovery.samples
    let fs := (units.filter fun u => SMap.get none old u.1 = some u.2.count).map Prod.snd
    let s : State := { s with recovery := { s.recovery with
      lastBoundary := b, samples := SMap.setAll none [] (units.map fun u => (u.1, some u.2.count)) } }
    s.failProgress fs

/-- The row PROGRESS_CHECK. -/
def execProgressCheck (s : State) : Out := .next s.checkProgress

/-! ### Blots received (R389, R392) -/

/-- The row BLOT_ITEM_RECEIVE (R389): an intact item. -/
def State.takeBlotItem (s : State) (q w : Nat) : State :=
  let tag := field w 63 52
  let origin := field w 51 38
  let bseq := field w 31 24
  if (s.quill q).link ≠ .up then s
  else if s.recovery.keys.any fun k => k.tag = tag && k.origin = origin && k.bseq = bseq && s.now < k.time + 1000000 then s.bump 0x80A3 0 1
  else
    let keys := s.recovery.keys ++ [⟨tag, origin, bseq, s.now⟩]
    let s : State := { s with recovery := { s.recovery with keys := keys.drop (keys.length - 64) } }
    let s := (s.relayBlot w (some q)).bump 0x80A2 0 1
    if tag = s.jobTag && s.mayBlot then
      (s.event 0x0A (2 ^ 14 + field w 37 32) w).beginAbort (field w 37 32) origin bseq
    else s.bump 0x80A3 0 1

/-- The row BLOT_ITEM_RECEIVE. -/
def execBlotItemReceive (q : QuillId) (item : BitVec 64) (s : State) : Out := .next (s.takeBlotItem q.val item.toNat)

/-- The row BLOT_KEY_EXPIRY (R389): keys are kept for 1 ms. -/
def State.expireKeys (s : State) : State :=
  { s with recovery := { s.recovery with keys := s.recovery.keys.filter fun k => s.now < k.time + 1000000 } }

/-- The row BLOT_KEY_EXPIRY. -/
def execBlotKeyExpiry (s : State) : Out := .next s.expireKeys

/-! ### Effects of the reset steps (R394) -/

/-- What an operation of a matrix or vector engine does. -/
def InFlight.work (o : InFlight) : Option Work :=
  match o.kind with
  | .mma => o.mmaWork
  | .vop => o.vopWork
  | .cvt => o.cvtWork
  | .kappend => o.kappendWork
  | .kmask => o.kmaskWork
  | .send => none
  | .recv => none

/-- An operation dropped by a reset (R394): no DONE token, its slot free, each destination byte old or new. One whose results are
written keeps them. -/
def State.dropOp (s : State) (n : Nat) (o : InFlight) : State :=
  let s := s.updNib n fun x => { x with slots := x.slots.filter fun p => p.slot ≠ o.slot }
  match o.work with
  | some w =>
    let new := (w.result (s.nib n).mem).mem
    if o.written then s else s.partWritten n new new w.dest w.whole
  | none => s

/-- The nib's operations that `p` picks are dropped. -/
def State.dropOps (s : State) (n : Nat) (p : InFlight → Bool) : State :=
  ((s.nib n).slots.filter p).foldl (fun s o => s.dropOp n o) s

/-- Fault entries of a nib's queue that are in use are freed (R394). -/
def State.freeEntries (s : State) (p : FaultEntry → Bool) : State :=
  { s with desk := { s.desk with entries := s.desk.entries.map fun e =>
      match e.2 with
      | some x => if (x.st = 1 || x.st = 4) && p x then (e.1, some { x with st := 3 }) else e
      | none => e } }

/-- A reservoir queue is emptied (R394). -/
def State.emptyQueue (s : State) (n q : Nat) : State :=
  (s.updNib n fun x => x.setResQueue q []).freeEntries fun e => e.virt = n && e.rq = q

/-- Engine reset of one unit (R393, R394). -/
def State.resetEngine (s : State) (n u : Nat) : State :=
  match u with
  | 1 => s.dropOps n fun o => o.kind.engine = .matrix
  | 2 => s.dropOps n fun o => o.kind.engine = .vector
  | 3 => s.dropOps n fun o => o.kind = .send
  | 4 => s.dropOps n fun o => o.kind = .recv
  | u => if 5 ≤ u && u ≤ 8 then s.emptyQueue n (u - 5) else s

/-- The doorbell is unbound when its nib is reset (04 R126). -/
def State.unbindFrom (s : State) (n : Nat) : State :=
  match s.binding.doorbell with
  | some (m, _) => if m = n then { s with binding := { s.binding with doorbell := none } } else s
  | none => s

/-- Nib reset (R394): the state of R104, with STATE, CODE and fault record, stores, instructions, descriptors and contexts kept. -/
def State.resetNib (s : State) (n : Nat) : State :=
  let s := (s.dropOps n fun _ => true).updNib n fun x =>
    { scalarReset x with resq := [], rbase := [], inbox := [], issue := { x.issue with loops := [], hold := .none } }
  (s.freeEntries fun e => e.virt = n).unbindFrom n

/-- What a compute-domain reset leaves of a nib (R394): STATE, CODE and the fault record. -/
def computeResetNib (x : Nib) : Nib :=
  { issue := { run := x.issue.run, haltCode := x.issue.haltCode, faultRec := x.issue.faultRec, placed := x.issue.placed } }

/-- A pre-emption in progress is cut off by a reset of its domain: its records are not made (06 R203; log entry 53). -/
def State.cutPreemption (s : State) : State :=
  if s.desk.preempt.status = 1 then
    { s with desk := { s.desk with preempt := { s.desk.preempt with status := 3 } } }
  else s

/-- Compute-domain reset (R394, 04 R126): every store zero, every binding cleared, the quire clocks running again. A CLOSING that it
cut off ends with it. -/
def State.resetCompute (s : State) : State :=
  let s := (s.mapNibs computeResetNib).freeEntries fun _ => true
  let s := (List.range 16).foldl (fun s k => s.keepCount k) s
  let s := s.mapQuires fun x => { x with running := true, locked := true, stretching := false, count := 0, overrun := false }
  let s : State := { s with
    mesh := s.mesh.filter fun p =>
      match p.dst with
      | .nib _ => false
      | .quill _ => false
    binding := { s.binding with doorbell := none } }
  let s := s.vacate
  if s.binding.fn.code = .closing then s.endClosing else s

/-! ### Retirement (R403, R404) -/

/-- The compute domain is held in reset with its quire clocks stopped (R395, R404). -/
def State.holdCompute (s : State) : State :=
  let s := s.mapQuires fun x => { x with running := false }
  if s.binding.fn.code = .closing && s.recovery.abort.isNone then s.enterOff s.binding.fn.failed else s

/-- The part retires (R403, R404): reason 1 the tally, 2 a part-reset timeout. -/
def State.retirePart (s : State) (reason : Nat) : State :=
  let t := s.serviceTime
  let record := bytesLE 1 1 ++ bytesLE 1 reason ++ bytesLE 6 0 ++ bytesLE 8 t
  let s : State := { s with
    flash := { s.flash with retired := record }
    recovery := { s.recovery with retired := some reason, held := none, steps := [], wanted := [] } }
  (s.holdCompute).event 0x0D reason t

/-- A counted compute-domain reset (R403): true when it retires the part. -/
def State.tally (s : State) : State × Bool :=
  let t := s.serviceTime
  if s.recovery.tc1.any fun a => t < a + 600000 then (s, true)
  else ({ s with recovery := { s.recovery with tc1 := s.recovery.tc2, tc2 := some t } }, false)

/-- The compute-domain reset of a cause is counted (R393). -/
def countedCause (c : Nat) : Bool := c = 2 || c = 3 || c = 4 || c = 5

/-! ### Part reset (R394, R396) -/

/-- The object is persisted (12 R358). -/
def persisted (k : Nat) : Bool :=
  match lookupObj (k / 256) (k % 256) with
  | some e => e.right = .rwp
  | none => false

/-- The module is held in reset from outside (15 R431; 16 R451, R465). -/
def State.heldOutside (s : State) : Bool :=
  (SMap.get ({} : Pin) s.pins.inputs 3).level || !s.pins.pwrGood ||
    match s.tap.instr with
    | .bypass => false
    | .idcode => false
    | .samplePreload => false
    | _ => true

/-- A part reset (R394, R396): every domain is reset; desk memory, fuses, flash and persisted values stay, and the module waits
for its boot sequence (15 R431). The 16 strokes of GOING_DOWN come before it, in `State.beginPart`. -/
def State.resetPart (s : State) : State :=
  let keep (m : Nat) : Bool := persisted m && !s.boot.restore
  { pending := s.pending
    fresh := s.fresh
    desk := { mem := s.desk.mem, ecc := s.desk.ecc, eccOn := s.desk.eccOn, selfRefresh := true, trainings := s.desk.trainings }
    recovery := { headerRead := false, lateParts := s.recovery.lateParts, serviceMs := s.serviceTime, savedMs := s.recovery.savedMs
                  tc1 := s.recovery.tc1, tc2 := s.recovery.tc2, newestSeq := s.recovery.newestSeq
                  newestSlot := s.recovery.newestSlot }
    time := { st := 4, refOk := s.time.refOk }
    quires := (List.range 16).map fun k => (k, { running := false, locked := (s.quire k).locked })
    quills := if s.time.refOk then [] else (List.range 16).map fun q => (q, { laneLock := false })
    fuses := s.fuses
    flash := { s.flash with unsaved := [], retired := if s.recovery.clearAsked then [] else s.flash.retired }
    boot := { phase := if s.heldOutside then .held else .booting }
    pins := { inputs := SMap.mapVals {} (fun _ p => { p with armed := true, stuck := false }) s.pins.inputs
              pwrGood := s.pins.pwrGood, tripped := s.pins.tripped }
    tap := s.tap
    smbus := s.smbus
    margin := { profile := s.margin.profile }
    objs := s.flash.unsaved.foldl (fun m u => if keep u.key then SMap.set none m u.key u.num else m) (s.objs.filter fun e => keep e.1)
    blobs := s.flash.unsaved.foldl (fun m u => if keep u.key then SMap.set [] m u.key u.blob else m)
      (s.blobs.filter fun e => keep e.1) }

/-! ### The ladder (R393, R395) -/

/-- Quills that a part reset must say farewell on: UP ones, while the reference holds (R396). -/
def State.farewells (s : State) : List Nat :=
  if s.time.refOk then (List.range 16).filter fun q => (s.quill q).link = .up else []

/-- A quill sends LSIG = GOING_DOWN for 16 strokes, as CLOSING does (R396, 09 R282). -/
def State.sayFarewell (s : State) (q : Nat) : State := (s.setLink q .closing).updPort q fun p => { p with farewell := 16 }

/-- The steps in progress replaced. -/
def State.setSteps (s : State) (ts : List ResetStep) : State := { s with recovery := { s.recovery with steps := ts } }

/-- A part reset begins (R396): GOING_DOWN goes out on every UP quill for 16 strokes first, then every domain is reset. -/
def State.beginPart (s : State) (t : ResetStep) : State :=
  let s : State := if s.recovery.headerRead then s
    else { s with recovery := { s.recovery with lateParts := s.recovery.lateParts + 1 } }
  match s.farewells with
  | [] => s.resetPart
  | qs => (qs.foldl State.sayFarewell s).setSteps (s.recovery.steps.filter (·.step ≠ 4) ++ [{ t with start := s.now }])

/-- A step begins (R393): counted, reported, and timed from now. -/
def State.beginStep (s : State) (t : ResetStep) : State :=
  let s := (s.bump 0x80A5 t.step 1).saveHeader
  let s := s.event 0x0C (t.cause <<< 8 + t.step)
    ((t.nib % 2 ^ 16) <<< 48 + (if t.step = 1 then t.unit <<< 44 else 0) + s.recovery.newestSeq % 2 ^ 32)
  if t.step = 4 then s.beginPart t
  else if t.step = 3 then
    let s := s.cutPreemption
    let r := if countedCause t.cause then s.tally else (s, false)
    if r.2 then r.1.retirePart 1
    else (({ r.1 with recovery := { r.1.recovery with steps := [{ t with start := s.now }], wanted := [], held := none } } :
      State)).saveHeader
  else { s with recovery := { s.recovery with steps := s.recovery.steps ++ [{ t with start := s.now }] } }

/-- A record was completed less than 1 ms ago (R393). -/
def State.recentRecord (s : State) : Bool := s.recovery.recordDone.any fun t => s.now < t + 1000000

/-- The steps that wait begin, once no abort and no record is in progress (R391, R393, R402): the highest of them when it is step
3 or 4, after a record of its own; else all of them. -/
def State.pumpSteps (s : State) : State :=
  let r := s.recovery
  if r.abort.isSome || r.record.isSome || r.retired.isSome && r.wanted.all (fun t => t.step < 4) then s
  else
    match r.wanted.find? fun t => t.step = (r.wanted.map ResetStep.step).foldl max 0 with
    | none => s
    | some t =>
      if 3 ≤ t.step then
        let s' := if s.recentRecord then s else s.beginRecord (t.step - 2) t.cause t.start
        if s'.recovery.record.isSome then s'
        else ({ s' with recovery := { s'.recovery with wanted := r.wanted.filter (· ≠ t) } } : State).beginStep t
      else
        r.wanted.foldl State.beginStep { s with recovery := { s.recovery with wanted := [] } }

/-- A reset is requested by a write of 0x4C03:00 (R397): the refusals of state, or the job blotted and the step begun in its turn.
A part reset requested during an abort begins at once, and the record that it begins stays incomplete (R392, R402). -/
def State.requestReset (s : State) (step nib : Nat) : Option State :=
  if step < 4 && (s.recovery.held.isSome || s.recovery.retired.isSome || s.inPartReset || s.recovery.steps.any (·.step = 4)) then none
  else
    let t : ResetStep := ⟨step, if step = 2 then nib else 0xFFFF, 0, 6, s.now⟩
    if step = 4 && s.recovery.abort.isSome then
      some ((if s.recentRecord || s.recovery.record.isSome then s else s.beginRecord 2 6 s.now).beginStep t)
    else
      let s := if s.binding.fn.code = .on then s.blot 10 else s
      some ((s.wantReset step t.nib 0 6).pumpSteps)

/-- The row REF_RETURN (07 R206; R393). -/
def execRefReturn (s : State) : Out := .next s.regainRef.pumpSteps

/-- The row CLOCK_MARGIN (07 R211; R393). -/
def execClockMargin (k : QuireId) (cause : ClockFail) (s : State) : Out := .next (s.failClock k.val cause).pumpSteps

/-! ### The end of an abort (R391, R393) -/

/-- Every engine is idle, every queue empty and no router holds a flit of the job (R391). -/
def State.atRest (s : State) : Bool :=
  s.meshQuires.isEmpty && s.nibs.all fun e => e.2.hung.isEmpty && e.2.resq.isEmpty && e.2.issue.run ≠ .running

/-- The steps wanted for what has not come to rest (R393). -/
def State.wantLadder (s : State) : State :=
  let s := s.nibs.foldl (fun s e =>
    let s := if e.2.issue.run = .running then s.wantReset 2 (s.physNib e.1) 0 1 else s
    e.2.hung.foldl (fun s u => s.wantReset 1 (s.physNib e.1) u 1) s) s
  let s := if s.meshQuires.isEmpty then s else s.wantReset 3 0xFFFF 0 5
  if s.recovery.storeUe then
    ({ s with recovery := { s.recovery with storeUe := false } } : State).wantReset 3 0xFFFF 0 3
  else s

/-- The row ABORT_END (R391): at rest, or 100 µs after t_b. An enable received since t_b begins OPENING once the binding is OFF
(R377, R392). -/
def State.endAbort (s : State) : State :=
  match s.recovery.abort with
  | none => s
  | some a =>
    if !s.atRest && s.now < a.time + 100000 then s
    else
      let s : State := { s with recovery := { s.recovery with abort := none, lastAbort := some a } }
      let s := s.wantLadder.beginRecord 0 a.reason a.time
      let pending := s.binding.fn.pending
      let s := s.enterOff s.binding.fn.failed
      (if pending then s.openBinding else s).pumpSteps

/-- The row ABORT_END. -/
def execAbortEnd (s : State) : Out := .next s.endAbort

/-- The row BLOTTER_RECORD_COMPLETE (R402). -/
def execBlotterRecordComplete (s : State) : Out :=
  .next (if s.recovery.record.isSome then s.endRecord.pumpSteps else s)

/-! ### Steps end or escalate (R393, R395, R396) -/

/-- The effect of a completed step (R394). -/
def State.stepEffect (s : State) (t : ResetStep) : State :=
  match t.step with
  | 1 => match s.virtNib t.nib with
    | some n => s.resetEngine n t.unit
    | none => s
  | 2 => match s.virtNib t.nib with
    | some n => s.resetNib n
    | none => s
  | _ => s.resetCompute

/-- The row RESET_STEP_COMPLETE (R393, R394): the oldest step in progress completes. A part reset resets every domain once no quill has
strokes of its farewell left (R396). -/
def State.completeStep (s : State) : State :=
  if s.recovery.steps.any (·.step = 4) then
    if (List.range 16).any fun q => (s.quill q).link = .closing && (s.quill q).port.farewell ≠ 0 then s else s.resetPart
  else
    match s.recovery.steps with
    | [] => s
    | t :: ts => ((s.stepEffect t).setSteps ts).pumpSteps

/-- The row RESET_STEP_COMPLETE. -/
def execResetStepComplete (s : State) : Out := .next s.completeStep

/-- Timer of a step in ns (R393). -/
def stepTimer (step : Nat) : Nat :=
  match step with
  | 1 => 100000
  | 2 => 200000
  | _ => 2000000

/-- A step whose timer has run out (R393, R395): the next one begins with cause ESCALATION, or the module enters COMPUTE_HELD. -/
def State.escalate (s : State) (t : ResetStep) : State :=
  let s := s.setSteps (s.recovery.steps.filter (· ≠ t))
  match t.step with
  | 1 => (s.wantReset 2 t.nib 0 2).pumpSteps
  | 2 => (s.wantReset 3 0xFFFF 0 2).pumpSteps
  | _ =>
    let s := s.holdCompute
    if s.obj 0x4C02 0 = 0 then (s.wantReset 4 0xFFFF 0 2).pumpSteps
    else { s with recovery := { s.recovery with held := some s.now } }

/-- The boot sequence has not ended within 2 s of its start (R393, R404, 15 R440): the part retires; in BOOT_FAILED no record is
written. -/
def State.bootTimeout (s : State) : State :=
  match s.boot.phase with
  | .booting => if s.boot.started + 2000000000 ≤ s.now then s.retirePart 2 else s
  | .failed _ =>
    if s.boot.started + 2000000000 ≤ s.now then { s with recovery := { s.recovery with retired := some 2 } } else s
  | _ => s

/-- The row RESET_ESCALATION (R393): acts on a step whose timer has run out. -/
def State.escalateDue (s : State) : State :=
  match s.recovery.steps.find? fun t => t.step < 4 && t.start + stepTimer t.step ≤ s.now with
  | some t => s.escalate t
  | none => s.bootTimeout

/-- The row RESET_ESCALATION. -/
def execResetEscalation (s : State) : Out := .next s.escalateDue

/-- The row COMPUTE_HELD_LIMIT (R395). -/
def State.heldLimit (s : State) : State :=
  match s.recovery.held with
  | some t =>
    if t + s.obj 0x4C02 0 * 1000000 ≤ s.now && s.recovery.wanted.isEmpty then (s.wantReset 4 0xFFFF 0 2).pumpSteps else s
  | none => s

/-- The row COMPUTE_HELD_LIMIT. -/
def execComputeHeldLimit (s : State) : Out := .next s.heldLimit

/-- The row SERVICE_TIME_SAVE (R403): every second. -/
def execServiceTimeSave (s : State) : Out :=
  .next (if s.inPartReset || s.serviceTime < s.recovery.savedMs + 1000 then s else s.saveHeader)

end Sys2Proof.Machine
end

