-- ==== Sys2Proof/Machine/Boot.lean ====
section
/-! DEFINITION. Boot, firmware images and commands, measurements and quotes (15). -/

namespace Sys2Proof.Machine

/-! ### The firmware image (R435, R436) -/

/-- Context string of a firmware signature (R435). -/
def fwContext : List Byte := ascii "VZ-YH1-FW"

/-- A little-endian field of the image header. -/
def hdrNat (h : List Byte) (off n : Nat) : Nat := natLE (slice h off n)

/-- A stage lies in the image, past the header, 4 KiB aligned, within its limit (R435, R436). -/
def stageOk (h : List Byte) (off len limit : Nat) (imageLen : Nat) : Bool :=
  let a := hdrNat h off 4
  let n := hdrNat h len 4
  8192 ≤ a && a % 4096 = 0 && a + n ≤ imageLen && n ≤ limit

/-- The bytes are zero. -/
def zeros (bs : List Byte) : Bool := bs.all fun b => b = 0

/-- The first check of R436 that an image fails, 0 for none. -/
def imageCode (f : Fuses) (m : Memory) (len : Nat) : Nat :=
  let h := m.readBytes 0 8192
  let key := slice h 0x100 1952
  let svn := hdrNat h 0xC 4
  if !(h.take 4 = ascii "VZFW" && hdrNat h 4 2 = 1 && hdrNat h 6 1 ≤ 3 && zeros (slice h 7 1) && zeros (slice h 0x60 160) &&
      zeros (h.drop 0x158D) && stageOk h 0x10 0x14 1048576 len && stageOk h 0x18 0x1C 117440512 len) then 0x11
  else if f.keys.getD (hdrNat h 6 1) [] ≠ sha3 key || f.revoked.contains (hdrNat h 6 1) then 0x12
  else if !Config.mldsaVerify 65 key fwContext (h.take 0x8A0) (slice h 0x8A0 3309) then 0x13
  else if svn < f.floor || 64 < svn then 0x14
  else if sha3 (m.readBytes (hdrNat h 0x10 4) (hdrNat h 0x14 4)) ≠ slice h 0x20 32 ||
      sha3 (m.readBytes (hdrNat h 0x18 4) (hdrNat h 0x1C 4)) ≠ slice h 0x40 32 then 0x15
  else 0

/-! ### Slot choice (R434, R437) -/

/-- Slot record 0 A or 1 B. -/
def Flash.slot (f : Flash) (k : Nat) : SlotRec := if k = 0 then f.slotA else f.slotB
/-- Image of a slot. -/
def Flash.image (f : Flash) (k : Nat) : Memory := if k = 0 then f.imageA else f.imageB
/-- The directory written with slot record `k` changed, and the other one as `o` leaves it: one write, one generation (R434). -/
def Flash.setSlots (f : Flash) (k : Nat) (r : SlotRec) (o : SlotRec → SlotRec) : Flash :=
  let gen := (f.gen + 1) % 2 ^ 32
  if k = 0 then { f with slotA := r, slotB := o f.slotB, gen := gen } else { f with slotB := r, slotA := o f.slotA, gen := gen }
/-- A slot record written to the directory (R434). -/
def Flash.setSlot (f : Flash) (k : Nat) (r : SlotRec) : Flash := f.setSlots k r id
/-- Image of a slot written. -/
def Flash.setImage (f : Flash) (k : Nat) (m : Memory) : Flash := if k = 0 then { f with imageA := m } else { f with imageB := m }

/-- The other slot. -/
def otherSlot (k : Nat) : Nat := if k = 0 then 1 else 0

/-- A slot is tried (R437): the flash after it, whether it may boot, and the code with which R436 rejects it. -/
def trySlot (fu : Fuses) (f : Flash) (k : Nat) : Flash × Bool × Nat :=
  let r := f.slot k
  if r.st = 0 || r.st = 3 then (f, false, 0)
  else if r.st = 2 && r.tries = 0 then
    (f.setSlots k { r with st := 3, pref := false } fun o => { o with pref := true }, false, 0)
  else
    let f := if r.st = 2 then f.setSlot k { r with tries := r.tries - 1 } else f
    let c := imageCode fu (f.image k) r.len
    (f, c = 0, c)

/-- The slots in the order of R437: the flash, the slot that boots, and the code of a rejected one. -/
def chooseSlot (fu : Fuses) (f : Flash) : Flash × Option Nat × Nat :=
  let first := if !f.slotA.pref && f.slotB.pref then 1 else 0
  let a := trySlot fu f first
  if a.2.1 then (a.1, some first, 0)
  else
    let b := trySlot fu a.1 (otherSlot first)
    let code := if b.2.2 = 0 then a.2.2 else b.2.2
    (b.1, if b.2.1 then some (otherSlot first) else none, if b.2.1 then a.2.2 else code)

/-! ### Measurements (R441) -/

/-- Measurement register `k`, 0 to 3. -/
def State.meas (s : State) (k : Nat) : List Byte := s.blob 0x2D03 (k + 1) 32
/-- A measurement register extended (R441). -/
def State.extend (s : State) (k : Nat) (d : List Byte) : State := s.setBlob 0x2D03 (k + 1) (sha3 (s.meas k ++ d))

/-! ### The boot sequence (R431, 13 R400, R404) -/

/-- Desk-domain start (06 R176, R178, R179): the devices leave self refresh and are trained. A part reset that changes the inline-ECC
setting keeps no desk contents, and a blotter region that does not lie in the new data space goes back to its default. -/
def State.trainDesk (s : State) : State :=
  let on : Bool := s.obj 0x2620 0 = 1
  let n := s.desk.trainings + 1
  if on = s.desk.eccOn then { s with desk := { s.desk with selfRefresh := false, trainings := n } }
  else
    let s : State := { s with desk := { eccOn := on, trainings := n } }
    if s.blotBase + 2 ^ 31 ≤ s.deskSize then s else s.setObj 0x4C01 0 (if on then 1063004405760 else 1097364144128)

/-- Once desk memory has started (13 R400): the tally and the counts are read from the region header, or the header is rewritten. Part
resets begun since the header was last written are added. -/
def State.startDesk (s : State) : State :=
  let h := s.deskBytes s.blotBase 64
  let tally (off : Nat) : Option Nat := if hdrNat h off 8 = 2 ^ 64 - 1 then none else some (hdrNat h off 8)
  let late := s.recovery.lateParts
  let ok : Bool := s.blotBase + 2 ^ 31 ≤ s.deskSize && h.take 4 = ascii "BLTH" && hdrNat h 4 2 = 1
  let r : Recovery :=
    if ok then { s.recovery with
      newestSlot := hdrNat h 6 1, newestSeq := hdrNat h 8 4, serviceMs := hdrNat h 0x10 8, savedMs := hdrNat h 0x10 8
      tc1 := tally 0x18, tc2 := tally 0x20 }
    else { s.recovery with newestSlot := 0xFF, newestSeq := 0, serviceMs := 0, savedMs := 0, tc1 := none, tc2 := none }
  let s : State := { s with recovery := { r with headerRead := true, lateParts := 0 } }
  let s := (s.setObj 0x80A5 3 (if ok then hdrNat h 0x28 8 else 0)).setObj 0x80A5 4 (if ok then hdrNat h 0x30 8 + late else 0)
  if ok && late = 0 then s else s.saveHeader

/-- Stage two runs from slot `k` (R431): the link domain starts, time restarts, the tally and the retirement record are restored. -/
def State.startUp (s : State) (k rejected : Nat) : State :=
  let h := (s.flash.image k).readBytes 0 8192
  let s : State := { s with
    boot := { phase := .running, slot := k, rejected := rejected, fwver := hdrNat h 8 4, svn := hdrNat h 0xC 4, key := hdrNat h 6 1 }
    flash := { s.flash with boots := s.flash.boots + 1 }
    quires := s.quires.filterMap fun e => if e.2.locked then none else some (e.1, { e.2 with running := true })
    quills := if s.time.refOk then [] else (List.range 16).map fun q => (q, { laneLock := false })
    time := { refOk := s.time.refOk, st := if s.time.refOk then 0 else 4 }
    margin := { s.margin with profile := s.obj 0x2900 0 } }
  let s := ((s.extend 0 (slice h 0x20 32)).extend 0 (sha3 (h.take 0x8A0))).extend 1 (slice h 0x40 32)
  let s := s.trainDesk.startDesk.startLinks
  if s.flash.retired.isEmpty then s
  else ({ s with recovery := { s.recovery with retired := some (hdrNat s.flash.retired 1 1) } } : State).holdCompute

/-- The row BOOT_SEQUENCE (R431, R437, R440). -/
def State.bootUp (s : State) : State :=
  if s.boot.phase ≠ .booting then s
  else
    let c := chooseSlot s.fuses s.flash
    let s : State := { s with flash := c.1 }
    match c.2.1 with
    | some k => s.startUp k c.2.2
    | none => { s with boot := { s.boot with phase := .failed c.2.2, rejected := c.2.2 } }

/-- The row BOOT_SEQUENCE. -/
def execBootSequence (s : State) : Out := .next s.bootUp

/-! ### Firmware commands (R439) -/

/-- Some VALID image is signed by a key other than `key` (R439). -/
def State.otherKeySigned (s : State) (key : Nat) : Bool :=
  [0, 1].any fun k => (s.flash.slot k).st = 1 && hdrNat ((s.flash.image k).readBytes 0 8) 6 1 ≠ key

/-- A command is refused for the state (R439). -/
def State.fwRefused (s : State) (cmd arg : Nat) : Bool :=
  let run := s.flash.slot s.boot.slot
  let other := s.flash.slot (otherSlot s.boot.slot)
  s.boot.job.isSome ||
    match cmd with
    | 1 => run.st ≠ 2
    | 2 => run.st ≠ 1 || s.boot.svn ≤ s.fuses.floor
    | 3 => s.binding.fn.code ≠ .off || (other.st = 1 && run.st ≠ 1)
    | _ => arg = s.boot.key || !s.otherKeySigned arg

/-- A firmware command starts (R439, 0x2D21). -/
def State.fwBegin (s : State) (cmd arg : Nat) : State :=
  ({ s with boot := { s.boot with job := some (cmd, arg) } } : State).setObj 0x2D21 0 1

/-- CONFIRM: the running slot is VALID and preferred. -/
def Flash.confirm (f : Flash) (k : Nat) : Flash :=
  f.setSlots k { f.slot k with st := 1, pref := true } fun o => { o with pref := false }

/-- The image to install, as desk memory holds it. -/
def State.newImage (s : State) : Memory :=
  SMap.setAll 0 [] ((s.deskBytes (s.obj 0x4D00 0) (s.obj 0x4D01 0)).mapIdx fun i b => (i, b))

/-- INSTALL with a flash that works: the other slot holds the image as TRIAL, the running one is VALID without PREF. -/
def Flash.install (f : Flash) (k : Nat) (m : Memory) (len : Nat) : Flash :=
  let h := m.readBytes 0 16
  let r : SlotRec := { fwver := hdrNat h 8 4, svn := hdrNat h 0xC 4, st := 2, tries := 3, pref := true, len := len }
  (f.setImage (otherSlot k) m).setSlots (otherSlot k) r fun o => { o with st := 1, pref := false }

/-- What a firmware command leaves and its status (R439, 0x2D21): 2 done, or a failure code. A slot whose erase, write or compare
failed holds its old image, the new one, or nothing, a free choice. -/
def State.fwRun (s : State) (cmd arg : Nat) (flashOk : Bool) : State × Nat :=
  match cmd with
  | 1 => if flashOk then ({ s with flash := s.flash.confirm s.boot.slot }, 2) else (s, 0x16)
  | 2 => ({ s with fuses := { s.fuses with floor := max s.fuses.floor s.boot.svn } }, 2)
  | 3 =>
    let m := s.newImage
    let c := imageCode s.fuses m (s.obj 0x4D01 0)
    let o := otherSlot s.boot.slot
    if c ≠ 0 then (s, c)
    else if flashOk then ({ s with flash := s.flash.install s.boot.slot m (s.obj 0x4D01 0) }, 2)
    else
      let left := match s.free % 3 with
        | 0 => s.flash.image o
        | 1 => m
        | _ => []
      ({ s.took with flash := s.flash.setImage o left }, 0x16)
  | _ => ({ s with fuses := { s.fuses with
      revoked := if s.fuses.revoked.contains arg then s.fuses.revoked else s.fuses.revoked ++ [arg] } }, 2)

/-- The row FIRMWARE_COMMAND_COMPLETE (R439). -/
def State.fwEnd (s : State) (flashOk : Bool) : State :=
  match s.boot.job with
  | none => s
  | some (cmd, arg) =>
    let r := s.fwRun cmd arg flashOk
    ({ r.1 with boot := { r.1.boot with job := none } } : State).setObj 0x2D21 0 r.2

/-- The row FIRMWARE_COMMAND_COMPLETE. -/
def execFirmwareCommandComplete (flashOk : Bool) (s : State) : Out := .next (s.fwEnd flashOk)

/-! ### Quotes (R443, R444) -/

/-- Bytes 0x000 to 0x1FF of a quote (R444). -/
def State.quoteBody (s : State) (nonce : List Byte) : List Byte :=
  padTo 0x200 (ascii "VZQT" ++ bytesLE 2 1 ++ bytesLE 1 s.fuses.grade ++ bytesLE 1 s.fuses.stepping ++
    bytesLE 8 s.fuses.serial ++ bytesLE 4 s.boot.fwver ++ bytesLE 4 s.boot.svn ++ bytesLE 4 s.fuses.floor ++
    bytesLE 1 s.boot.slot ++ bytesLE 1 s.recoveryState ++ bytesLE 2 s.chip ++ bytesLE 8 s.now ++ bytesLE 2 s.jobTag ++
    bytesLE 1 s.binding.fn.byte ++ bytesLE 5 0 ++ padTo 32 nonce ++ s.meas 0 ++ s.meas 1 ++ s.meas 2 ++ s.meas 3 ++
    s.blob 0x2B02 0 32 ++ s.blob 0x2B00 0 64 ++ sha3 (padTo 1312 (Config.identityKey s.xi)))

/-- A quote built and signed (R443, R444). -/
def State.quote (s : State) (nonce : List Byte) : List Byte :=
  let b := s.quoteBody nonce
  b ++ padTo 2420 (Config.identitySign s.xi (ascii "VZ-YH1-QUOTE") b s.free)

/-- A quote kept for a session (R443). -/
def State.keepQuote (s : State) (sess : Nat) (nonce : List Byte) : State :=
  let q := s.quote nonce
  let s := s.took.bump 0x80D0 0 1
  { s with agent := { s.agent with sessions := s.agent.sessions.map fun x => if x.id = sess then { x with quote := q } else x } }

end Sys2Proof.Machine
end

