-- ==== Sys2Proof/Machine/Pins.lean ====
section
/-! DEFINITION. Sideband pins, power, the link test and the TAP (16; 07 R231; 15 R431). -/

namespace Sys2Proof.Machine

/-! ### The front end (R449, R450) -/

/-- A sideband input. -/
def State.pin (s : State) (p : Nat) : Pin := SMap.get {} s.pins.inputs p
/-- A sideband input replaced. -/
def State.setPin (s : State) (p : Nat) (x : Pin) : State := { s with pins := { s.pins with inputs := SMap.set {} s.pins.inputs p x } }

/-- The filtered level becomes asserted (R450): true when that raises an event. -/
def State.assertPin (s : State) (p : Nat) : State × Bool :=
  let x := s.pin p
  let event := x.armed && !x.stuck
  let s := s.setPin p { x with level := true, since := s.now, armed := if event then false else x.armed }
  (if event then s.bump 0x80F2 (p + 1) 1 else s, event)

/-- The row BLOT_IN_N (R451, 13 R387). -/
def State.blotIn (s : State) : State :=
  let r := s.assertPin 0
  if !r.2 then r.1
  else if r.1.binding.fn.code = .on then r.1.blot 8
  else r.1.bump 0x80A6 0 1

/-- The row BLOT_IN_N. -/
def execBlotInN (s : State) : Out := .next s.blotIn

/-- The row HOLD_IN_N (R451): a drain may run from 10 µs after the event. -/
def State.holdIn (s : State) : State :=
  let r := s.assertPin 1
  if r.2 && r.1.obj 0x4F11 0 = 1 && r.1.binding.fn.code = .on then
    { r.1 with pins := { r.1.pins with holdAt := some (r.1.now + 10000) } }
  else r.1

/-- The row HOLD_IN_N. -/
def execHoldInN (s : State) : Out := .next s.holdIn

/-- The drain of HOLD_IN_N at the latest line boundary, if it is due (R451): a disable of the job binding is received. -/
def State.drainHold (s : State) : State :=
  if s.pins.holdAt.any fun t => t ≤ s.line * 24576 then
    ({ s with pins := { s.pins with holdAt := none } } : State).disableBinding
  else s

/-- The row HOLD_IN_N_DRAIN. -/
def execHoldInNDrain (s : State) : Out := .next s.drainHold

/-- A PPS_IN edge accepted for time (07 R231, R232): `edge` is when it leaves the input filter, 200 ns after the pin; its offset from the whole second that PTP names for it, or while PTP is lost
from the nearest one. An edge in anchor mode 2 ends an anchor holdover. -/
def State.acceptPps (s : State) (edge : Nat) : State :=
  let p := s.time.ptp
  let ns : Int := 1000000000
  let t : Int := (edge : Int) - 200
  let site : Int := if p.status = 1 then t - signed 64 (s.obj 0x2708 0) / 16 else t
  let off : Int := t - ns * ((site + ns / 2) / ns)
  let s := s.setObj 0x8043 0 (unsigned 64 t)
  { s with
    pins := { s.pins with lastPps := some edge }
    time := { s.time with ptp := { p with
      edge := some edge, edgeSeen := s.real, edgeOff := off, fallen := false
      status := if p.status = 3 && s.obj 0x2707 0 = 2 then 2 else p.status } } }

/-- The row PPS_IN (R450, 07 R231). -/
def State.ppsIn (s : State) (edge : Nat) : State :=
  let r := s.assertPin 2
  if !r.2 then r.1
  else if r.1.pins.lastPps.any fun t => edge < t + 500000000 then r.1.bump 0x80F4 0 1
  else r.1.acceptPps edge

/-- The row PPS_IN. -/
def execPpsIn (edge : Nat) (s : State) : Out := .next (s.ppsIn edge)

/-- A part reset from outside (R451, R453; 13 R393, R402): the job is blotted with reason RESET, a record that is begun stays
incomplete, and the part reset begins with cause PIN. -/
def State.pinReset (s : State) : State :=
  match s.boot.phase with
  | .off => s
  | _ =>
    let s := if s.binding.fn.code = .on then s.blot 10 else s
    let s := if s.recentRecord || s.recovery.record.isSome then s else s.beginRecord 2 7 s.now
    s.beginStep ⟨4, 0xFFFF, 0, 7, s.now⟩

/-- The row MOD_RST_N_ASSERT (R451). -/
def State.resetIn (s : State) : State :=
  let r := s.assertPin 3
  if r.2 then r.1.pinReset else r.1

/-- The row MOD_RST_N_ASSERT. -/
def execModRstNAssert (s : State) : Out := .next s.resetIn

/-- A module that nothing holds in reset any more begins its boot sequence (R451, R465; 15 R431). -/
def State.leaveReset (s : State) : State :=
  if s.boot.phase = .held && !s.heldOutside then { s with boot := { s.boot with phase := .booting, started := s.now } } else s

/-- The row MOD_RST_N_RELEASE (R451). -/
def State.resetRelease (s : State) : State :=
  (s.setPin 3 { s.pin 3 with level := false, since := s.now }).leaveReset

/-- The row MOD_RST_N_RELEASE. -/
def execModRstNRelease (s : State) : Out := .next s.resetRelease

/-- The row SIDEBAND_REARM (R450): the level has been deasserted for 1 µs. -/
def State.rearm (s : State) (p : Nat) : State :=
  let x := s.pin p
  let s := s.setPin p { x with level := false, since := if x.level then s.now else x.since, armed := !x.stuck }
  if p = 3 then s.leaveReset else s

/-- The row SIDEBAND_REARM. -/
def execSidebandRearm (pin : PinId) (s : State) : Out := .next (s.rearm pin.val)

/-- The row STUCK (R450): asserted for more than 1 s, MOD_RST_N apart. -/
def State.stick (s : State) (p : Nat) : State :=
  let x := s.pin p
  if p = 3 || !x.level || x.stuck || s.now ≤ x.since + 1000000000 then s
  else (s.setPin p { x with stuck := true, armed := false }).bump 0x80F3 (p + 1) 1

/-- The row STUCK. -/
def execSidebandStuck (pin : PinId) (s : State) : Out := .next (s.stick pin.val)

/-- A write to 0x4F10:00 (R450): input `v`, 1 to 4. -/
def State.unstick (s : State) (v : Nat) : State :=
  let x := s.pin (v - 1)
  s.setPin (v - 1) { x with stuck := false, since := if x.level then s.now else x.since }

/-! ### Power (R431, R453) -/

/-- The row POWER_UP (R431): the rails come up and PWR_GOOD goes high. From rest MOD_RST_N is low. -/
def State.powerUp (s : State) : State :=
  match s.boot.phase with
  | .off =>
    let s := s.setPin 3 { s.pin 3 with level := true, armed := false, since := s.now }
    { s with boot := { s.boot with phase := .held }, pins := { s.pins with pwrGood := true, tripped := false } }
  | _ => ({ s with pins := { s.pins with pwrGood := true } } : State).leaveReset

/-- The row POWER_UP. -/
def execPowerUp (s : State) : Out := .next s.powerUp

/-- Status bits of PMBus that a power event latches (R429, R453; log entry 31): 0 under-voltage, 1 over-voltage, 2
over-temperature. -/
def State.latchStatus (s : State) (i : Nat) : State :=
  { s with smbus := { s.smbus with status := if bit s.smbus.status i then s.smbus.status else s.smbus.status + 2 ^ i } }

/-- The row INPUT_UNDERVOLTAGE (R453): PWR_GOOD falls, and the module acts as with MOD_RST_N low. -/
def State.underVoltage (s : State) : State :=
  (({ s with pins := { s.pins with pwrGood := false } } : State).latchStatus 0).pinReset

/-- The row INPUT_UNDERVOLTAGE. -/
def execInputUndervoltage (s : State) : Out := .next s.underVoltage

/-- The rails are shut down (R453): nothing but fuses and flash survives. -/
def State.railsDown (s : State) (tripped : Bool) : State :=
  let r := s.resetPart
  { r with
    desk := { eccOn := s.desk.eccOn, selfRefresh := true, trainings := s.desk.trainings }
    recovery := { headerRead := false }
    boot := { phase := .off }
    pins := { inputs := s.pins.inputs, pwrGood := false, tripped := tripped }
    tap := {} }

/-- The row INPUT_OVERVOLTAGE. -/
def execInputOvervoltage (s : State) : Out := .next ((s.latchStatus 1).railsDown s.pins.tripped)

/-- The row POWER_STAGE_OVERTEMPERATURE. -/
def execPowerStageOvertemperature (s : State) : Out := .next ((s.latchStatus 2).railsDown true)

/-! ### The link test (R458-R463) -/

/-- The test control word keeps R459, R461 and R462. -/
def testWordOk (v : Nat) : Bool :=
  field v 31 16 = 0 && !bit v 7 && field v 3 2 = 0 && field v 1 0 ≠ 3 && field v 11 10 ≠ 3 && field v 6 4 ≠ 7 &&
    (field v 1 0 ≠ 2 || field v 15 12 = 15) && (field v 11 10 ≠ 2 || !bit v 8)

/-- A write to 0x6060:qq that is not refused (R458-R463): a test that starts clears its bit-error counts, and its checkers seek
lock. -/
def State.setTest (s : State) (q v : Nat) : State :=
  let old := s.obj 0x6060 q
  let s := s.setObj 0x6060 q v
  let s := s.updQuill q fun x => { x with lanes := [] }
  let s := s.setObj 0x6066 q (field (s.obj 0x6066 q) 31 16 <<< 16)
  if field old 1 0 = 0 && field v 1 0 ≠ 0 then
    [0x6061, 0x6062, 0x6063, 0x6064].foldl (fun s i => s.setObj i q 0) s
  else s

/-- A test that an enable of the quill stops (R458). -/
def State.stopTest (s : State) (q : Nat) : State :=
  if field (s.obj 0x6060 q) 1 0 = 0 then s else s.setObj 0x6060 q (setField (s.obj 0x6060 q) 1 0 0)

/-- The delays of a pattern's recurrence (R460): bit i is the exclusive or of the bits that many places before it. -/
def patternTaps (p : Nat) : List Nat :=
  match p with
  | 0 => [7, 6]
  | 1 => [9, 5]
  | 2 => [13, 12, 2, 1]
  | 3 => [15, 14]
  | 4 => [23, 18]
  | 5 => [31, 28]
  | _ => []

/-- The two bits of a symbol, the more significant first, after Gray decoding (09 R270). -/
def grayBits (v : BitVec 2) : List Bool :=
  match v.toNat with
  | 0 => [false, false]
  | 1 => [false, true]
  | 2 => [true, true]
  | _ => [true, false]

/-- A bit string obeys the recurrence of a pattern, and is not all zeros. -/
def followsPattern (taps : List Nat) (bs : List Bool) : Bool :=
  let n := taps.headD 0
  bs.any id && (List.range (bs.length - n)).all fun i =>
    (taps.foldl (fun a t => a ^^ bs.getD (n + i - t) false) false) = bs.getD (n + i) false

/-- The checker of a lane runs (R459, R463). -/
def State.checking (s : State) (q lane : Nat) : Bool :=
  let v := s.obj 0x6060 q
  field v 1 0 = 1 && bit v 9 && bit v (12 + lane)

/-- A lane's lock bit at 0x6066. -/
def State.setLock (s : State) (q lane : Nat) (b : Bool) : State :=
  (s.updQuill q fun x => { x with lanes := SMap.upd {} x.lanes lane fun l => { l with locked := b } }).setObj 0x6066 q
    (setField (s.obj 0x6066 q) lane lane (if b then 1 else 0))

/-- The row CHECKER_LOCK (R463): 64 consecutive symbols that match. The spec does not give SSPRQ's symbols, so whether they match it
is a free choice. -/
def State.lockLane (s : State) (q lane : Nat) (symbols : List (BitVec 2)) : State :=
  if !s.checking q lane || (SMap.get ({} : LaneTest) (s.quill q).lanes lane).locked || symbols.length < 64 then s
  else if field (s.obj 0x6060 q) 6 4 = 6 then (if s.free % 2 = 0 then s.took else s.took.setLock q lane true)
  else if followsPattern (patternTaps (field (s.obj 0x6060 q) 6 4)) (symbols.flatMap grayBits) then s.setLock q lane true
  else s

/-- The row CHECKER_LOCK. -/
def execCheckerLock (q : QuillId) (lane : Fin 4) (symbols : List (BitVec 2)) (s : State) : Out :=
  .next (s.lockLane q.val lane.val symbols)

/-- The row CHECKER_LOCK_LOSS (R463): the bit errors of 1,024 symbols are counted, and 64 of them drop lock. -/
def State.loseLane (s : State) (q lane errors : Nat) : State :=
  if !s.checking q lane || !(SMap.get ({} : LaneTest) (s.quill q).lanes lane).locked then s
  else
    let s := s.bump (0x6061 + lane) q errors
    if errors < 64 then s
    else
      let s := s.setLock q lane false
      let v := s.obj 0x6066 q
      s.setObj 0x6066 q (setField v 31 16 (min 65535 (field v 31 16 + 1)))

/-- The row CHECKER_LOCK_LOSS. -/
def execCheckerLockLoss (q : QuillId) (lane : Fin 4) (errors : Nat) (s : State) : Out := .next (s.loseLane q.val lane.val errors)

/-! ### JTAG (R464, R465) -/

/-- The IDCODE (R464). -/
def State.idcode (s : State) : Nat := (s.fuses.stepping % 16) <<< 28 + 0xB1F0 <<< 12 + 0x2D3 <<< 1 + 1

/-- Bits of a number, least significant first. -/
def bitsLE (n x : Nat) : List Bool := (List.range n).map x.testBit

/-- An instruction is loaded; a module that only the TAP held in reset then boots (R465). -/
def State.loadJtag (s : State) (i : JtagInstr) (capture : Nat) : State :=
  ({ s with tap := { s.tap with instr := i, irCapture := capture } } : State).leaveReset

/-- The row BYPASS. -/
def execJtagBypass (s : State) : Out := .next (s.loadJtag .bypass 1)

/-- The row IDCODE. -/
def State.jtagIdcode (s : State) : State :=
  let s := s.loadJtag .idcode 1
  { s with tap := { s.tap with data := bitsLE 32 s.idcode } }

/-- The row IDCODE. -/
def execJtagIdcode (s : State) : Out := .next s.jtagIdcode

/-- The row SAMPLE_PRELOAD: the pins are sampled, and the boundary register is preloaded. -/
def State.jtagSample (s : State) (pins preload : List Bool) : State :=
  let s := s.loadJtag .samplePreload 1
  { s with tap := { s.tap with data := pins, boundary := preload } }

/-- The row SAMPLE_PRELOAD. -/
def execJtagSamplePreload (pins preload : List Bool) (s : State) : Out := .next (s.jtagSample pins preload)

/-- An instruction that drives pins: only with MOD_RST_N asserted and PWR_GOOD high, else BYPASS (R465). -/
def State.jtagDrive (s : State) (i : JtagInstr) : State :=
  if (s.pin 3).level && s.pins.pwrGood then s.loadJtag i 1 else s.loadJtag .bypass 0x81

/-- The row EXTEST. -/
def execJtagExtest (s : State) : Out := .next (s.jtagDrive .extest)
/-- The row EXTEST_PULSE. -/
def execJtagExtestPulse (s : State) : Out := .next (s.jtagDrive .extestPulse)
/-- The row EXTEST_TRAIN. -/
def execJtagExtestTrain (s : State) : Out := .next (s.jtagDrive .extestTrain)
/-- The row CLAMP. -/
def execJtagClamp (s : State) : Out := .next (s.jtagDrive .clamp)
/-- The row HIGHZ. -/
def execJtagHighz (s : State) : Out := .next (s.jtagDrive .highz)

/-- The row MANUFACTURING_INSTRUCTION (R465): BYPASS. -/
def execJtagManufacturing (_code : Byte) (s : State) : Out := .next (s.loadJtag .bypass 0x81)

/-- The row TAP_RESET (R464). -/
def State.jtagReset (s : State) : State := ({ s with tap := {} } : State).leaveReset

/-- The row TAP_RESET. -/
def execJtagTapReset (s : State) : Out := .next s.jtagReset

end Sys2Proof.Machine
end

