-- ==== Sys2Proof/Machine/Staging.lean ====
section
/-! DEFINITION. The rules on a staged apply and the apply itself (05 R171-R173; 07 R219; 08 R238-R243; 09 R291; 10 R319; 11 R331,
R332; 12 R369-R373; 15 R441). -/

namespace Sys2Proof.Machine

/-- The code of a status (R368). -/
def LapStatus.code : LapStatus → Nat
  | .ok => 0
  | .noObject => 1
  | .noSubindex => 2
  | .type => 3
  | .range => 4
  | .readOnly => 5
  | .writeOnly => 6
  | .level => 7
  | .noSession => 8
  | .noStage => 9
  | .stageBusy => 0xA
  | .state => 0xB
  | .tooLate => 0xC
  | .check => 0xD
  | .flash => 0xE
  | .busy => 0xF
  | .seq => 0x10
  | .auth => 0x11
  | .format => 0x12
  | .notStaged => 0x13
  | .partial_ => 0x14

/-! ### Staged values (R370, R373) -/

/-- The staged value of an object, none if the transaction does not hold it. -/
def Staging.value (g : Staging) (index sub : Nat) : Option (List Byte) :=
  SMap.get none (g.vals.map fun e => (e.1, some e.2)) (objKey index sub)

/-- The number that stands for an object at the apply instant: the staged one, else the one in force (R373). -/
def State.atApply (s : State) (index sub : Nat) : Nat :=
  match s.agent.staging.value index sub with
  | some v => natLE v
  | none => s.readNum index sub

/-- The declaration that is in force at the apply instant. -/
def State.declAtApply (s : State) : List Byte := (s.agent.staging.value 0x2B00 0).getD (s.blob 0x2B00 0 64)

/-- The transaction counts as staging the object (R370). -/
def State.isStaged (s : State) (index sub : Nat) : Bool :=
  (s.agent.staging.value index sub).isSome &&
    (s.agent.staging.st = .open_ || s.agent.staging.st = .checked || s.agent.staging.st = .scheduled)

/-! ### The plan (08 R238, R239) -/

/-- Strokes of calendar `c` from `a` to `b`, modulo 1,024. -/
def strokeGap (a b : Nat) : Nat := (b + 1024 - a) % 1024

/-- The LINK pair of an entry is mutual (R239). -/
def linkOk (cal : SMap Nat) (st e : Nat) : Bool :=
  let o := SMap.get 0 cal (entLink e)
  if entCu e then entOp o = entOp e && !entCu o && entHasCu o && entLink o = st && 5 ≤ strokeGap (entLink e) st
  else if entHasCu e then entOp o = entOp e && entCu o && entLink o = st && 5 ≤ strokeGap st (entLink e)
  else true

/-- A TX entry of quill `q` keeps R238 and R239. -/
def State.txOk (s : State) (copy q st e : Nat) : Bool :=
  let plan := (s.quill q).plan copy
  let r := SMap.get 0 plan.bufs (entBuf e)
  let i := SMap.get 0 ((s.quill (entInq e)).plan copy).rx (entArr e)
  let input : Bool := (entOp i = 2 || entOp i = 5) && bit (entOmask i) q && 2 ≤ strokeGap (entArr e) st
  linkOk plan.tx st e &&
    match entOp e with
    | 0 => true
    | 1 => regKind r = 1
    | 2 => input
    | 4 => input && regKind r = 3
    | _ => false

/-- An RX entry of quill `q` keeps R238 and R239. -/
def State.rxOk (s : State) (copy q st e : Nat) : Bool :=
  let plan := (s.quill q).plan copy
  let r := SMap.get 0 plan.bufs (entBuf e)
  let onward : Bool := (List.range 16).all fun j => !bit (entOmask e) j ||
    ((s.quill j).plan copy).tx.any fun t => (entOp t.2 = 2 || entOp t.2 = 4) && entInq t.2 = q && entArr t.2 = st
  linkOk plan.rx st e &&
    match entOp e with
    | 0 => true
    | 2 => onward
    | 3 => regKind r = 2
    | 5 => onward && regKind r = 2
    | _ => false

/-- A region in use keeps R239 and R243: within the buffer, its format and COMB as its kind allows. -/
def regionOk (r : Nat) : Bool :=
  regBase r + regSpan r ≤ 65536 && (regKind r = 1 || !regComb r) &&
    (!(regKind r = 3 || regComb r) || !regWide192 r || field r 117 108 % 3 = 0)

/-- Two regions overlap. -/
def regionsMeet (a b : Nat) : Bool := regBase a < regBase b + regSpan b && regBase b < regBase a + regSpan a

/-- No region of the list meets a later one. -/
def regionsApart : List Nat → Bool
  | [] => true
  | r :: rs => rs.all (fun x => !regionsMeet r x) && regionsApart rs

/-- Primaries, in calendar `cal`, of the entries of the given operations that name buffer handle `h`. -/
def primariesOf (cal : SMap Nat) (ops : List Nat) (h : Nat) : List Nat :=
  ((cal.filter fun e => ops.contains (entOp e.2) && entBuf e.2 = h).map fun e => entPrimary e.2 e.1).eraseDups

/-- The regions of a quill keep R239. -/
def Calendar.regionsOk (c : Calendar) : Bool :=
  let used := c.bufs.filter fun e => regKind e.2 ≠ 0
  used.all (fun e => regionOk e.2) && regionsApart (used.map Prod.snd) &&
    (List.range 256).all fun h =>
      (primariesOf c.tx [1] h).length ≤ 1 && (primariesOf c.tx [4] h).length ≤ 1 && (primariesOf c.rx [3, 5] h).length ≤ 1

/-- The copy `copy` may take effect (R238, R239): 0, or the check code of the first rule that it breaks. -/
def State.planCode (s : State) (copy : Nat) : Nat :=
  let quillOk (q : Nat) : Bool :=
    let x := s.quill q
    let c := x.plan copy
    ((x.link = .up && s.inCodex q) || !c.active) && c.tx.all (fun e => s.txOk copy q e.1 e.2) && c.rx.all (fun e => s.rxOk copy q e.1 e.2) &&
      c.regionsOk && x.ruled.owed.isEmpty && x.ruled.awaiting.isEmpty && x.ruled.holding.isEmpty
  if !(List.range 16).all quillOk then 1 else if s.time.st ≠ 2 then 2 else 0

/-! ### The declaration (11 R331, R332) -/

/-- The first declaration check that fails, 0 for none (R332). -/
def State.declCode (s : State) : Nat :=
  let d := s.declAtApply
  let f (off n : Nat) : Nat := natLE (slice d off n)
  let within (lo hi x : Nat) : Bool := lo ≤ x && x ≤ hi
  let pos := s.atApply 0x2803 0
  let copy := s.atApply 0x2802 0
  let late (q : Nat) : Bool := ((s.quill q).plan copy).active && f 0x0E 2 < s.obj 0x6021 q
  if !(within 1 128 (f 0 2) && within 1 64 (f 2 2) && within 1 32 (f 4 1) && within 1 32 (f 5 1) && f 0x23 1 = 0 &&
      natLE (slice d 0x2C 20) = 0) then 1
  else if s.gridRows < f 0 2 || 64 < f 2 2 then 2
  else if f 4 1 ≤ field pos 4 0 || f 5 1 ≤ field pos 9 5 then 3
  else if 3145728 < f 0x10 4 || 262144 < f 0x14 4 || 512 < f 0x1C 2 || 16 < f 0x1E 1 || 65536 < f 0x18 4 || 64 < f 0x1F 1 then 4
  else if f 7 1 ≠ 1 then 5
  else if f 8 2 ≠ 24 || f 0xA 2 ≠ 1024 then 6
  else if f 0xC 2 < 185 then 7
  else if f 0xE 2 = 0 || (List.range 16).any late then 8
  else if f 6 1 ≠ s.obj 0x2900 0 then 9
  else 0

/-! ### The check (R371) -/

/-- The binding cannot be enabled (13 R395, R404). -/
def State.enableBarred (s : State) : Bool := s.recovery.held.isSome || s.recovery.retired.isSome

/-- The apply does not take the job binding from OFF to OPENING, so that it may not change the declaration (R332). -/
def State.declBarred (s : State) : Bool :=
  s.binding.fn.code ≠ .off || s.atApply 0x2A10 0 ≠ 1 || (s.agent.staging.value 0x2A10 0).isNone

/-- The check code of one staged object, 0 for none (R371). -/
def State.objectCode (s : State) (index v : Nat) : Nat :=
  match index with
  | 0x2802 => s.planCode v
  | 0x4602 => if s.obj 0x8060 (v + 1) ≠ s.obj 0x8061 (v + 1) then 3 else 0
  | 0x2901 => if s.spareEndpoints.any fun e => field e.2 61 46 ≠ 0 then 4 else 0
  | 0x2B00 =>
    if s.declBarred || s.declCode ≠ 0 then 5 else 0
  | 0x2A10 => if v = 1 && s.enableBarred then 6 else 0
  | 0x2E04 =>
    let d := s.declAtApply
    let n := field v 16 4
    if bit v 31 && !(n / 64 < natLE (slice d 0 2) && n % 64 < natLE (slice d 2 2)) then 6 else 0
  | _ => 0

/-- The first failure among staged objects, in order of index, as 0x9003:00 holds it; 0 for none. -/
def State.firstFailure (s : State) : List (Nat × List Byte) → Nat
  | [] => 0
  | (k, v) :: es =>
    let c := s.objectCode (k / 256) (natLE v)
    if c = 0 then s.firstFailure es else (k / 256) <<< 48 + (k % 256) <<< 40 + c

/-- The check of R371 is made: the declaration's own result goes to 0x2B01:00 (R332). -/
def State.checkStaged (s : State) : State × Nat :=
  let w := s.firstFailure s.agent.staging.vals
  let s := if (s.agent.staging.value 0x2B00 0).isSome && !s.declBarred then s.setObj 0x2B01 0 s.declCode else s
  (s, w)

/-- The staging transaction changed by `f`. -/
def State.updStaging (s : State) (f : Staging → Staging) : State :=
  { s with agent := { s.agent with staging := f s.agent.staging } }

/-! ### The apply (R373) -/

/-- A staged value becomes the value in force; the objects with an effect of their own take it afterwards. -/
def State.putStaged (s : State) (k : Nat) (v : List Byte) : State :=
  let index := k / 256
  let sub := k % 256
  match index with
  | 0x2B00 => s.setBlob index sub v
  | 0x2B02 => s.setBlob index sub v
  | 0x2802 => s
  | 0x2901 => s
  | 0x2E04 => s
  | _ => s.setObj index sub (natLE v)

/-- The Prompt Window is loaded from its block (14 R422). -/
def State.loadPrompt (s : State) : State :=
  let b := s.deskBytes (s.obj 0x2E01 0) 256
  { s with desk := { s.desk with prompt := Memory.writeBytes [] 0 b } }

/-- MEAS3 is extended when the apply changed the digest or the declaration (15 R441). -/
def State.measureImage (s before : State) : State :=
  if s.blob 0x2B00 0 64 = before.blob 0x2B00 0 64 && s.blob 0x2B02 0 32 = before.blob 0x2B02 0 32 then s
  else s.extend 3 (sha3 (s.blob 0x2B02 0 32 ++ s.blob 0x2B00 0 64))

/-- The effect that an object's chapter ties to its apply instant (R373). -/
def State.tiedEffect (s : State) (index v : Nat) : State :=
  match index with
  | 0x2622 => s.startFlush
  | 0x4602 => s.setEpoch v
  | 0x2802 => s.applyPlan v
  | 0x2901 => s.applyEndpoints v
  | 0x2E01 => s.loadPrompt
  | 0x2E04 =>
    let bell : Option (Nat × Nat) := if bit v 31 then some (field v 16 4, field v 3 0) else none
    State.ringBells 64 { s with binding := { s.binding with doorbell := bell } }
  | 0x2A20 => if v = 0 then s.stopMirror else s
  | 0x2A10 => if v = 1 then s.enableBinding else s.disableBinding
  | _ => s

/-- Objects with a tied effect, in the order in which the effects are made; the job binding comes last. -/
def tiedOrder : List Nat := [0x2622, 0x4602, 0x2802, 0x2901, 0x2E01, 0x2E04, 0x2A20, 0x2A10]

/-- Every staged value takes effect, with every effect tied to it (R373). -/
def State.applyStaged (s : State) : State :=
  let g := s.agent.staging
  let s' := g.vals.foldl (fun t e => t.putStaged e.1 e.2) s
  tiedOrder.foldl (fun t i =>
    match g.value i 0 with
    | some v => t.tiedEffect i (natLE v)
    | none => t) (s'.measureImage s)

/-- The row STAGE_APPLY_INSTANT (R373): a drain of HOLD_IN_N that is due at the same line is received first (16 R451). -/
def State.applyInstant (s : State) : State :=
  if s.agent.staging.st ≠ .scheduled || s.now < s.agent.staging.instant then s
  else
    let s := s.drainHold
    let r := s.checkStaged
    if r.2 ≠ 0 then
      (r.1.updStaging fun g => { g with st := .failed, firstFail := r.2 }).event 0x07 0 r.2
    else
      let n := s.agent.staging.vals.length
      (r.1.applyStaged.updStaging fun g => { g with st := .applied, lastApply := g.instant }).event 0x06 0 n

/-- The row STAGE_APPLY_INSTANT. -/
def execStageApplyInstant (s : State) : Out := .next s.applyInstant

end Sys2Proof.Machine
end

