-- ==== Sys2Proof/Machine/Ledger.lean ====
section
/-! DEFINITION. Writes of Ledger objects: their checks and their effects, and the rows that are a write of one object (12 R355-R359,
R369-R374; the object tables of every chapter). -/

namespace Sys2Proof.Machine

/-! ### Sessions -/

/-- The open session of an identifier (R360). -/
def State.session (s : State) (sess : Nat) : Option Session := s.agent.sessions.find? fun x => x.id = sess

/-! ### Values (R357) -/

/-- A calendar's bytes: no reserved bit and no reserved OP (08 R237). -/
def calendarOk (n : Nat) (bs : List Byte) : Bool :=
  (List.range n).all fun i =>
    let e := natLE (slice bs (8 * i) 8)
    field e 10 0 = 0 && entOp e ≤ 5

/-- A buffer-table entry holds no reserved bit or LEN; of an unused one nothing is read (08 R243). -/
def bufOk (r : Nat) : Bool := regKind r = 0 || (field r 93 64 = 0 && 1 ≤ field r 117 108 && field r 117 108 ≤ 512)

/-- A reset request keeps R397. -/
def resetWordOk (v : Nat) : Bool :=
  match field v 31 24 with
  | 2 => field v 23 14 = 0 && field v 13 0 < 8448
  | 3 => field v 23 0 = 0
  | 4 => field v 23 0 = 0
  | _ => false

/-- A firmware command exists (15 R439). -/
def fwWordOk (v : Nat) : Bool := 1 ≤ field v 15 8 && field v 15 8 ≤ 4 && (field v 15 8 ≠ 4 || field v 7 0 ≤ 3)

/-- A value of 0x1001 is in range (R382). -/
def rangeComm (sub v : Nat) : Bool :=
  match sub with
  | 1 => 1024 ≤ v
  | 5 => 1000 ≤ v && v ≤ 600000
  | _ => true

/-- A numeric value is one that the object's own rules allow, basic objects (R357). -/
def rangeBasic (index sub v : Nat) : Bool :=
  match index with
  | 0x1001 => rangeComm sub v
  | 0x2622 => v % 32768 = 0
  | 0x2706 => v ≤ 16383
  | 0x2707 => v ≤ 2
  | 0x2801 => v ≤ 4095
  | 0x2802 => v ≤ 1
  | 0x2803 => v < 1024
  | 0x2900 => v ≤ 3
  | 0x2901 => v ≤ 1
  | 0x2A00 => v ≤ 16383
  | 0x2A10 => v ≤ 1
  | 0x2A23 => v % 2 ^ 21 = 0
  | 0x2A24 => v < 4096
  | 0x2B10 => v % 32 = 0
  | 0x2B11 => 1 ≤ v && v ≤ 1048576
  | 0x2D20 => fwWordOk v
  | 0x2E04 => field v 30 17 = 0
  | _ => true

/-- A numeric value is one that the object's own rules allow, expert objects (R357). -/
def rangeExpert (index v : Nat) : Bool :=
  match index with
  | 0x4010 => 256 ≤ v && v ≤ 65536
  | 0x4602 => v ≤ 1
  | 0x4620 => v ≤ 1
  | 0x4621 => 100 ≤ v && v ≤ 1000000
  | 0x4622 => field v 7 6 = 1 || field v 7 6 = 2
  | 0x4625 => 10 ≤ v && v ≤ 50000
  | 0x4626 => v ≤ 1
  | 0x4700 => 100 ≤ v && v ≤ 10000
  | 0x4701 => v ≤ 127
  | 0x4702 => v ≤ 1
  | 0x4704 => -100 ≤ signed 32 v && signed 32 v ≤ 100
  | 0x4800 => 1 ≤ v && v ≤ 1000
  | 0x4801 => 16 ≤ v && v ≤ 1048576
  | 0x4900 => 10 ≤ v && v ≤ 100000
  | 0x4901 => 100 ≤ v && v ≤ 1000000
  | 0x4C00 => 1000 ≤ v && v ≤ 10000000
  | 0x4C02 => v ≤ 3600000
  | 0x4C03 => resetWordOk v
  | 0x4D01 => 8192 ≤ v && v ≤ 125829120
  | 0x4E00 => 1000 ≤ v && v ≤ 8000
  | 0x4F10 => 1 ≤ v && v ≤ 4
  | _ => true

/-- A numeric value is one that the object's own rules allow, arrays by quill and quire and the staging command (R357). -/
def rangeArray (index sub v : Nat) : Bool :=
  match index with
  | 0x6020 => -2000 ≤ signed 32 v && signed 32 v ≤ 2000
  | 0x6041 => v ≤ 1
  | 0x6048 => v = 0
  | 0x6050 => field v 44 32 = 0 && field v 15 0 = 0
  | 0x6060 => testWordOk v
  | 0x7022 => v = 0
  | 0x9000 => sub = 2 || (1 ≤ v && v ≤ 5)
  | _ => true

/-- A value of the right length is one that the object's own rules allow (R357). -/
def objectInRange (e : ObjEntry) (index sub : Nat) (v : List Byte) : Bool :=
  let n := natLE v
  if e.type.size = 0 then
    if index = 0x6030 || index = 0x6031 then calendarOk 1024 v
    else if index = 0x6032 then (List.range 256).all fun i => bufOk (natLE (slice v (16 * i) 16))
    else if 0x5000 ≤ index && index ≤ 0x500F then field n 61 46 = 0
    else if index = 0x2B00 then natLE (slice v 0x23 1) = 0 && natLE (slice v 0x2C 20) = 0
    else true
  else if e.type = .bool && 1 < n then false
  else if index < 0x4000 then rangeBasic index sub n
  else if index < 0x6000 then rangeExpert index n
  else rangeArray index sub n

/-! ### The staging commands (R371, R372, R374) -/

/-- Command OPEN. -/
def State.stageOpen (s : State) (sess : Nat) : State × LapStatus :=
  match s.agent.staging.st with
  | .open_ => (s, .state)
  | .checked => (s, .state)
  | .scheduled => (s, .state)
  | _ => (s.updStaging fun g => { g with st := .open_, owner := sess, vals := [], firstFail := 0 }, .ok)

/-- Command CHECK. -/
def State.stageCheck (s : State) : State × LapStatus :=
  match s.agent.staging.st with
  | .idle => (s, .state)
  | .scheduled => (s, .state)
  | .applied => (s, .state)
  | .failed => (s, .state)
  | _ =>
    let r := s.checkStaged
    if r.2 = 0 then (r.1.updStaging fun g => { g with st := .checked, firstFail := 0 }, .ok)
    else (r.1.updStaging fun g => { g with st := .open_, firstFail := r.2 }, .check)

/-- Command APPLY (R372). -/
def State.stageApply (s : State) : State × LapStatus :=
  let t := s.agent.staging.instant
  if s.agent.staging.st ≠ .checked then (s, .state)
  else if t % 24576 ≠ 0 || s.now + 10000000000 < t then (s, .range)
  else if t < s.now + 10000 then (s, .tooLate)
  else (s.updStaging fun g => { g with st := .scheduled }, .ok)

/-- Command CANCEL. -/
def State.stageCancel (s : State) : State × LapStatus :=
  if s.agent.staging.st ≠ .scheduled then (s, .state)
  else if s.now + 10000 < s.agent.staging.instant then (s.updStaging fun g => { g with st := .checked }, .ok)
  else (s, .tooLate)

/-- Command DISCARD. -/
def State.stageDiscard (s : State) : State × LapStatus :=
  if s.agent.staging.st = .scheduled || s.agent.staging.st = .idle then (s, .state)
  else (s.updStaging fun g => { g with st := .idle, owner := 0, vals := [] }, .ok)

/-- A staging command of a session (R371): all but OPEN are the owner's. -/
def State.stageCommand (s : State) (sess v : Nat) : State × LapStatus :=
  if v = 1 then s.stageOpen sess
  else if s.agent.staging.owner ≠ sess then (s, .stageBusy)
  else if v = 2 then s.stageCheck
  else if v = 3 then s.stageApply
  else if v = 4 then s.stageCancel
  else s.stageDiscard

/-- A write of 0x9000:02 (R372). -/
def State.stageInstant (s : State) (sess v : Nat) : State × LapStatus :=
  if s.agent.staging.owner ≠ sess then (s, .stageBusy)
  else if s.agent.staging.st = .scheduled then (s, .state)
  else (s.updStaging fun g => { g with instant := v }, .ok)

/-- A write of an RWS object (R370). -/
def State.stageValue (s : State) (sess index sub : Nat) (v : List Byte) : State × LapStatus :=
  let g := s.agent.staging
  let vals := SMap.insert (objKey index sub) v g.vals
  match g.st with
  | .idle => (s, .noStage)
  | .applied => (s, .noStage)
  | .failed => (s, .noStage)
  | st =>
    if g.owner ≠ sess then (s, .stageBusy)
    else if st = .scheduled then (s, .state)
    else if index = 0x2A10 && natLE v = 1 && s.enableBarred then (s, .state)
    else if 256 < vals.length || 16384 < (vals.map fun e => e.2.length).sum then (s, .busy)
    else (s.updStaging fun g => { g with st := .open_, vals := vals }, .ok)

/-! ### Effects of writes that act when handled (R358) -/

/-- A refusal for the state, or the effect. -/
def orState (s : State) (r : Option State) : State × LapStatus :=
  match r with
  | some s' => (s', .ok)
  | none => (s, .state)

/-- A fault entry is resolved (06 R197). -/
def State.writeResolve (s : State) (v : Nat) : State × LapStatus :=
  let e := field v 5 0
  if s.entryHeld e then (s.resolve e (field v 7 6), .ok) else (s, .state)

/-- The table of a quill in the copy not in force is replaced (08 R263). -/
def State.writeTable (s : State) (index q : Nat) (v : List Byte) : State :=
  let entries (k n : Nat) : SMap Nat :=
    ((List.range n).map fun i => (i, natLE (slice v (k * i) k))).filter fun e => e.2 ≠ 0
  let put (c : Calendar) : Calendar :=
    match index with
    | 0x6030 => { c with tx := entries 8 1024 }
    | 0x6031 => { c with rx := entries 8 1024 }
    | _ => { c with bufs := entries 16 256 }
  s.updRuled q fun p => if otherCopy s.planCopy = 1 then { p with plan1 := put p.plan1 } else { p with plan0 := put p.plan0 }

/-- An Endpoint Table entry of the copy not in force is replaced (09 R289). -/
def State.writeEndpoint (s : State) (n v : Nat) : State :=
  if s.obj 0x2901 0 = 1 then { s with margin := { s.margin with eps0 := SMap.set 0 s.margin.eps0 n v } }
  else { s with margin := { s.margin with eps1 := SMap.set 0 s.margin.eps1 n v } }

/-- The blotter region moves (13 R399): the region header is copied to the new base, when the region there lies in the data
space. -/
def State.moveBlotter (s : State) (base : Nat) : State :=
  let h := s.deskBytes s.blotBase 64
  (if s.blotWritable base then s.deskPut base h else s).setObj 0x4C01 0 base

/-- A quill is enabled or disabled (R377); an enable stops a link test (16 R458). -/
def State.writeEnable (s : State) (q v : Nat) : State :=
  let s := s.setObj 0x6041 q v
  if v = 1 then (s.stopTest q).enableQuill q else s.disableQuill q

/-- A firmware command (15 R439). -/
def State.writeFirmware (s : State) (v : Nat) : State × LapStatus :=
  if s.fwRefused (field v 15 8) (field v 7 0) then (s, .state) else (s.fwBegin (field v 15 8) (field v 7 0), .ok)

/-- The first-fault records are cleared (11 R354). -/
def State.clearFaults (s : State) : State :=
  ((List.range 16).foldl (fun s k => s.setObj 0x701B k 0) s).setObj 0x8010 0 0

/-- A link test word (16 R458). -/
def State.writeTest (s : State) (q v : Nat) : State × LapStatus :=
  if field v 1 0 ≠ 0 && (s.quill q).fn.code ≠ .off then (s, .state) else (s.setTest q v, .ok)

/-- Writes that do something when 1 is written, and nothing when 0 is. -/
def State.writeOne (s : State) (index sub : Nat) : State × LapStatus :=
  match index with
  | 0x1001 => ({ s with boot := { s.boot with restore := true } }, .ok)
  | 0x2B12 => orState s s.placeBegin
  | 0x2B15 => if s.binding.fn.code = .off then (s.clearFaults, .ok) else (s, .state)
  | 0x4623 => (s.startFlush, .ok)
  | 0x4705 => s.requestStep
  | 0x4C04 => (s.blot 9, .ok)
  | 0x4C05 => ({ s with recovery := { s.recovery with clearAsked := true } }, .ok)
  | _ => (s.setObj index sub 1, .ok)

/-- A write of a WO object. -/
def State.writeCommand (s : State) (sess index sub : Nat) (v : List Byte) : State × LapStatus :=
  let n := natLE v
  match index with
  | 0x2D04 => (s.extend 2 v, .ok)
  | 0x2D10 => (s.keepQuote sess v, .ok)
  | 0x2D20 => s.writeFirmware n
  | 0x4622 => s.writeResolve n
  | 0x4C03 => orState s (s.requestReset (field n 31 24) (field n 13 0))
  | 0x4F10 => (s.unstick n, .ok)
  | 0x9000 => s.stageCommand sess n
  | _ => if n = 1 then s.writeOne index sub else (s, .ok)

/-- A write of an RW or RWP object. -/
def State.writeNow (s : State) (sess index sub : Nat) (v : List Byte) : State × LapStatus :=
  let n := natLE v
  if 0x5000 ≤ index && index ≤ 0x500F then
    if s.isStaged 0x2901 0 then (s, .stageBusy) else (s.writeEndpoint ((index - 0x5000) * 256 + sub) n, .ok)
  else
    match index with
    | 0x6030 => if s.isStaged 0x2802 0 then (s, .stageBusy) else (s.writeTable index sub v, .ok)
    | 0x6031 => if s.isStaged 0x2802 0 then (s, .stageBusy) else (s.writeTable index sub v, .ok)
    | 0x6032 => if s.isStaged 0x2802 0 then (s, .stageBusy) else (s.writeTable index sub v, .ok)
    | 0x6041 => (s.writeEnable sub n, .ok)
    | 0x6060 => s.writeTest sub n
    | 0x4C01 => (s.moveBlotter n, .ok)
    | 0x4C06 =>
      let s := s.setObj 0x4C06 0 n
      (if n = 0 then { s with recovery := { s.recovery with samples := [] } } else s, .ok)
    | 0x9000 => s.stageInstant sess n
    | _ =>
      match lookupObj index sub with
      | some e => if e.type.size = 0 then (s.setBlob index sub v, .ok) else (s.setObj index sub n, .ok)
      | none => (s, .noObject)

/-! ### A write (R355, R357-R359) -/

/-- The refusals that do not rest on the value: existence, right, level and length, in this order. -/
def State.writeBar (s : State) (sess index sub len : Nat) : LapStatus :=
  match s.session sess with
  | none => .noSession
  | some x =>
    if !indexKnown index then .noObject
    else
      match lookupObj index sub with
      | none => .noSubindex
      | some e =>
        if e.right = .ro then .readOnly
        else if e.expert && !x.expert then .level
        else if len ≠ e.size then .type
        else .ok

/-- What the boot flash holds of an object whose value could not be persisted: the value before, until a later write succeeds (R358). -/
def State.notePersist (s : State) (k : Nat) (flashOk : Bool) : State :=
  let old := s.flash.unsaved
  if flashOk then { s with flash := { s.flash with unsaved := old.filter fun u => u.key ≠ k } }
  else if old.any fun u => u.key = k then s
  else { s with flash := { s.flash with unsaved := old ++ [⟨k, SMap.get none s.objs k, SMap.get [] s.blobs k⟩] } }

/-- Whether the boot flash takes the next write: the spec does not say when one fails, so it is a free value (log entries 6 and 19). -/
def State.flashTakes (s : State) : Bool := s.free % 2 = 0

/-- A write of an RWP object (R358): where the flash write fails the value takes effect and is not persisted. -/
def State.writePersisted (s : State) (sess index sub : Nat) (v : List Byte) : State × LapStatus :=
  let r := (s.took.notePersist (objKey index sub) s.flashTakes).writeNow sess index sub v
  if r.2 = .ok && !s.flashTakes then (r.1, .flash) else r

/-- A whole value written to an object by a session, with its status (R355, R357-R359). -/
def State.ledgerWrite (s : State) (sess index sub : Nat) (v : List Byte) : State × LapStatus :=
  let bar := s.writeBar sess index sub v.length
  if bar ≠ .ok then (s, bar)
  else
    match lookupObj index sub with
    | none => (s, .noSubindex)
    | some e =>
      if !objectInRange e index sub v then (s, .range)
      else
        match e.right with
        | .ro => (s, .readOnly)
        | .rws => s.stageValue sess index sub v
        | .wo => s.writeCommand sess index sub v
        | .rwp => s.writePersisted sess index sub v
        | _ => s.writeNow sess index sub v

/-! ### The rows that are a write of one object -/

/-- A session has been heard from (R360). -/
def Session.touch (x : Session) (sess now : Nat) : Session := if x.id = sess then { x with lastUse := now } else x

/-- The agent's answer to a command that is a write of one object: its status is kept, and its session has been heard from. -/
def State.commit (sess : SessionId) (r : State × LapStatus) : State :=
  { r.1 with agent := { r.1.agent with
      lastStatus := r.2, sessions := r.1.agent.sessions.map fun x => x.touch sess.toNat r.1.now } }

/-- The row of a write of a number. -/
def State.writeNum (s : State) (sess : SessionId) (index sub size v : Nat) : State :=
  State.commit sess (s.ledgerWrite sess.toNat index sub (bytesLE size v))

/-- The row LEDGER_REGISTER_WRITE (R358). -/
def execLedgerRegisterWrite (sess : SessionId) (index : BitVec 16) (sub : BitVec 8) (value : List Byte) (s : State) : Out :=
  .next (State.commit sess (s.ledgerWrite sess.toNat index.toNat sub.toNat value))

/-- The row STAGE_OPEN (R371). -/
def execStageOpen (sess : SessionId) (s : State) : Out := .next (s.writeNum sess 0x9000 1 1 1)
/-- The row STAGE_CHECK (R371). -/
def execStageCheck (sess : SessionId) (s : State) : Out := .next (s.writeNum sess 0x9000 1 1 2)
/-- The row STAGE_APPLY (R371, R372). -/
def execStageApply (sess : SessionId) (s : State) : Out := .next (s.writeNum sess 0x9000 1 1 3)
/-- The row STAGE_CANCEL (R371). -/
def execStageCancel (sess : SessionId) (s : State) : Out := .next (s.writeNum sess 0x9000 1 1 4)
/-- The row STAGE_DISCARD (R371). -/
def execStageDiscard (sess : SessionId) (s : State) : Out := .next (s.writeNum sess 0x9000 1 1 5)

/-- The row RESUME (06 R197). -/
def execResumeTransfer (sess : SessionId) (entry : BitVec 6) (s : State) : Out :=
  .next (s.writeNum sess 0x4622 0 1 (64 + entry.toNat))
/-- The row ABORT (06 R197). -/
def execAbortTransfer (sess : SessionId) (entry : BitVec 6) (s : State) : Out :=
  .next (s.writeNum sess 0x4622 0 1 (128 + entry.toNat))
/-- The row TRANSLATION_FLUSH (06 R187). -/
def execTranslationFlush (sess : SessionId) (s : State) : Out := .next (s.writeNum sess 0x4623 0 1 1)
/-- The row STEP_REQUEST (07 R217, R233): `order.cycles` are the stretched cycles of each quire since its last report, which a step's count ends with
(R212). -/
def execStepRequest (order : StepOrder) (s : State) : Out :=
  .next ((s.countCycles order.cycles).writeNum order.session 0x4705 0 1 1)
/-- The row QUILL_ENABLE (R377). -/
def execQuillEnable (sess : SessionId) (q : QuillId) (s : State) : Out := .next (s.writeNum sess 0x6041 q.val 1 1)
/-- The row QUILL_DISABLE (09 R282). -/
def execQuillDisable (sess : SessionId) (q : QuillId) (s : State) : Out := .next (s.writeNum sess 0x6041 q.val 1 0)
/-- The row PLACE_START (11 R348). -/
def execPlaceStart (sess : SessionId) (s : State) : Out := .next (s.writeNum sess 0x2B12 0 1 1)
/-- The row FAULT_RECORD_CLEAR (11 R354). -/
def execFaultRecordClear (sess : SessionId) (s : State) : Out := .next (s.writeNum sess 0x2B15 0 1 1)
/-- The row HOST_BLOT (13 R387, R406). -/
def execHostBlot (sess : SessionId) (s : State) : Out := .next (s.writeNum sess 0x4C04 0 1 1)
/-- The row NIB_RESET_REQUEST (13 R397). -/
def execNibResetRequest (sess : SessionId) (nib : BitVec 14) (s : State) : Out :=
  .next (s.writeNum sess 0x4C03 0 4 (2 * 2 ^ 24 + nib.toNat))
/-- The row COMPUTE_RESET_REQUEST (13 R397). -/
def execComputeResetRequest (sess : SessionId) (s : State) : Out := .next (s.writeNum sess 0x4C03 0 4 (3 * 2 ^ 24))
/-- The row PART_RESET_REQUEST (13 R397). -/
def execPartResetRequest (sess : SessionId) (s : State) : Out := .next (s.writeNum sess 0x4C03 0 4 (4 * 2 ^ 24))
/-- The row RETIREMENT_CLEAR (13 R404). -/
def execRetirementClear (sess : SessionId) (s : State) : Out := .next (s.writeNum sess 0x4C05 0 1 1)
/-- The row BLOTTER_REGION_MOVE (13 R399). -/
def execBlotterRegionMove (sess : SessionId) (base : BitVec 64) (s : State) : Out :=
  .next (s.writeNum sess 0x4C01 0 8 base.toNat)
/-- The row CONFIRM (15 R439). -/
def execFwConfirm (sess : SessionId) (s : State) : Out := .next (s.writeNum sess 0x2D20 0 2 0x100)
/-- The row RAISE_FLOOR (15 R439). -/
def execFwRaiseFloor (sess : SessionId) (s : State) : Out := .next (s.writeNum sess 0x2D20 0 2 0x200)
/-- The row INSTALL (15 R439). -/
def execFwInstall (sess : SessionId) (s : State) : Out := .next (s.writeNum sess 0x2D20 0 2 0x300)
/-- The row REVOKE (15 R439). -/
def execFwRevoke (sess : SessionId) (key : Byte) (s : State) : Out := .next (s.writeNum sess 0x2D20 0 2 (0x400 + key.toNat))
/-- The row MEAS2_EXTEND (15 R441). -/
def execMeas2Extend (sess : SessionId) (value : List Byte) (s : State) : Out :=
  .next (State.commit sess (s.ledgerWrite sess.toNat 0x2D04 0 value))
/-- The row QUOTE_REQUEST (15 R443). -/
def execQuoteRequest (sess : SessionId) (nonce : List Byte) (s : State) : Out :=
  .next (State.commit sess (s.ledgerWrite sess.toNat 0x2D10 0 nonce))
/-- The row RESTORE_DEFAULTS (R382). -/
def execRestoreDefaults (sess : SessionId) (s : State) : Out := .next (s.writeNum sess 0x1001 0x20 1 1)
/-- The row SIDEBAND_REARM_WRITE (16 R450). -/
def execSidebandRearmWrite (sess : SessionId) (value : Byte) (s : State) : Out := .next (s.writeNum sess 0x4F10 0 1 value.toNat)

/-- The row of a link-test word whose MODE is `mode`: another word spells no command of the row (log entry 1). -/
def State.testRow (s : State) (sess : SessionId) (q : QuillId) (v : BitVec 32) (mode : Nat) : Out :=
  if field v.toNat 1 0 = mode then .next (s.writeNum sess 0x6060 q.val 4 v.toNat) else .fault .illFormed

/-- The row LINK_TEST_OFF (16 R458). -/
def execLinkTestOff (sess : SessionId) (q : QuillId) (value : BitVec 32) (s : State) : Out := s.testRow sess q value 0
/-- The row LINK_TEST_LANE (16 R460). -/
def execLinkTestLane (sess : SessionId) (q : QuillId) (value : BitVec 32) (s : State) : Out := s.testRow sess q value 1
/-- The row LINK_TEST_FRAMED (16 R461). -/
def execLinkTestFramed (sess : SessionId) (q : QuillId) (value : BitVec 32) (s : State) : Out := s.testRow sess q value 2

end Sys2Proof.Machine
end

