-- ==== Sys2Proof/Machine/Agent.lean ====
section
/-! DEFINITION. The Ledger agent: arrival of LAP messages, sessions, reads and writes, events and their repeats, timeouts
(12 R360-R367, R374, R379; 15 R443). -/

namespace Sys2Proof.Machine

/-! ### A request (R363) -/

/-- TYPE of a message. -/
def lapType (m : List Byte) : Nat := natLE (slice m 3 1)
/-- SESSION of a message. -/
def lapSession (m : List Byte) : Nat := natLE (slice m 6 2)
/-- SEQ of a message. -/
def lapSeq (m : List Byte) : Nat := natLE (slice m 8 4)
/-- COUNT of a message. -/
def lapCount (m : List Byte) : Nat := natLE (slice m 0xC 2)
/-- LEN of a message. -/
def lapLen (m : List Byte) : Nat := natLE (slice m 0xE 2)
/-- Payload of a message. -/
def lapPayload (m : List Byte) : List Byte := slice m 32 (lapLen m)

/-- MAGIC and CRC hold and the message is not shorter than its header and LEN (R367). -/
def lapIntact (m : List Byte) : Bool :=
  m.take 2 = [0x4C, 0x41] && 32 + lapLen m ≤ m.length &&
    natLE (slice m 0x18 4) = crc32 (m.take 0x18 ++ [0, 0, 0, 0] ++ slice m 0x1C (4 + lapLen m))

/-- A write item (R365). -/
structure WriteItem where
  index : Nat
  sub : Nat
  offset : Nat
  total : Nat
  data : List Byte
deriving DecidableEq, Repr

/-- The first `n` write items of a payload, none if they do not fill it exactly (R365, R367). -/
def writeItems : Nat → List Byte → Option (List WriteItem)
  | 0, b => if b.isEmpty then some [] else none
  | n + 1, b =>
    let len := natLE (slice b 12 2)
    let size := 16 + 4 * ceilDiv len 4
    if b.length < size then none
    else (writeItems n (b.drop size)).map fun is =>
      ⟨natLE (b.take 2), natLE (slice b 2 1), natLE (slice b 4 4), natLE (slice b 8 4), slice b 16 len⟩ :: is

/-- A read item (R365). -/
structure ReadItem where
  index : Nat
  sub : Nat
  flags : Nat
  offset : Nat
  length : Nat
deriving DecidableEq, Repr

/-- The first `n` read items of a payload (R365). -/
def readItems : Nat → List Byte → List ReadItem
  | 0, _ => []
  | n + 1, b =>
    ⟨natLE (b.take 2), natLE (slice b 2 1), natLE (slice b 3 1), natLE (slice b 4 4), natLE (slice b 8 2)⟩ ::
      readItems n (b.drop 12)

/-- Length of an OPEN payload of a LEVEL and KEYSLOT (R361, R364); none where the LEVEL is reserved. -/
def openLen (level slot : Nat) : Option Nat :=
  match level with
  | 0 => some 8
  | 1 => if slot = 0xFF then some 8 else some 3740
  | _ => none

/-- LEN and COUNT agree with the items, and nothing reserved is set (R364, R365, R367). -/
def lapFormed (m : List Byte) : Bool :=
  natLE (slice m 2 1) = 1 && natLE (slice m 4 1) = 0 && lapLen m ≤ 4128 &&
    match lapType m with
    | 1 => openLen (natLE (slice m 32 1)) (natLE (slice m 33 1)) = some (lapLen m)
    | 2 => lapLen m = 0
    | 3 => lapLen m = 12 * lapCount m
    | 4 => (writeItems (lapCount m) (lapPayload m)).isSome
    | 5 => lapLen m = 0
    | 6 => lapLen m = 0
    | 0x11 => lapLen m = 4
    | _ => false

/-- The agent's response to a request (R363). -/
def State.lapAnswer (s : State) (m : List Byte) (status sess count : Nat) (payload : List Byte) : List Byte :=
  lapMessage (lapType m) status sess (lapSeq m) count (s.now % 2 ^ 64) payload

/-- A response that handles no item. -/
def State.lapRefuse (s : State) (src : Source) (m : List Byte) (st : LapStatus) : State :=
  s.lapRespond src (s.lapAnswer m st.code (lapSession m) 0 [])

/-- The sessions changed by `f`. -/
def State.mapSessions (s : State) (f : Session → Session) : State :=
  { s with agent := { s.agent with sessions := s.agent.sessions.map f } }

/-- A message from a session's own source keeps the session open, whatever becomes of it (R360). -/
def State.hearFrom (s : State) (src : Source) (sess : Nat) : State :=
  s.mapSessions fun x => if x.source = src then x.touch sess s.now else x

/-- A LAP message arrives at the agent (R366, R367): discarded, answered FORMAT or BUSY, or queued. -/
def State.lapArrive (s : State) (src : Source) (m : List Byte) : State :=
  if !lapIntact m then s.bump 0x8092 0 1
  else
  let s := s.hearFrom src (lapSession m)
  if !lapFormed m then s.lapRefuse src m .format
  else if 64 ≤ s.agent.waiting.length then s.lapRefuse src m .busy
  else { s with agent := { s.agent with waiting := s.agent.waiting ++ [⟨src, m.take (32 + lapLen m)⟩] } }

/-! ### Sessions (R360, R361, R374) -/

/-- One session changed by `f`. -/
def State.updSession (s : State) (id : Nat) (f : Session → Session) : State :=
  s.mapSessions fun x => if x.id = id then f x else x

/-- The staging transaction when its owner closes (R374). -/
def Staging.ownerGone (g : Staging) : Staging :=
  match g.st with
  | .scheduled => g
  | _ => { g with st := .idle, owner := 0, vals := [] }

/-- A session closes (R360, R374, 15 R443). -/
def State.closeSession (s : State) (id : Nat) : State :=
  let s : State := { s with agent := { s.agent with sessions := s.agent.sessions.filter fun x => x.id ≠ id } }
  if s.agent.staging.owner = id then s.updStaging Staging.ownerGone else s

/-- The next identifier from `k` on that no open session has (R360). -/
def State.freeId (s : State) : Nat → Nat → Nat
  | 0, k => k
  | fuel + 1, k => if (s.session k).isSome then s.freeId fuel (k % 65535 + 1) else k

/-- A session opens (R360): its identifier. -/
def State.openSession (s : State) (src : Source) (expert : Bool) (evmask : Nat) : State × Nat :=
  let id := s.freeId 9 s.agent.nextId
  ({ s with agent := { s.agent with
    nextId := id % 65535 + 1
    sessions := s.agent.sessions ++ [{ id := id, expert := expert, source := src, evmask := evmask, lastUse := s.now }] } }, id)

/-- The nonce over which an expert OPEN is signed by its key (R361): one issued to its source that is not expired or used. -/
def State.nonceOf (s : State) (src : Source) (p : List Byte) : Option Nonce :=
  s.agent.nonces.find? fun n => n.source = src && s.now < n.issued + 1000000000 &&
    Config.mldsaVerify 44 (slice p 8 1312) [] (n.value ++ p.take 8) (slice p 1320 2420)

/-- The credential of an expert OPEN holds (R361). -/
def State.credentialOk (s : State) (src : Source) (p : List Byte) : Bool :=
  let slot := natLE (slice p 1 1)
  if slot = 0xFF then src = .mailbox && s.obj 0x1001 8 = 1
  else
    let hash := s.blob 0x1001 (0x10 + slot) 32
    slot ≤ 3 && !hash.all (fun b => b = 0) && sha3 (slice p 8 1312) = hash && (s.nonceOf src p).isSome

/-- The nonces after an expert OPEN with a key (R361): the one it is signed over is used, whether it opens or is refused. -/
def State.spendNonce (s : State) (src : Source) (p : List Byte) : State :=
  match s.nonceOf src p with
  | some n => { s with agent := { s.agent with nonces := s.agent.nonces.erase n } }
  | none => s

/-! ### Taking a message (R366, R367) -/

/-- The oldest waiting message, when it is of a type. -/
def State.lapHead (s : State) (type : Nat) : Option LapMsg := s.agent.waiting.head?.filter fun w => lapType w.bytes = type

/-- The oldest message leaves the queue. -/
def State.lapPop (s : State) : State := { s with agent := { s.agent with waiting := s.agent.waiting.drop 1 } }

/-- A message was handled (0x8091:00). -/
def State.handled (s : State) : State := s.bump 0x8091 0 1

/-- A session's response leaves and is kept (R367). -/
def State.sessionAnswer (s : State) (w : LapMsg) (status count : Nat) (payload : List Byte) : State :=
  let id := lapSession w.bytes
  let r := s.lapAnswer w.bytes status id count payload
  let seq := lapSeq w.bytes
  (s.lapRespond w.source r).updSession id fun x =>
    let kept := x.kept ++ [(seq, r)]
    { x with kept := kept.drop (kept.length - 16), highSeq := some (max seq (x.highSeq.getD 0)) }

/-- A message that names a session is taken (R360, R367): refused with NO_SESSION or SEQ, answered again, or handled by `k`. -/
def State.inSession (s : State) (w : LapMsg) (k : State → Session → State) : State :=
  let id := lapSession w.bytes
  let seq := lapSeq w.bytes
  let s := s.lapPop
  match (s.session id).filter fun x => x.source = w.source with
  | none => s.handled.lapRefuse w.source w.bytes .noSession
  | some x =>
    let s := s.updSession id fun x => x.touch id s.now
    match x.kept.find? fun p => p.1 = seq with
    | some p => (s.lapRespond w.source p.2).bump 0x8093 0 1
    | none =>
      if x.highSeq.any fun h => seq < h then s.handled.lapRefuse w.source w.bytes .seq
      else k s.handled { x with lastUse := s.now }

/-! ### OPEN, CLOSE, KEEPALIVE, NONCE -/

/-- The row OPEN (R360, R361). -/
def State.lapOpen (s : State) (w : LapMsg) : State :=
  let p := lapPayload w.bytes
  let s := s.lapPop.handled
  let expert : Bool := natLE (p.take 1) = 1
  let keyed : Bool := expert && natLE (slice p 1 1) ≠ 0xFF
  if 8 ≤ s.agent.sessions.length then s.lapRefuse w.source w.bytes .busy
  else
    let ok := !expert || s.credentialOk w.source p
    let s : State := if keyed then s.spendNonce w.source p else s
    if !ok then s.lapRefuse w.source w.bytes .auth
    else
      let r := s.openSession w.source expert (natLE (slice p 4 4))
      r.1.lapRespond w.source (r.1.lapAnswer w.bytes 0 r.2 0 [])

/-- The row OPEN. -/
def execLapOpen (s : State) : Out :=
  .next (match s.lapHead 1 with
    | some w => s.lapOpen w
    | none => s)

/-- The row CLOSE (R360). -/
def execLapClose (s : State) : Out :=
  .next (match s.lapHead 2 with
    | some w => s.inSession w fun s x =>
        (s.lapRespond w.source (s.lapAnswer w.bytes 0 x.id 0 [])).closeSession x.id
    | none => s)

/-- The row KEEPALIVE (R364). -/
def execLapKeepalive (s : State) : Out :=
  .next (match s.lapHead 5 with
    | some w => s.inSession w fun s _ => s.sessionAnswer w 0 0 []
    | none => s)

/-- The row NONCE (R361): the nonce is a free value. -/
def State.lapNonce (s : State) (w : LapMsg) : State :=
  let v := bytesLE 32 s.free
  let s := s.lapPop.handled.took
  let s : State := { s with agent := { s.agent with nonces := s.agent.nonces ++ [⟨w.source, v, s.now⟩] } }
  s.lapRespond w.source (s.lapAnswer w.bytes 0 (lapSession w.bytes) 0 v)

/-- The row NONCE. -/
def execLapNonce (s : State) : Out :=
  .next (match s.lapHead 6 with
    | some w => s.lapNonce w
    | none => s)

/-! ### READ (R355, R358, R359, R365) -/

/-- The value that a read item asks for, or the status that refuses it. -/
def State.valueFor (s : State) (x : Option Session) (i : ReadItem) (e : ObjEntry) : LapStatus × List Byte :=
  if e.right = .wo then (.writeOnly, [])
  else if bit i.flags 0 then
    match s.agent.staging.value i.index i.sub with
    | some v => (.ok, v)
    | none => (.notStaged, [])
  else if i.index = 0x2D11 then
    match x with
    | some x => if x.quote.isEmpty then (.state, []) else (.ok, x.quote)
    | none => (.noSession, [])
  else (.ok, s.readValue e i.index i.sub)

/-- What a read item returns before room is looked at: status, type, full length and data. -/
def State.readOne (s : State) (x : Option Session) (i : ReadItem) : LapStatus × Nat × Nat × List Byte :=
  if x.isNone && !(0x1000 ≤ i.index && i.index ≤ 0x1FFF) then (.noSession, 0, 0, [])
  else if !indexKnown i.index then (.noObject, 0, 0, [])
  else
    match lookupObj i.index i.sub with
    | none => (.noSubindex, 0, 0, [])
    | some e =>
      if field i.flags 7 1 ≠ 0 then (.format, e.type.code, 0, [])
      else
        let r := s.valueFor x i e
        let total := r.2.length
        if r.1 ≠ .ok then (r.1, e.type.code, 0, [])
        else if e.type.size ≠ 0 then
          if i.offset = 0 && (i.length = 0 || i.length = total) then (.ok, e.type.code, total, r.2) else (.type, e.type.code, 0, [])
        else
          let len := if i.length = 0 then total - i.offset else i.length
          if total < i.offset + len then (.range, e.type.code, 0, []) else (.ok, e.type.code, total, slice r.2 i.offset len)

/-- The results of the items, with the room that the rest of a message leaves (R363), and the first status not OK. -/
def State.readAll (s : State) (x : Option Session) : Nat → List ReadItem → List Byte × LapStatus
  | _, [] => ([], .ok)
  | room, i :: is =>
    let r := s.readOne x i
    let fits : Bool := 12 + 4 * ceilDiv r.2.2.2.length 4 + 12 * is.length ≤ room
    let st := if r.1 = .ok && !fits then .range else r.1
    let b := if st = .ok then readResult i.index i.sub 0 r.2.1 r.2.2.1 r.2.2.2
      else readResult i.index i.sub st.code r.2.1 0 []
    let t := s.readAll x (room - b.length) is
    (b ++ t.1, if st = .ok then t.2 else st)

/-- The row READ (R359, R365). -/
def State.lapRead (s : State) (w : LapMsg) : State :=
  let items := readItems (lapCount w.bytes) (lapPayload w.bytes)
  if lapSession w.bytes = 0 then
    let s := s.lapPop.handled
    let r := s.readAll none 4128 items
    s.lapRespond w.source (s.lapAnswer w.bytes r.2.code 0 items.length r.1)
  else
    s.inSession w fun s x =>
      let r := s.readAll (some x) 4128 items
      s.sessionAnswer w r.2.code items.length r.1

/-- The row READ. -/
def execLapRead (s : State) : Out :=
  .next (match s.lapHead 3 with
    | some w => s.lapRead w
    | none => s)

/-! ### WRITE (R365, R366) -/

/-- The assembly after a segment (R365): one of another value is displaced. -/
def addSegment (a : Option Assembly) (key now : Nat) (i : WriteItem) : Assembly :=
  let old : SMap (Option Byte) :=
    match a with
    | some a => if a.key = key && a.total = i.total then a.bytes else []
    | none => []
  ⟨key, i.total, SMap.setRange none old i.offset (i.data.map some), now⟩

/-- One write item (R365): a whole value, or a segment of a BLOB. -/
def State.writeItem (s : State) (sess : Nat) (i : WriteItem) : State × LapStatus :=
  let bar := s.writeBar sess i.index i.sub i.total
  let whole : Bool := i.offset = 0 && i.data.length = i.total
  if bar ≠ .ok then (s, bar)
  else if whole then s.ledgerWrite sess i.index i.sub i.data
  else
    match lookupObj i.index i.sub with
    | none => (s, .noSubindex)
    | some e =>
      if e.type.size ≠ 0 then (s, .type)
      else if i.total < i.offset + i.data.length then (s, .range)
      else
        let a := addSegment ((s.session sess).bind Session.assembly) (objKey i.index i.sub) s.now i
        if a.bytes.length < a.total then (s.updSession sess fun x => { x with assembly := some a }, .partial_)
        else (s.updSession sess fun x => { x with assembly := none }).ledgerWrite sess i.index i.sub
          ((SMap.getRange none a.bytes 0 a.total).map fun b => b.getD 0)

/-- The items of a WRITE in order, each on its own: their results and the first status not OK (R366). -/
def State.writeAll (s : State) (sess : Nat) : List WriteItem → State × List Byte × LapStatus
  | [] => (s, [], .ok)
  | i :: is =>
    let r := s.writeItem sess i
    let t := r.1.writeAll sess is
    (t.1, bytesLE 2 i.index ++ bytesLE 1 i.sub ++ bytesLE 1 r.2.code ++ t.2.1, if r.2 = .ok then t.2.2 else r.2)

/-- The row WRITE (R366). -/
def State.lapWrite (s : State) (w : LapMsg) : State :=
  let items := (writeItems (lapCount w.bytes) (lapPayload w.bytes)).getD []
  s.inSession w fun s x =>
    let r := s.writeAll x.id items
    r.1.sessionAnswer w r.2.2.code items.length r.2.1

/-- The row WRITE. -/
def execLapWrite (s : State) : Out :=
  .next (match s.lapHead 4 with
    | some w => s.lapWrite w
    | none => s)

/-! ### Events (R379) -/

/-- The row EVENT_ACK (R379). -/
def State.lapEventAck (s : State) (w : LapMsg) : State :=
  let upTo := natLE (lapPayload w.bytes)
  s.inSession w fun s x =>
    (s.updSession x.id fun x => { x with events := x.events.filter fun e => upTo < e.record.eseq }).sessionAnswer w 0 0 []

/-- The row EVENT_ACK. -/
def execLapEventAck (s : State) : Out :=
  .next (match s.lapHead 0x11 with
    | some w => s.lapEventAck w
    | none => s)

/-- EVENT messages of at most 16 records each (R379); the first number bounds how many. -/
def State.sendEvents (s : State) (x : Session) : Nat → List EventRec → State
  | 0, _ => s
  | _, [] => s
  | n + 1, rs => (s.took.lapEvent x (rs.take 16) s.free).sendEvents x n (rs.drop 16)

/-- A pending record is due to be repeated, or to be given up after its 8 repeats (R379). -/
def PendingEvent.due (e : PendingEvent) (now : Nat) : Bool := e.last + 1000000 ≤ now

/-- The records of one session that are due are repeated; those repeated 8 times are given up. -/
def State.repeatEvents (s : State) (x : Session) : State :=
  let again := x.events.filter fun e => e.due s.now && e.repeats < 8
  let lost := x.events.filter fun e => e.due s.now && 8 ≤ e.repeats
  let events := (x.events.filter fun e => !(e.due s.now && 8 ≤ e.repeats)).map fun e =>
    if e.due s.now then { e with repeats := e.repeats + 1, last := s.now } else e
  let s := s.updSession x.id fun x => { x with events := events }
  let s := if lost.isEmpty then s else s.bump 0x8094 0 lost.length
  s.sendEvents x (again.length / 16 + 1) (again.map PendingEvent.record)

/-- The row EVENT_REPEAT (R379). -/
def execEventRepeat (s : State) : Out := .next (s.agent.sessions.foldl State.repeatEvents s)

/-! ### Timeouts -/

/-- The row SESSION_IDLE_TIMEOUT (R360). -/
def State.idleTimeout (s : State) (id : Nat) : State :=
  match s.session id with
  | some x => if x.lastUse + s.obj 0x1001 5 * 1000000 ≤ s.now then s.closeSession id else s
  | none => s

/-- The row SESSION_IDLE_TIMEOUT. -/
def execSessionIdleTimeout (sess : SessionId) (s : State) : Out := .next (s.idleTimeout sess.toNat)

/-- The row BLOB_ASSEMBLY_TIMEOUT (R365). -/
def execBlobAssemblyTimeout (sess : SessionId) (s : State) : Out :=
  .next (s.updSession sess.toNat fun x => { x with assembly := x.assembly.filter fun a => s.now < a.time + 1000000000 })

/-- The row NONCE_EXPIRY (R361). -/
def execNonceExpiry (s : State) : Out :=
  .next { s with agent := { s.agent with nonces := s.agent.nonces.filter fun n => s.now < n.issued + 1000000000 } }

end Sys2Proof.Machine
end

