-- ==== Sys2Proof/Machine/TxlWindow.lean ====
section
/-! DEFINITION. The companion's requests: the control region, the Prompt Window, the mailbox, desk windows and the coherence
directory (14 R412-R425). -/

namespace Sys2Proof.Machine

/-! ### Taking a request (R411-R413) -/

/-- Messages before the first of the given opcodes and tag, it, and those behind. -/
def takeTxl (opcs : List Nat) (tag : Nat) : List TxlMsg → Option (TxlMsg × List TxlMsg)
  | [] => none
  | m :: ms =>
    if opcs.contains m.opc && m.tag = tag then some (m, ms)
    else (takeTxl opcs tag ms).map fun r => (r.1, m :: r.2)

/-- The oldest message received of the given opcodes and tag is served by `k`; its slots are free, and their credits return. -/
def State.serveTxl (s : State) (opcs : List Nat) (tag : Nat) (k : State → TxlMsg → State) : State :=
  match takeTxl opcs tag s.txl.rx with
  | none => s
  | some (m, rest) => (k { s with txl := { s.txl with rx := rest }.freed m } m).txlReturn

/-! ### Answers (R412, R414, R420) -/

/-- CMP, with a status. -/
def State.cmp (s : State) (m : TxlMsg) (status : Nat) : State :=
  s.txlSay (txlMsg 0x20 m.tag m.addr (rspArg status false 0) [])

/-- CMPD, with the data of the line and the state granted. -/
def State.cmpd (s : State) (m : TxlMsg) (state : Nat) (data : List Byte) : State :=
  s.txlSay (txlMsg 0x21 m.tag m.addr (rspArg 0 false state) data)

/-- CMPD of a read that met an uncorrectable block: UE, POISON and zeros (R420). -/
def State.cmpdPoison (s : State) (m : TxlMsg) : State :=
  s.txlSay (txlMsg 0x21 m.tag m.addr (rspArg 4 true 0) (List.replicate 64 0))

/-- A message for a line that the directory does not hold: discarded, answered STALE, and counted (R414, R417). -/
def State.cmpStale (s : State) (m : TxlMsg) : State := (s.bump 0x80E3 0 1).cmp m 5

/-- A read carries data back. -/
def TxlMsg.reads (m : TxlMsg) : Bool := m.opc = 1 || m.opc = 2 || m.opc = 3

/-- An uncorrectable block, met by a read or a write. -/
def State.cmpUe (s : State) (m : TxlMsg) : State := if m.reads then s.cmpdPoison m else s.cmp m 4

/-! ### The address map (R415) -/

/-- What a TXL address names. -/
inductive TxlTarget where
  | control (off : Nat)
  | window (w va : Nat)
  | nomap
deriving DecidableEq, Repr

/-- First TXL address of a window entry. -/
def winBase (w : Nat) : Nat := field w 60 37 * 2 ^ 28
/-- Size of a window entry. -/
def winSize (w : Nat) : Nat := (field w 36 19 + 1) * 2 ^ 28

/-- The lowest-numbered window that holds an address. -/
def State.windowOf (s : State) (a : Nat) : Option Nat :=
  ((List.range 8).map fun i => s.obj 0x2E10 (i + 1)).find? fun w => bit w 63 && winBase w ≤ a && a < winBase w + winSize w

/-- The control region, or the desk-virtual address by a window (R415). -/
def State.decodeTxl (s : State) (a : Nat) : TxlTarget :=
  let base := s.obj 0x2E00 0
  if base ≤ a && a < base + 65536 then .control (a - base)
  else
    match s.windowOf a with
    | some w => .window w ((field w 18 0 * 2 ^ 28 + (a - winBase w)) % 2 ^ 47)
    | none => .nomap

/-- The window's rights allow the opcode (R415). -/
def winRight (w opc : Nat) : Bool :=
  match opc with
  | 3 => bit w 62 && bit w 61
  | 4 => bit w 61
  | _ => bit w 62

/-! ### Bytes of a line -/

/-- New bytes over old ones where the mask enables them, from bit `i` on (R412). -/
def mergeLine (mask : Nat) : Nat → List Byte → List Byte → List Byte
  | i, o :: os, n :: ns => (if mask.testBit i then n else o) :: mergeLine mask (i + 1) os ns
  | _, os, _ => os

/-- All 64 bytes are enabled. -/
def wholeLine (mask : Nat) : Bool := field mask 63 0 = 2 ^ 64 - 1

/-- A write of a line of desk memory: none where its partial merge met an uncorrectable block (R420). -/
def State.writeLine (s : State) (pa : Nat) (mask : Nat) (data : List Byte) : State × Bool :=
  let r := if wholeLine mask then (s, []) else s.deskRead pa 64
  if !r.2.isEmpty then (r.1, false)
  else (r.1.deskPut pa (mergeLine mask 0 (r.1.deskBytes pa 64) (padTo 64 data)), true)

/-! ### The control region (R421-R425) -/

/-- MBCTRL (R425). -/
def Txl.mbctrl (x : Txl) : Nat := (if x.evt then 4 else 0) + (if x.rsp then 2 else 0) + if x.req then 1 else 0

/-- A line of a mailbox buffer at region offset `first`, if the offset lies in it. -/
def mailboxLine (first : Nat) (m : Memory) (off : Nat) : Option (List Byte) :=
  if first ≤ off && off < first + mailboxSize then some (m.readBytes (off - first) 64) else none

/-- A line of the control region (R421). -/
def State.controlLine (s : State) (off : Nat) : List Byte :=
  if off < 256 then s.desk.prompt.readBytes off 64
  else if off = 0x7000 then bytesLE 64 s.txl.mbctrl
  else ((mailboxLine 0x1000 s.txl.reqBuf off).orElse fun _ => (mailboxLine 0x3000 s.txl.rspBuf off).orElse fun _ =>
    mailboxLine 0x5000 s.txl.evtBuf off).getD (List.replicate 64 0)

/-- An RDU of the control region: the Prompt Window is answered first (R421, R423). -/
def State.controlRead (s : State) (m : TxlMsg) (off : Nat) : State :=
  let r := txlMsg 0x21 m.tag m.addr (rspArg 0 false 0) (s.controlLine off)
  if off < 256 then s.txlSayFirst r else s.txlSay r

/-- The doorbell rings with the word that a write left (R424). -/
def State.ringDoorbell (s : State) : State :=
  let v := natLE (s.desk.prompt.readBytes 0 3)
  State.ringBells 64 { s with binding := { s.binding with heldBells := s.binding.heldBells ++ [v] } }

/-- A WR of a Prompt Window line: the block and the window change together, and a doorbell byte rings (R422, R424). -/
def State.promptWrite (s : State) (m : TxlMsg) (off : Nat) : State :=
  let r := s.writeLine (s.obj 0x2E01 0 + off) m.arg m.data
  if !r.2 then r.1.cmp m 4
  else if off = 0 && field m.arg 7 0 ≠ 0 then r.1.ringDoorbell.cmp m 0
  else r.1.cmp m 0

/-- RSP is cleared: a held response may be placed (R425). -/
def State.clearRsp (s : State) : State := ({ s with txl := { s.txl with rsp := false } } : State).placeRsp
/-- EVT is cleared: a held EVENT message may be placed (R425). -/
def State.clearEvt (s : State) : State := ({ s with txl := { s.txl with evt := false } } : State).placeEvt

/-- A WR of MBCTRL (R425). -/
def State.mbctrlWrite (s : State) (v : Nat) : State :=
  let s : State := if bit v 0 then { s with txl := { s.txl with req := true } } else s
  let s := if bit v 1 then s.clearRsp else s
  if bit v 2 then s.clearEvt else s

/-- A WR of the control region but for the Prompt Window (R421, R425). -/
def State.controlWrite (s : State) (m : TxlMsg) (off : Nat) : State :=
  if off = 0x7000 then
    (if m.arg.testBit 0 then s.mbctrlWrite (natLE (m.data.take 1)) else s).cmp m 0
  else if 0x1000 ≤ off && off < 0x1000 + mailboxSize then
    if s.txl.req then (s.bump 0x80E6 0 1).cmp m 0
    else
      let a := off - 0x1000
      let b := mergeLine m.arg 0 (s.txl.reqBuf.readBytes a 64) (padTo 64 m.data)
      ({ s with txl := { s.txl with reqBuf := s.txl.reqBuf.writeBytes a b } } : State).cmp m 0
  else s.cmp m 0

/-- The agent takes the request buffer's message, and REQ is clear (R425). -/
def State.submitMailbox (s : State) : State :=
  if s.txl.link ≠ .up || s.boot.phase ≠ .running then s
  else
    let b := s.txl.reqBuf.readBytes 0 mailboxSize
    ({ s with txl := { s.txl with req := false } } : State).lapArrive .mailbox b

/-- The row MAILBOX_SUBMIT. -/
def execMailboxSubmit (s : State) : Out := .next s.submitMailbox

/-- The row MAILBOX_RSP_CLEAR (R425). -/
def execMailboxRspClear (s : State) : Out := .next (if s.txl.link = .up then s.clearRsp else s)

/-- The row MAILBOX_EVT_CLEAR (R425). -/
def execMailboxEvtClear (s : State) : Out := .next (if s.txl.link = .up then s.clearEvt else s)

/-! ### Desk windows and the directory (R416, R417) -/

/-- The directory's set of the line has no way free, and the line has none. -/
def State.setFull (s : State) (line : Nat) : Bool := (s.dirEntry line).isNone && 16 ≤ (s.dirWays line).length

/-- A BINV for the least recently allocated line of the set, for the request of tag `tag` (R417); none where one is out already. -/
def State.evictWay (s : State) (line tag : Nat) : State :=
  if s.txl.binvs.any fun b => b.evictFor = some tag then s
  else
    match (s.dirWays line).find? fun d => !s.binvOut d.line with
    | some d => (s.bump 0x80E4 0 1).sendBinv d (some tag)
    | none => s

/-- A request enters those in progress: the companion's copies that it must end are recalled, and a full set is made to give a
way (R417). -/
def State.startReq (s : State) (m : TxlMsg) (pa : Nat) (coh : Bool) : State :=
  let s : State := { s with txl := { s.txl with reqs := s.txl.reqs ++ [{ msg := m, pa := pa, coh := coh }] } }
  if m.opc = 4 then (if coh then s.claimLines pa 64 true else s)
  else if m.opc = 1 then s
  else if s.setFull (pa / 64) then s.evictWay (pa / 64) m.tag
  else s

/-- A window access is translated (R415, R416): refused, or in progress. -/
def State.windowReq (s : State) (m : TxlMsg) (w va : Nat) : State :=
  if !winRight w m.opc then s.cmp m 2
  else
    let r := s.translateFor va .forWindow
    match r.2 with
    | .cause 3 => r.1.cmpUe m
    | .cause _ => r.1.cmp m 1
    | .ok pa coh => if (m.opc = 2 || m.opc = 3) && !coh then r.1.cmp m 3 else r.1.startReq m pa coh

/-- The row RDU (R413, R415, R421). -/
def State.rdu (s : State) (m : TxlMsg) : State :=
  match s.decodeTxl m.addr with
  | .control off => s.controlRead m off
  | .window w va => s.windowReq m w va
  | .nomap => s.cmp m 1

/-- The row RDU. -/
def execRdu (tag : BitVec 12) (s : State) : Out := .next (s.serveTxl [1] tag.toNat State.rdu)

/-- The rows RDS and RDX (R417, R421). -/
def State.readCached (s : State) (m : TxlMsg) : State :=
  match s.decodeTxl m.addr with
  | .control _ => s.cmp m 3
  | .window w va => s.windowReq m w va
  | .nomap => s.cmp m 1

/-- The row RDS. -/
def execRds (tag : BitVec 12) (s : State) : Out := .next (s.serveTxl [2] tag.toNat State.readCached)

/-- The row RDX. -/
def execRdx (tag : BitVec 12) (s : State) : Out := .next (s.serveTxl [3] tag.toNat State.readCached)

/-- The row WR (R413, R421-R425). A Prompt Window line that the companion holds by a desk window is recalled first. -/
def State.wr (s : State) (m : TxlMsg) : State :=
  match s.decodeTxl m.addr with
  | .control off =>
    if off < 256 then
      let pa := s.obj 0x2E01 0 + off
      if s.linesHeld pa 64 true then s.startReq m pa true else s.promptWrite m off
    else s.controlWrite m off
  | .window w va => s.windowReq m w va
  | .nomap => s.cmp m 1

/-- The row WR. -/
def execWr (tag : BitVec 12) (s : State) : Out := .next (s.serveTxl [4] tag.toNat State.wr)

/-- The directory entry by which the companion knows a TXL line. -/
def State.dirByTxl (s : State) (a : Nat) : Option DirEntry := s.desk.directory.find? fun d => d.txl = a

/-- The line that a message of a desk window names: by its translation, or, where that gives none that is held, by the address
under which the companion took it (log entry 13). -/
def State.lineOf (s : State) (a : Nat) (t : Trans) : Option DirEntry :=
  let byTxl := s.dirByTxl a
  match t with
  | .ok pa _ => (s.dirEntry (pa / 64)).or byTxl
  | .cause _ => byTxl

/-- A message about a line that the companion holds: `k` acts on it; NOMAP in neither region, STALE where the line is I
(R415, R417). -/
def State.withLine (s : State) (m : TxlMsg) (k : State → DirEntry → State) : State :=
  match s.decodeTxl m.addr with
  | .nomap => s.cmp m 1
  | .control _ => s.cmpStale m
  | .window _ va =>
    let r := s.translateFor va .forWindow
    match r.1.lineOf m.addr r.2 with
    | some d => k r.1 d
    | none =>
      match r.2 with
      | .ok _ _ => r.1.cmpStale m
      | .cause 3 => r.1.cmpUe m
      | .cause _ => r.1.cmp m 1

/-- The state that an RDS or an RDX is granted. -/
def grantState (opc : Nat) : Line := if opc = 2 then .shared else .exclusive

/-- The line becomes I, and the way of one that a request evicts is allocated to that request (R417). -/
def State.giveWay (s : State) (line : Nat) : State :=
  let s1 := s.dirDrop line
  match (s.txl.binvs.find? fun b => b.line = line && b.evictFor.isSome).bind fun b =>
      s.txl.reqs.find? fun q => some q.msg.tag = b.evictFor && (s1.dirEntry (q.pa / 64)).isNone with
  | none => s1
  | some q =>
    { s1 with
      desk := { s1.desk with directory := s1.desk.directory ++ [⟨q.pa / 64, grantState q.msg.opc, q.msg.addr⟩] }
      txl := { s1.txl with reqs := s1.txl.reqs.map fun r => if r = q then { q with alloc := true } else r } }

/-- The outstanding BINV of a line is answered by a WB: its BIRSP completes nothing further (R417). -/
def State.binvDone (s : State) (line : Nat) : State :=
  { s with txl := { s.txl with binvs := s.txl.binvs.map fun b => if b.line = line then { b with done := true } else b } }

/-- The row WB (R417). -/
def State.wb (s : State) (m : TxlMsg) : State :=
  s.withLine m fun s d => (((s.deskPut (64 * d.line) (padTo 64 m.data)).giveWay d.line).binvDone d.line).cmp m 0

/-- The row WB. -/
def execWb (tag : BitVec 12) (s : State) : Out := .next (s.serveTxl [5] tag.toNat State.wb)

/-- The row CLN (R417). -/
def State.cln (s : State) (m : TxlMsg) : State := s.withLine m fun s d => (s.giveWay d.line).cmp m 0

/-- The row CLN. -/
def execCln (tag : BitVec 12) (s : State) : Out := .next (s.serveTxl [6] tag.toNat State.cln)

/-- The row BIRSP (R417): the data returned is written and the line becomes I. -/
def State.birsp (s : State) (m : TxlMsg) : State :=
  match s.txl.binvs.find? fun b => b.tag = m.tag with
  | none => s.cmpStale m
  | some b =>
    let gone (s : State) : State := { s with txl := { s.txl with binvs := s.txl.binvs.filter fun x => x ≠ b } }
    if b.done then gone s
    else if (s.dirEntry b.line).isNone then (gone s).cmpStale m
    else
      let s := if m.data.isEmpty then s else s.deskPut (64 * b.line) (padTo 64 m.data)
      gone (s.giveWay b.line)

/-- The row BIRSP. -/
def execBirsp (tag : BitVec 12) (s : State) : Out := .next (s.serveTxl [7, 8] tag.toNat State.birsp)

/-! ### Completion (R416, R417, R420) -/

/-- State granted, as the header numbers it (R412). -/
def Line.num : Line → Nat
  | .shared => 1
  | .exclusive => 2

/-- The line read for the companion to cache: held with the state recorded, or allocated (R417). A way that waited for an
uncorrectable line is free again. -/
def State.grantLine (s : State) (q : TxlReq) : State :=
  let m := q.msg
  let line := q.pa / 64
  let r := s.deskRead q.pa 64
  if !r.2.isEmpty then (if q.alloc then r.1.dirDrop line else r.1).cmpdPoison m
  else
    match s.dirEntry line with
    | some d => r.1.cmpd m d.st.num (r.1.deskBytes q.pa 64)
    | none =>
      let st := grantState m.opc
      let s : State := { r.1 with desk := { r.1.desk with directory := r.1.desk.directory ++ [⟨line, st, m.addr⟩] } }
      s.cmpd m st.num (s.deskBytes q.pa 64)

/-- A request's access takes place and is answered (R416). -/
def State.performReq (s : State) (q : TxlReq) : State :=
  let m := q.msg
  match m.opc with
  | 1 =>
    let r := s.deskRead q.pa 64
    if r.2.isEmpty then r.1.cmpd m 0 (r.1.deskBytes q.pa 64) else r.1.cmpdPoison m
  | 4 =>
    match s.decodeTxl m.addr with
    | .control off => s.promptWrite m off
    | _ =>
      let r := s.writeLine q.pa m.arg m.data
      r.1.cmp m (if r.2 then 0 else 4)
  | _ => s.grantLine q

/-- The request of a tag completes, unless it waits for a line or for a way (R416, R417). -/
def State.completeReq (s : State) (tag : Nat) : State :=
  match s.txl.reqs.find? fun q => q.msg.tag = tag with
  | none => s
  | some q =>
    if q.msg.opc = 4 && q.coh && s.linesHeld q.pa 64 true then s.claimLines q.pa 64 true
    else if (q.msg.opc = 2 || q.msg.opc = 3) && s.setFull (q.pa / 64) then s.evictWay (q.pa / 64) tag
    else State.performReq { s with txl := { s.txl with reqs := s.txl.reqs.erase q } } q

/-- The row TXL_REQUEST_COMPLETION. -/
def execTxlRequestCompletion (tag : BitVec 12) (s : State) : Out := .next (s.completeReq tag.toNat)

end Sys2Proof.Machine
end

