-- ==== Sys2Proof/Machine/Txl.lean ====
section
/-! DEFINITION. The Tamyx Link: flits, replay, credits, link down and up (14 R407-R413, R418). -/

namespace Sys2Proof.Machine

/-! ### The link goes down (R418) -/

/-- Chunks in flight that wait for a line the companion holds fault with DESK_UE (R418). -/
def State.cutChunks (s : State) : State :=
  let cut (t : Transfer) (k : Chunk) : Chunk :=
    if k.cause = 0 && s.linesHeld k.pa (t.chunkLen k.idx) t.store then { k with cause := 3 } else k
  { s with nibs := s.nibs.map fun e => (e.1, { e.2 with
      resq := e.2.resq.map fun r => (r.1, r.2.map fun t => { t with flight := t.flight.map (cut t) }) }) }

/-- The TXL goes down (R418, R425): the directory is cleared, outstanding requests are dropped, what waits for a line faults, and
a mailbox request not yet taken is discarded. -/
def State.txlDown (s : State) : State :=
  let s := s.cutChunks
  let x := s.txl
  let m := s.margin
  let s : State := { s with
    desk := { s.desk with directory := [] }
    margin := { m with recalls := [], lost := m.lost ++ m.recalls }
    txl := { wire := x.wire, reqBuf := x.reqBuf, rspBuf := x.rspBuf, evtBuf := x.evtBuf, rsp := x.rsp, evt := x.evt, rspWait := x.rspWait
             evtWait := x.evtWait } }
  s.bump 0x80E5 0 1

/-- The row TXL_LINK_DOWN (R407, R418). -/
def State.loseTxl (s : State) : State :=
  match s.txl.link with
  | .down => s
  | _ => s.txlDown

/-- The row TXL_LINK_DOWN. -/
def execTxlLinkDown (s : State) : Out := .next s.loseTxl

/-- The row BINV_TIMEOUT (R418). -/
def execBinvTimeout (s : State) : Out :=
  .next (if s.txl.binvs.any fun b => !b.done && b.sent + s.obj 0x4E00 0 ≤ s.now then s.txlDown else s)

/-- The row TXL_FLIT_TIMEOUT (R410). -/
def execTxlFlitTimeout (s : State) : Out :=
  .next (if s.txl.kept.any fun k => k.sent + 10000 ≤ s.now then s.txlDown else s)

/-- The row TXL_LINK_UP (R411, R418): `rsp`, `data` and `req` are the slots that the companion grants; the part grants all of its
own. -/
def State.txlUp (s : State) (rsp data req : Nat) : State :=
  if s.txl.link = .up || s.boot.phase ≠ .running then s
  else if rsp < 64 || data < 256 then { s with txl := { s.txl with link := .credits } }
  else
    let x := s.txl
    { s with txl :=
      { link := .up, rspCr := rsp, dataCr := data, reqCr := req, peerReq := 256, peerRsp := 256, peerData := 1024, wire := x.wire
        reqBuf := x.reqBuf, rspBuf := x.rspBuf, evtBuf := x.evtBuf, rsp := x.rsp, evt := x.evt, rspWait := x.rspWait
        evtWait := x.evtWait } }

/-- The row TXL_LINK_UP. -/
def execTxlLinkUp (rsp data req : Nat) (s : State) : Out := .next (s.txlUp rsp data req)

/-! ### A flit arrives (R408-R411, R413) -/

/-- Sequence number `f` is acknowledged by `a` (R410). -/
def txlAcked (a f : Nat) : Bool := (a + 1024 - f) % 1024 < 512

/-- The acknowledgement and the credits of a flit's header (R409-R411). -/
def Txl.takeHeader (x : Txl) (h : Nat) : Txl :=
  let n := field h 5 0
  let c := field h 7 6
  let nak := bit h 8
  { x with
    kept := if bit h 9 then x.kept.filter fun k => !txlAcked (field h 19 10) k.fseq else x.kept
    nakSeen := x.nakSeen || (nak && !x.nakLevel), nakLevel := nak
    reqCr := if c = 0 then x.reqCr + n else x.reqCr
    rspCr := if c = 1 then x.rspCr + n else x.rspCr
    dataCr := if c = 2 then x.dataCr + n else x.dataCr }

/-- A flit is rejected: NAK is set until the expected one comes, and goes out as it rises (R410). -/
def State.rejectFlit (s : State) : State :=
  let x := { s.txl with nak := true }
  ({ s with txl := if s.txl.nak then x else x.control.pair } : State).bump 0x80E1 0 1

/-- The slots of the expected PROTOCOL flit are taken; those of discarded messages are free again (R410, R411, R413). -/
def State.acceptFlit (s : State) (slots : List Byte) : State :=
  let r := flitMsgs 15 15 (padTo 240 slots)
  let x := s.txl
  let y : Txl := { x with
    expect := (x.expect + 1) % 1024, nak := false, fresh := x.fresh + 1, freshAt := if x.fresh = 0 then s.now else x.freshAt
    rx := x.rx ++ r.1 }
  let s : State := { s with txl := r.2.foldl Txl.freed ((r.1 ++ r.2).foldl Txl.spent y) }
  if r.2.isEmpty then s else s.bump 0x80E3 0 r.2.length

/-- The row TXL_FLIT_RECEIVE (R408-R413): the 256 bytes as they arrived. -/
def State.takeFlit (s : State) (b : List Byte) : State :=
  if s.txl.link ≠ .up then s
  else
    let r := readFlit b
    let s := if r.corrected = 0 then s else s.bump 0x80E0 0 r.corrected
    match r.good with
    | none => s.rejectFlit
    | some f =>
      if field f.hdr 31 30 = 1 && field f.hdr 29 20 ≠ s.txl.expect then s.rejectFlit
      else
        let s : State := { s with txl := s.txl.takeHeader f.hdr }
        (if field f.hdr 31 30 = 1 then (s.acceptFlit f.slots).txlReturn else s).txlSend

/-- The row TXL_FLIT_RECEIVE. -/
def execTxlFlitReceive (f : List Byte) (s : State) : Out := .next (s.takeFlit f)

/-- The row TXL_ACK_ADVANCE (R410): after 16 accepted flits, or 32 ns after the first of them. A CONTROL flit tells the
companion. -/
def State.txlAck (s : State) : State :=
  let x := s.txl
  if 16 ≤ x.fresh || (x.fresh ≠ 0 && x.freshAt + 32 ≤ s.now) then
    { s with txl := { x with aseq := some ((x.expect + 1023) % 1024), fresh := 0 }.control.pair }
  else s

/-- The row TXL_ACK_ADVANCE. -/
def execTxlAckAdvance (s : State) : Out := .next s.txlAck

/-- The row TXL_REPLAY (R410): after NAK rose, every unacknowledged flit is sent again in order, each with its original
contents. -/
def State.txlReplay (s : State) : State :=
  let x := s.txl
  if !x.nakSeen then s
  else if x.kept.isEmpty then { s with txl := { x with nakSeen := false } }
  else
    ({ s with txl := { x with nakSeen := false, wire := x.wire ++ x.kept.map TxlKept.flit }.pair } : State).bump 0x80E2 0 x.kept.length

/-- The row TXL_REPLAY. -/
def execTxlReplay (s : State) : Out := .next s.txlReplay

end Sys2Proof.Machine
end

