-- ==== Sys2Proof/Machine/Mgmt.lean ====
section
/-! DEFINITION. The management port, SMBus and PMBus (14 R426-R429; 07 R228; 15 R440; 16 R453, R455). -/

namespace Sys2Proof.Machine

/-! ### The management port (R426, R427) -/

/-- A frame is discarded (R427). -/
def State.dropFrame (s : State) : State := s.bump 0x80F1 0 1

/-- The address is the module's (R362, R426). -/
def State.ownAddress (s : State) (ip : List Byte) : Bool := ip = s.blob 0x1001 2 4 || ip = s.blob 0x1001 3 16

/-- What the port does with a frame (R427, 12 R362). -/
def State.serveFrame (s : State) (f : MgmtFrame) : State :=
  match f with
  | .tagged => s.dropFrame
  | .other => s.dropFrame
  | .arp ip => if ip = s.blob 0x1001 2 4 then s.mgmtSend f else s
  | .neighbour ip => if ip = s.blob 0x1001 3 16 then s.mgmtSend f else s
  | .echo4 _ _ => s.mgmtSend f
  | .echo6 _ _ => s.mgmtSend f
  | .lap src dst port fragment msg =>
    if fragment || !s.ownAddress dst || port ≠ s.obj 0x1001 1 || src = .mailbox then s.dropFrame else s.lapArrive src msg
  | .ptp f => if f.ipv6 = (s.obj 0x4702 0 = 1) then s.takePtp f else s.dropFrame

/-- The row MGMT_FRAME_RECEIVE. -/
def State.takeMgmt (s : State) (f : MgmtFrame) : State :=
  if s.boot.phase ≠ .running then s else (s.bump 0x80F0 0 1).serveFrame f

/-- The row MGMT_FRAME_RECEIVE. -/
def execMgmtFrameReceive (f : MgmtFrame) (s : State) : Out := .next (s.takeMgmt f)

/-- The row MGMT_AUTONEGOTIATION (R426): Clause 74 FEC runs when both ends request it. -/
def execMgmtAutonegotiation (partnerFec : Bool) (s : State) : Out :=
  .next (if s.boot.phase ≠ .running then s
    else s.setObj 0x2F02 0 (if s.obj 0x2F01 0 = 1 && partnerFec then 1 else 0))

/-! ### SMBus (R428) -/

/-- An answer on the bus; none is NACK. -/
def State.busReply (s : State) (r : Option (List Byte)) : State := { s with smbus := { s.smbus with reply := r } }

/-- A read is answered with PEC only, and while the management domain runs (R428). -/
def State.busRead (s : State) (pec : Bool) (r : List Byte) : State :=
  s.busReply (if pec && s.boot.phase = .running then some r else none)

/-- A word: its low byte comes first. -/
def busWord (v : Int) : List Byte := bytesLE 2 (unsigned 16 v)

/-- A block: its count comes first. -/
def busBlock (b : List Byte) : List Byte := bytesLE 1 b.length ++ b

/-- The row GRADE_AND_STEPPING (R428). -/
def execGradeAndStepping (pec : Bool) (s : State) : Out :=
  .next (s.busRead pec (bytesLE 1 s.fuses.grade ++ bytesLE 1 s.fuses.stepping))

/-- The row RECOVERY_STATE (R428, 15 R440): in BOOT_FAILED it returns 0x80 and the last failure code. -/
def execRecoveryState (pec : Bool) (s : State) : Out :=
  .next (match s.boot.phase with
    | .failed c => s.busReply (if pec then some (busWord (0x80 + c : Nat)) else none)
    | _ => s.busRead pec (busWord (s.recoveryState : Nat)))

/-- The row DIE_TEMPERATURE (R428): the highest of the quires' readings in 1/8 °C. -/
def execDieTemperature (pec : Bool) (sensors : List Int) (s : State) : Out :=
  .next (s.busRead pec (busWord (sensors.foldl max (sensors.headD 0))))

/-- The row COOLANT_INLET_TEMPERATURE (R428), in 1/8 °C. -/
def execCoolantInletTemperature (pec : Bool) (sensor : Int) (s : State) : Out := .next (s.busRead pec (busWord sensor))

/-- Environment flags (R428, 16 R455) of a die and an inlet temperature in 1/8 °C and an input voltage in mV. -/
def environment (die inlet millivolts : Int) : Nat :=
  (if 8 * 40 < inlet then 1 else 0) + (if 8 * 105 < die then 2 else 0) +
    if millivolts < 40000 || 60000 < millivolts then 4 else 0

/-- The row ENVIRONMENT_FLAGS (R428). -/
def execEnvironmentFlags (pec : Bool) (die inlet millivolts : Int) (s : State) : Out :=
  .next (s.busRead pec (busWord (environment die inlet millivolts : Nat)))

/-- The row SERIAL_NUMBER (R428). -/
def execSerialNumber (pec : Bool) (s : State) : Out := .next (s.busRead pec (busBlock (bytesLE 8 s.fuses.serial)))

/-- The row MAC_AND_IPV4_ADDRESS (R428): 16 B, of which the spec fills ten; the other six are free. -/
def execMacAndIpv4Address (pec : Bool) (s : State) : Out :=
  .next (s.took.busRead pec (busBlock (padTo 6 s.fuses.mac ++ s.blob 0x1001 2 4 ++ bytesLE 6 s.free)))

/-! ### PMBus (R429) -/

/-- Nearest integer to `num / (den × 2^e)`, where `e` counts from -16. -/
def mantissa11 (num : Int) (den e : Nat) : Int :=
  let n := num * 2 ^ 16
  let d : Int := (den * 2 ^ e : Nat)
  (2 * n + d) / (2 * d)

/-- Linear11 of `num / den`: the finest exponent whose mantissa fits 11 bits. -/
def linear11 (num : Int) (den : Nat) : Int :=
  let fit (e : Nat) : Bool := -1024 ≤ mantissa11 num den e && mantissa11 num den e ≤ 1023
  let e := ((List.range 32).find? fit).getD 31
  (unsigned 5 ((e : Int) - 16)) * 2048 + unsigned 11 (mantissa11 num den e)

/-- The row READ_VIN (R429). -/
def execReadVin (pec : Bool) (millivolts : Int) (s : State) : Out := .next (s.busRead pec (busWord (linear11 millivolts 1000)))
/-- The row READ_IIN (R429). -/
def execReadIin (pec : Bool) (milliamps : Int) (s : State) : Out := .next (s.busRead pec (busWord (linear11 milliamps 1000)))
/-- The row READ_POUT (R429). -/
def execReadPout (pec : Bool) (milliwatts : Int) (s : State) : Out := .next (s.busRead pec (busWord (linear11 milliwatts 1000)))
/-- The row READ_TEMPERATURE_1 (R429), the power stage's, of a reading in 1/8 °C. -/
def execReadTemperature1 (pec : Bool) (eighths : Int) (s : State) : Out := .next (s.busRead pec (busWord (linear11 eighths 8)))
/-- The row READ_TEMPERATURE_2 (R429), the die's. -/
def execReadTemperature2 (pec : Bool) (eighths : Int) (s : State) : Out := .next (s.busRead pec (busWord (linear11 eighths 8)))

/-- STATUS_INPUT of the latched bits (log entry 31). -/
def statusInput (st : Nat) : Nat := (if bit st 1 then 0x80 else 0) + if bit st 0 then 0x10 else 0
/-- STATUS_TEMPERATURE of the latched bits (log entry 31). -/
def statusTemperature (st : Nat) : Nat := if bit st 2 then 0x80 else 0
/-- STATUS_WORD of the latched bits (log entry 31). -/
def statusWord (st : Nat) : Nat :=
  (if statusInput st ≠ 0 then 0x2000 else 0) + (if bit st 0 then 8 else 0) + if bit st 2 then 4 else 0

/-- The row STATUS_WORD (R429). -/
def execStatusWord (pec : Bool) (s : State) : Out := .next (s.busRead pec (busWord (statusWord s.smbus.status : Nat)))
/-- The row STATUS_INPUT (R429). -/
def execStatusInput (pec : Bool) (s : State) : Out := .next (s.busRead pec (bytesLE 1 (statusInput s.smbus.status)))
/-- The row STATUS_TEMPERATURE (R429). -/
def execStatusTemperature (pec : Bool) (s : State) : Out := .next (s.busRead pec (bytesLE 1 (statusTemperature s.smbus.status)))

/-- The row CLEAR_FAULTS (R429). -/
def execClearFaults (pec : Bool) (s : State) : Out :=
  .next (if pec && s.boot.phase = .running then { s with smbus := { reply := some [], status := 0 } } else s.busReply none)

/-- The row PMBUS_UNSUPPORTED_COMMAND (R429): NACK. -/
def execPmbusUnsupportedCommand (_code : Byte) (s : State) : Out := .next (s.busReply none)

end Sys2Proof.Machine
end

