-- ==== Sys2Proof/Machine/Dispatch.lean ====
section
/-! DEFINITION. The dispatcher: one arm per command, each one call of its meaning. -/

namespace Sys2Proof.Machine

/-- The effect of a command on everything but the queue. -/
def exec (i : Instr) (s : State) : Host.Outcome State Fault Refusal :=
  match i with
  | .nop n w => Sys2Proof.Machine.execNop n w s
  | .fence n w => Sys2Proof.Machine.execFence n w s
  | .halt n w => Sys2Proof.Machine.execHalt n w s
  | .halted n => Sys2Proof.Machine.execHalted n s
  | .overlay n w => Sys2Proof.Machine.execOverlay n w s
  | .dload n w => Sys2Proof.Machine.execDload n w s
  | .esc n w => Sys2Proof.Machine.execEsc n w s
  | .loop n w => Sys2Proof.Machine.execLoop n w s
  | .ct n w => Sys2Proof.Machine.execCt n w s
  | .cmp n w => Sys2Proof.Machine.execCmp n w s
  | .twait n w => Sys2Proof.Machine.execTwait n w s
  | .signal n w => Sys2Proof.Machine.execSignal n w s
  | .tbind n w => Sys2Proof.Machine.execTbind n w s
  | .mma n w => Sys2Proof.Machine.execMma n w s
  | .mmaComplete n => Sys2Proof.Machine.execMmaComplete n s
  | .vop n w => Sys2Proof.Machine.execVop n w s
  | .vopComplete n => Sys2Proof.Machine.execVopComplete n s
  | .cvt n w => Sys2Proof.Machine.execCvt n w s
  | .cvtComplete n => Sys2Proof.Machine.execCvtComplete n s
  | .send n w => Sys2Proof.Machine.execSend n w s
  | .sendComplete n => Sys2Proof.Machine.execSendComplete n s
  | .recv n w => Sys2Proof.Machine.execRecv n w s
  | .recvComplete n => Sys2Proof.Machine.execRecvComplete n s
  | .streamPacketArrival n src => Sys2Proof.Machine.execStreamPacketArrival n src s
  | .remoteSignalArrival n src => Sys2Proof.Machine.execRemoteSignalArrival n src s
  | .rbase n w => Sys2Proof.Machine.execRbase n w s
  | .rfetch n w => Sys2Proof.Machine.execRfetch n w s
  | .rstore n w => Sys2Proof.Machine.execRstore n w s
  | .rwait n w => Sys2Proof.Machine.execRwait n w s
  | .kappend n w => Sys2Proof.Machine.execKappend n w s
  | .kappendComplete n => Sys2Proof.Machine.execKappendComplete n s
  | .kcommit n w => Sys2Proof.Machine.execKcommit n w s
  | .kerase n w => Sys2Proof.Machine.execKerase n w s
  | .kmask n w => Sys2Proof.Machine.execKmask n w s
  | .kmaskComplete n => Sys2Proof.Machine.execKmaskComplete n s
  | .ktag n w => Sys2Proof.Machine.execKtag n w s
  | .nibFaulted n => Sys2Proof.Machine.execNibFaulted n s
  | .patrolScrub n upsets => Sys2Proof.Machine.execPatrolScrub n upsets s
  | .chunkStart n rq => Sys2Proof.Machine.execChunkStart n rq s
  | .chunkComplete n rq chunk ecc => Sys2Proof.Machine.execChunkComplete n rq chunk ecc s
  | .chunkFault n rq chunk ecc => Sys2Proof.Machine.execChunkFault n rq chunk ecc s
  | .chunkTimeout n rq chunk => Sys2Proof.Machine.execChunkTimeout n rq chunk s
  | .transferRetire n rq => Sys2Proof.Machine.execTransferRetire n rq s
  | .resumeTransfer sess entry => Sys2Proof.Machine.execResumeTransfer sess entry s
  | .abortTransfer sess entry => Sys2Proof.Machine.execAbortTransfer sess entry s
  | .holdLimitExpiry entry => Sys2Proof.Machine.execHoldLimitExpiry entry s
  | .translationFlush sess => Sys2Proof.Machine.execTranslationFlush sess s
  | .translationFlushComplete => Sys2Proof.Machine.execTranslationFlushComplete s
  | .perBankRefresh ch found => Sys2Proof.Machine.execPerBankRefresh ch found s
  | .refreshManagement ch => Sys2Proof.Machine.execRefreshManagement ch s
  | .wck2dqOscillatorRead ch overLimit => Sys2Proof.Machine.execWck2dqOscillatorRead ch overLimit s
  | .writeLinkEccPoll corrections => Sys2Proof.Machine.execWriteLinkEccPoll corrections s
  | .drainDeadline begun => Sys2Proof.Machine.execDrainDeadline begun s
  | .preemptionComplete => Sys2Proof.Machine.execPreemptionComplete s
  | .refLoss cause => Sys2Proof.Machine.execRefLoss cause s
  | .refReturn => Sys2Proof.Machine.execRefReturn s
  | .stretchStart k slacks => Sys2Proof.Machine.execStretchStart k slacks s
  | .stretchEnd k found => Sys2Proof.Machine.execStretchEnd k found s
  | .stretchOverrun k cycles => Sys2Proof.Machine.execStretchOverrun k cycles s
  | .clockMargin k cause => Sys2Proof.Machine.execClockMargin k cause s
  | .marginLow k samples => Sys2Proof.Machine.execMarginLow k samples s
  | .timeClockTick => Sys2Proof.Machine.execTimeClockTick s
  | .lineBoundary cycles => Sys2Proof.Machine.execLineBoundary cycles s
  | .stepRequest order => Sys2Proof.Machine.execStepRequest order s
  | .timeBlockReceive q block arrival crcOk => Sys2Proof.Machine.execTimeBlockReceive q block arrival crcOk s
  | .timeParentLoss => Sys2Proof.Machine.execTimeParentLoss s
  | .holdoverLimitExpiry => Sys2Proof.Machine.execHoldoverLimitExpiry s
  | .ptpMessageReceive f => Sys2Proof.Machine.execPtpMessageReceive f s
  | .ptpLoss => Sys2Proof.Machine.execPtpLoss s
  | .ppsMissing => Sys2Proof.Machine.execPpsMissing s
  | .strokeDecision q => Sys2Proof.Machine.execStrokeDecision q s
  | .rxFrameArrival q arrival f fec => Sys2Proof.Machine.execRxFrameArrival q arrival f fec s
  | .arrivalWindowClose q => Sys2Proof.Machine.execArrivalWindowClose q s
  | .quillPacketArrival q src => Sys2Proof.Machine.execQuillPacketArrival q src s
  | .penliftBlockReceive q block => Sys2Proof.Machine.execPenliftBlockReceive q block s
  | .controlFieldSend q => Sys2Proof.Machine.execControlFieldSend q s
  | .controlFieldReceive q ctl fec => Sys2Proof.Machine.execControlFieldReceive q ctl fec s
  | .linkFrameReceive q ctl slot fec => Sys2Proof.Machine.execLinkFrameReceive q ctl slot fec s
  | .aseqAdvance q => Sys2Proof.Machine.execAseqAdvance q s
  | .linkReplay q => Sys2Proof.Machine.execLinkReplay q s
  | .quillDown q cause => Sys2Proof.Machine.execQuillDown q cause s
  | .quillEnable sess q => Sys2Proof.Machine.execQuillEnable sess q s
  | .quillDisable sess q => Sys2Proof.Machine.execQuillDisable sess q s
  | .quillTrainingComplete q => Sys2Proof.Machine.execQuillTrainingComplete q s
  | .identReceive q ctl slot => Sys2Proof.Machine.execIdentReceive q ctl slot s
  | .checkTimeout q => Sys2Proof.Machine.execCheckTimeout q s
  | .marginPacketForward q vc => Sys2Proof.Machine.execMarginPacketForward q vc s
  | .marginRequestExecute at_ => Sys2Proof.Machine.execMarginRequestExecute at_ s
  | .marginResponseReceive at_ => Sys2Proof.Machine.execMarginResponseReceive at_ s
  | .requestTimeout txid => Sys2Proof.Machine.execRequestTimeout txid s
  | .parkLimitExpiry txid => Sys2Proof.Machine.execParkLimitExpiry txid s
  | .filterEntryExpiry => Sys2Proof.Machine.execFilterEntryExpiry s
  | .mirrorWrite n => Sys2Proof.Machine.execMirrorWrite n s
  | .mirrorMark n => Sys2Proof.Machine.execMirrorMark n s
  | .stageOpen sess => Sys2Proof.Machine.execStageOpen sess s
  | .stageCheck sess => Sys2Proof.Machine.execStageCheck sess s
  | .stageApply sess => Sys2Proof.Machine.execStageApply sess s
  | .stageCancel sess => Sys2Proof.Machine.execStageCancel sess s
  | .stageDiscard sess => Sys2Proof.Machine.execStageDiscard sess s
  | .stageApplyInstant => Sys2Proof.Machine.execStageApplyInstant s
  | .openingEnd => Sys2Proof.Machine.execOpeningEnd s
  | .holdInNDrain => Sys2Proof.Machine.execHoldInNDrain s
  | .placeStart sess => Sys2Proof.Machine.execPlaceStart sess s
  | .placePut => Sys2Proof.Machine.execPlacePut s
  | .placeGet => Sys2Proof.Machine.execPlaceGet s
  | .placeFill => Sys2Proof.Machine.execPlaceFill s
  | .placeStartNib => Sys2Proof.Machine.execPlaceStartNib s
  | .placeNop => Sys2Proof.Machine.execPlaceNop s
  | .placeListComplete => Sys2Proof.Machine.execPlaceListComplete s
  | .faultRecordClear sess => Sys2Proof.Machine.execFaultRecordClear sess s
  | .lapOpen => Sys2Proof.Machine.execLapOpen s
  | .lapClose => Sys2Proof.Machine.execLapClose s
  | .lapRead => Sys2Proof.Machine.execLapRead s
  | .lapWrite => Sys2Proof.Machine.execLapWrite s
  | .lapKeepalive => Sys2Proof.Machine.execLapKeepalive s
  | .lapNonce => Sys2Proof.Machine.execLapNonce s
  | .lapEventAck => Sys2Proof.Machine.execLapEventAck s
  | .ledgerRegisterWrite sess index sub value => Sys2Proof.Machine.execLedgerRegisterWrite sess index sub value s
  | .eventRepeat => Sys2Proof.Machine.execEventRepeat s
  | .sessionIdleTimeout sess => Sys2Proof.Machine.execSessionIdleTimeout sess s
  | .blobAssemblyTimeout sess => Sys2Proof.Machine.execBlobAssemblyTimeout sess s
  | .nonceExpiry => Sys2Proof.Machine.execNonceExpiry s
  | .progressCheck => Sys2Proof.Machine.execProgressCheck s
  | .hostBlot sess => Sys2Proof.Machine.execHostBlot sess s
  | .blotItemReceive q item => Sys2Proof.Machine.execBlotItemReceive q item s
  | .blotKeyExpiry => Sys2Proof.Machine.execBlotKeyExpiry s
  | .abortEnd => Sys2Proof.Machine.execAbortEnd s
  | .blotterRecordComplete => Sys2Proof.Machine.execBlotterRecordComplete s
  | .nibResetRequest sess nib => Sys2Proof.Machine.execNibResetRequest sess nib s
  | .computeResetRequest sess => Sys2Proof.Machine.execComputeResetRequest sess s
  | .partResetRequest sess => Sys2Proof.Machine.execPartResetRequest sess s
  | .resetEscalation => Sys2Proof.Machine.execResetEscalation s
  | .computeHeldLimit => Sys2Proof.Machine.execComputeHeldLimit s
  | .serviceTimeSave => Sys2Proof.Machine.execServiceTimeSave s
  | .retirementClear sess => Sys2Proof.Machine.execRetirementClear sess s
  | .blotterRegionMove sess base => Sys2Proof.Machine.execBlotterRegionMove sess base s
  | .rdu tag => Sys2Proof.Machine.execRdu tag s
  | .rds tag => Sys2Proof.Machine.execRds tag s
  | .rdx tag => Sys2Proof.Machine.execRdx tag s
  | .wr tag => Sys2Proof.Machine.execWr tag s
  | .wb tag => Sys2Proof.Machine.execWb tag s
  | .cln tag => Sys2Proof.Machine.execCln tag s
  | .birsp tag => Sys2Proof.Machine.execBirsp tag s
  | .binvTimeout => Sys2Proof.Machine.execBinvTimeout s
  | .txlFlitReceive f => Sys2Proof.Machine.execTxlFlitReceive f s
  | .txlAckAdvance => Sys2Proof.Machine.execTxlAckAdvance s
  | .txlReplay => Sys2Proof.Machine.execTxlReplay s
  | .txlFlitTimeout => Sys2Proof.Machine.execTxlFlitTimeout s
  | .txlLinkDown => Sys2Proof.Machine.execTxlLinkDown s
  | .txlLinkUp rsp data req => Sys2Proof.Machine.execTxlLinkUp rsp data req s
  | .mailboxSubmit => Sys2Proof.Machine.execMailboxSubmit s
  | .mailboxRspClear => Sys2Proof.Machine.execMailboxRspClear s
  | .mailboxEvtClear => Sys2Proof.Machine.execMailboxEvtClear s
  | .mgmtFrameReceive f => Sys2Proof.Machine.execMgmtFrameReceive f s
  | .mgmtAutonegotiation partnerFec => Sys2Proof.Machine.execMgmtAutonegotiation partnerFec s
  | .gradeAndStepping pec => Sys2Proof.Machine.execGradeAndStepping pec s
  | .recoveryState pec => Sys2Proof.Machine.execRecoveryState pec s
  | .dieTemperature pec sensors => Sys2Proof.Machine.execDieTemperature pec sensors s
  | .coolantInletTemperature pec sensor => Sys2Proof.Machine.execCoolantInletTemperature pec sensor s
  | .environmentFlags pec die inlet millivolts => Sys2Proof.Machine.execEnvironmentFlags pec die inlet millivolts s
  | .serialNumber pec => Sys2Proof.Machine.execSerialNumber pec s
  | .macAndIpv4Address pec => Sys2Proof.Machine.execMacAndIpv4Address pec s
  | .readVin pec millivolts => Sys2Proof.Machine.execReadVin pec millivolts s
  | .readIin pec milliamps => Sys2Proof.Machine.execReadIin pec milliamps s
  | .readPout pec milliwatts => Sys2Proof.Machine.execReadPout pec milliwatts s
  | .readTemperature1 pec eighths => Sys2Proof.Machine.execReadTemperature1 pec eighths s
  | .readTemperature2 pec eighths => Sys2Proof.Machine.execReadTemperature2 pec eighths s
  | .statusWord pec => Sys2Proof.Machine.execStatusWord pec s
  | .statusInput pec => Sys2Proof.Machine.execStatusInput pec s
  | .statusTemperature pec => Sys2Proof.Machine.execStatusTemperature pec s
  | .clearFaults pec => Sys2Proof.Machine.execClearFaults pec s
  | .pmbusUnsupportedCommand code => Sys2Proof.Machine.execPmbusUnsupportedCommand code s
  | .powerUp => Sys2Proof.Machine.execPowerUp s
  | .bootSequence => Sys2Proof.Machine.execBootSequence s
  | .fwConfirm sess => Sys2Proof.Machine.execFwConfirm sess s
  | .fwRaiseFloor sess => Sys2Proof.Machine.execFwRaiseFloor sess s
  | .fwInstall sess => Sys2Proof.Machine.execFwInstall sess s
  | .fwRevoke sess key => Sys2Proof.Machine.execFwRevoke sess key s
  | .firmwareCommandComplete flashOk => Sys2Proof.Machine.execFirmwareCommandComplete flashOk s
  | .meas2Extend sess value => Sys2Proof.Machine.execMeas2Extend sess value s
  | .quoteRequest sess nonce => Sys2Proof.Machine.execQuoteRequest sess nonce s
  | .restoreDefaults sess => Sys2Proof.Machine.execRestoreDefaults sess s
  | .blotInN => Sys2Proof.Machine.execBlotInN s
  | .holdInN => Sys2Proof.Machine.execHoldInN s
  | .ppsIn edge => Sys2Proof.Machine.execPpsIn edge s
  | .modRstNAssert => Sys2Proof.Machine.execModRstNAssert s
  | .modRstNRelease => Sys2Proof.Machine.execModRstNRelease s
  | .sidebandRearm pin => Sys2Proof.Machine.execSidebandRearm pin s
  | .sidebandStuck pin => Sys2Proof.Machine.execSidebandStuck pin s
  | .sidebandRearmWrite sess value => Sys2Proof.Machine.execSidebandRearmWrite sess value s
  | .inputUndervoltage => Sys2Proof.Machine.execInputUndervoltage s
  | .inputOvervoltage => Sys2Proof.Machine.execInputOvervoltage s
  | .powerStageOvertemperature => Sys2Proof.Machine.execPowerStageOvertemperature s
  | .linkTestOff sess q value => Sys2Proof.Machine.execLinkTestOff sess q value s
  | .linkTestLane sess q value => Sys2Proof.Machine.execLinkTestLane sess q value s
  | .linkTestFramed sess q value => Sys2Proof.Machine.execLinkTestFramed sess q value s
  | .checkerLock q lane symbols => Sys2Proof.Machine.execCheckerLock q lane symbols s
  | .checkerLockLoss q lane errors => Sys2Proof.Machine.execCheckerLockLoss q lane errors s
  | .jtagBypass => Sys2Proof.Machine.execJtagBypass s
  | .jtagIdcode => Sys2Proof.Machine.execJtagIdcode s
  | .jtagSamplePreload pins preload => Sys2Proof.Machine.execJtagSamplePreload pins preload s
  | .jtagExtest => Sys2Proof.Machine.execJtagExtest s
  | .jtagExtestPulse => Sys2Proof.Machine.execJtagExtestPulse s
  | .jtagExtestTrain => Sys2Proof.Machine.execJtagExtestTrain s
  | .jtagClamp => Sys2Proof.Machine.execJtagClamp s
  | .jtagHighz => Sys2Proof.Machine.execJtagHighz s
  | .jtagManufacturing code => Sys2Proof.Machine.execJtagManufacturing code s
  | .jtagTapReset => Sys2Proof.Machine.execJtagTapReset s
  | .resetStepComplete => Sys2Proof.Machine.execResetStepComplete s
  | .transactionIdRelease txid => Sys2Proof.Machine.execTransactionIdRelease txid s
  | .txlRequestCompletion tag => Sys2Proof.Machine.execTxlRequestCompletion tag s

end Sys2Proof.Machine
end

