-- ==== Sys2Proof/Safety.lean ====
section
/-! DEFINITION. The terms statements are written in: when an instruction is ready to issue and what issuing it leaves, the rows of
stroke-program instructions, and what a safe run keeps: the fuses (15 R438, 00 R3) and the canonical form of memory. -/

namespace Sys2Proof.Machine

/-- Nib `n` may issue `w` as an instruction of opcode `op`: it runs, its quire's clock does, and the word's predicate is true (04
R100, R102). -/
def State.ready (s : State) (n op : Nat) (w : BitVec 64) : Prop :=
  s.issues n = true ∧ wordOp w.toNat = op ∧ predOk (wordPred w.toNat) = true ∧ (s.nib n).predTrue (wordPred w.toNat) = true

/-- What is left once an instruction with effect `s` has issued: its progress is noted and the loop unit has moved issue on (02
R50). -/
def State.issued (s : State) (n : Nat) : State := (s.progress n 0).advance n

/-- The issue address of nib `n` ends no active loop's body, and is not the last address of the store. -/
def State.plain (s : State) (n : Nat) : Prop :=
  (s.nib n).issue.addr < 4095 ∧ ∀ l, (s.nib n).issue.loops.head? = some l → l.last ≠ (s.nib n).issue.addr

/-- A row of stroke-program instructions: its constructor, its opcode (04 R101), and the words whose reserved bits and codes are as
the row's layout asks (04 R100). -/
structure InstructionRow where
  make : NibId → BitVec 64 → Instr
  op : Nat
  layout : Nat → Bool

/-- The rows of stroke-program instructions. -/
def instructionRows : List InstructionRow :=
  [⟨.nop, 0x00, fun w => field w 53 0 = 0⟩, ⟨.fence, 0x01, fun w => field w 51 0 = 0⟩, ⟨.halt, 0x02, fun w => field w 37 0 = 0⟩,
   ⟨.overlay, 0x03, fun w => field w 2 0 = 0⟩, ⟨.dload, 0x04, fun w => field w 24 0 = 0⟩, ⟨.esc, 0x05, fun w => field w 22 0 = 0⟩,
   ⟨.loop, 0x08, fun w => field w 21 0 = 0 && (!bit w 41 || field w 40 28 = 0) && wordPred w = 0⟩,
   ⟨.ct, 0x09, fun w => field w 10 0 = 0 && field w 50 48 ≤ 5⟩, ⟨.cmp, 0x0A, fun w => field w 9 0 = 0⟩,
   ⟨.twait, 0x10, fun w => field w 35 0 = 0⟩,
   ⟨.signal, 0x11, fun w => field w 9 0 = 0 && field w 53 52 ≤ 1 && (!bit w 34 || field w 30 10 = 0)⟩,
   ⟨.tbind, 0x12, fun w => field w 48 0 = 0⟩, ⟨.mma, 0x18, fun w => field w 20 0 = 0⟩, ⟨.vop, 0x19, vopReserved⟩,
   ⟨.cvt, 0x1B, fun w => field w 30 0 = 0⟩, ⟨.send, 0x20, sendReserved⟩, ⟨.recv, 0x21, recvReserved⟩,
   ⟨.rbase, 0x28, fun w => field w 10 0 = 0⟩, ⟨.rfetch, 0x29, fun w => field w 6 0 = 0⟩, ⟨.rstore, 0x2A, fun w => field w 6 0 = 0⟩,
   ⟨.rwait, 0x2B, fun w => field w 45 0 = 0⟩, ⟨.kappend, 0x30, fun w => field w 38 31 = 0 && field w 9 0 = 0⟩,
   ⟨.kcommit, 0x31, fun w => field w 33 0 = 0 && field w 47 41 ≤ 64 &&
      (if bit w 34 then field w 40 38 = 0 else field w 40 35 = 0)⟩,
   ⟨.kerase, 0x32, fun w => field w 47 0 = 0⟩, ⟨.kmask, 0x33, fun w => field w 33 0 = 0⟩, ⟨.ktag, 0x34, fun w => field w 39 0 = 0⟩]

/-- `g` keeps what `f` has blown and what the manufacturer wrote: the same grade, stepping, serial number, MAC address, maps, key
hashes and seed, a floor that is no lower, and every revoked key still revoked (15 R438, 00 R3). -/
def Fuses.keeps (f g : Fuses) : Prop :=
  g.grade = f.grade ∧ g.stepping = f.stepping ∧ g.serial = f.serial ∧ g.mac = f.mac ∧ g.rowMap = f.rowMap ∧
    g.colMap = f.colMap ∧ g.keys = f.keys ∧ g.seed = f.seed ∧ f.floor ≤ g.floor ∧ ∀ k ∈ f.revoked, k ∈ g.revoked

/-- The fuses of a state keep what `f` holds. -/
def State.keepsFuses (f : Fuses) (s : State) : Prop := f.keeps s.fuses

/-- Every memory of the module is in the canonical form. -/
def State.memOk (s : State) : Prop :=
  s.desk.mem.wf = true ∧ s.desk.prompt.wf = true ∧ s.txl.reqBuf.wf = true ∧ s.txl.rspBuf.wf = true ∧ s.txl.evtBuf.wf = true

end Sys2Proof.Machine
end

