-- ==== Sys2Proof/Certificates/Slice0/Obligations.lean ====
section
/-! DEFINITION. The statements for the provers: what the commands do, by family, and what every step keeps. -/

section Statements

open Sys2Proof Sys2Proof.Machine

/-! ### The queue and the issue of stroke-program instructions -/

/-- A step takes the command at the front of the queue and answers what exec answers on the state with the queue's rest.
On an empty queue the module idles: the model's choice (log entry 2). -/
def Obligations.StepRunsFrontCommand : Prop :=
  (∀ (c : Instr) (cs : List Instr) (s : State), s.pending = c :: cs → step s = exec c { s with pending := cs }) ∧
  (∀ s : State, s.pending = [] → step s = .next s)

/-- R100, R101, R9: a row of stroke-program instructions whose word has a reserved OP, PRED, bit or code raises the encoding fault
and does nothing else; a word of another row's OP is no command of the row (log entry 1). -/
def Obligations.WordsOfEachRow : Prop :=
  ∀ r ∈ instructionRows, ∀ (n : NibId) (w : BitVec 64) (s : State),
    (wordOp w.toNat ≠ r.op → opcodes.contains (wordOp w.toNat) = true → exec (r.make n w) s = .fault .illFormed) ∧
    (s.issues n = true → opcodes.contains (wordOp w.toNat) = false → exec (r.make n w) s = .next (s.issueFault n 0x01 none 0)) ∧
    (s.issues n = true → wordOp w.toNat = r.op → (predOk (wordPred w.toNat) = false ∨ r.layout w.toNat = false) →
      exec (r.make n w) s = .next (s.issueFault n 0x01 none 0))

/-- R102: with a false predicate an instruction takes its issue cycle and has no other effect, whatever its row; a loop has no
predicate but 0000. -/
def Obligations.FalsePredicateSkips : Prop :=
  ∀ r ∈ instructionRows, r.op ≠ 0x08 → ∀ (n : NibId) (w : BitVec 64) (s : State), s.issues n = true → wordOp w.toNat = r.op →
    r.layout w.toNat = true → predOk (wordPred w.toNat) = true → (s.nib n).predTrue (wordPred w.toNat) = false →
    exec (r.make n w) s = .next (s.issued n)

/-- R50: where no active body ends, issue moves to the next address; nothing but the nib changes, and of it only the issue
address, the wait and the progress of its issue unit. -/
def Obligations.IssueMovesToNextAddress : Prop :=
  ∀ (s : State) (n : Nat), s.plain n →
    (s.issued n).nib n = { s.nib n with
      issue := { (s.nib n).issue with addr := (s.nib n).issue.addr + 1, hold := .none }
      progress := SMap.upd 0 (s.nib n).progress 0 fun c => (c + 1) % 2 ^ 32
      progressAt := SMap.set 0 (s.nib n).progressAt 0 s.now } ∧
    { s.issued n with nibs := s.nibs } = s ∧
    (∀ m, m ≠ n → (s.issued n).nib m = s.nib m)

/-- R142: fence holds issue until what its OPS and RES bits select holds; with both bits 0 it acts as nop. nop only issues. -/
def Obligations.NopAndFence : Prop :=
  ∀ (n : NibId) (w : BitVec 64) (s : State),
    (s.ready n 0x00 w → field w.toNat 53 0 = 0 → exec (.nop n w) s = .next (s.issued n)) ∧
    (s.ready n 0x01 w → field w.toNat 51 0 = 0 →
      ((bit w.toNat 53 = true → (s.nib n).slots = []) ∧ (bit w.toNat 52 = true → (s.nib n).resIdle = true) →
        exec (.fence n w) s = .next (s.issued n)) ∧
      (¬((bit w.toNat 53 = true → (s.nib n).slots = []) ∧ (bit w.toNat 52 = true → (s.nib n).resIdle = true)) →
        exec (.fence n w) s =
          .next (s.updNib n fun x => { x with issue := { x.issue with hold := .fence } })))

/-- R143, R146: halt stops issue and records CODE; a halting nib with nothing in flight becomes HALTED, and the halt is counted; a
faulting nib with nothing in flight becomes FAULTED. -/
def Obligations.NibsComeToRest : Prop :=
  (∀ (n : NibId) (w : BitVec 64) (s : State), s.ready n 0x02 w → field w.toNat 37 0 = 0 →
    ∃ t, exec (.halt n w) s = .next t ∧ (t.nib n).issue.run = .halting ∧ (t.nib n).issue.haltCode = field w.toNat 53 38 ∧
      (t.nib n).slots = (s.nib n).slots ∧ (t.nib n).mem = (s.nib n).mem ∧ (t.nib n).counters = (s.nib n).counters ∧
      { t with nibs := s.nibs } = s) ∧
  (∀ (n : NibId) (s : State), (s.nib n).issue.run = .halting → (s.nib n).slots = [] → (s.nib n).resIdle = true →
    ∃ t, exec (.halted n) s = .next t ∧
      t.nib n = { s.nib n with issue := { (s.nib n).issue with run := .halted } } ∧
      t.binding.halted = s.binding.halted + 1 ∧
      (s.binding.halted = 0 → t.binding.firstHalt = (s.nib n).issue.haltCode <<< 16 + n.val % 2 ^ 13)) ∧
  (∀ (n : NibId) (s : State), (s.nib n).issue.run = .faulting → (s.nib n).slots = [] →
    exec (.nibFaulted n) s =
      .next (s.setNib n { s.nib n with issue := { (s.nib n).issue with run := .faulted } }))

/-- R146, R147: a fault found at issue makes the nib FAULTING with its record kept, cancels its recv, empties its local input and
changes nothing else of it; where the job may be blotted, the abort of reason 1 begins. -/
def Obligations.FaultAtIssue : Prop :=
  ∀ (s : State) (n code d : Nat) (h : Option Nat),
    (s.mayBlot = false → (s.issueFault n code h d).nib n = { s.nib n with
      issue := { (s.nib n).issue with
        run := .faulting
        hold := .none
        faultRec := faultRecord (s.physNib n) { code := code, addr := (s.nib n).issue.addr, handle := h, detail := d } }
      slots := (s.nib n).slots.filter fun o => o.kind ≠ .recv
      inbox := [] }) ∧
    (s.mayBlot = true → (s.issueFault n code h d).binding.fn.code = .closing ∧
      ∃ a, (s.issueFault n code h d).recovery.abort = some a ∧ a.reason = 1)

/-- R144: overlay copies 8 × CNT instructions from the well at SRC to 8 × DST and moves issue to TGT; R112: dload loads the 40 B at SRC
into entry H and clears its escape record; R121: esc writes the record of H to DST when WR is set and clears it when CLR is. Each runs
where its range is in order, no operation in flight stands in its way, no fetch in flight writes what it reads, and the stores hold no
word in error. -/
def Obligations.OverlayDloadEsc : Prop :=
  ∀ (n : NibId) (w : BitVec 64) (s : State),
    (s.ready n 0x03 w → field w.toNat 2 0 = 0 → (field w.toNat 53 34 * 8) % 64 = 0 → inWell (field w.toNat 53 34 * 8) = true →
      rangeFault (field w.toNat 53 34 * 8, 8 * (field w.toNat 24 15 * 8)) = none →
      field w.toNat 33 25 * 8 + field w.toNat 24 15 * 8 ≤ 4096 → (s.nib n).issue.loops = [] →
      (s.nib n).rangeBusy [(field w.toNat 53 34 * 8, 8 * (field w.toNat 24 15 * 8))] [] = false → (s.nib n).ecc = [] →
      s.fetching n [(field w.toNat 53 34 * 8, 8 * (field w.toNat 24 15 * 8))] = [] →
      exec (.overlay n w) s = .next (((s.updNib n fun x => { x with
        instrs := copyInstrs x.mem (field w.toNat 53 34 * 8) (field w.toNat 33 25 * 8) (field w.toNat 24 15 * 8) x.instrs
        }).progress n 0).moveIssue n (field w.toNat 14 3))) ∧
    (s.ready n 0x04 w → field w.toNat 24 0 = 0 → rangeFault (field w.toNat 44 25 * 8, 40) = none →
      ((s.nib n).slots.any fun o => o.writesHandle (field w.toNat 53 45)) = false →
      (s.nib n).rangeBusy [(field w.toNat 44 25 * 8, 40)] [] = false → (s.nib n).ecc = [] →
      s.fetching n [(field w.toNat 44 25 * 8, 40)] = [] →
      exec (.dload n w) s = .next
        (if descReservedOk ((s.nib n).mem.readLE (field w.toNat 44 25 * 8) 40) then
          (s.updNib n fun x => { x with
            descs := SMap.set 0 x.descs (field w.toNat 53 45) (x.mem.readLE (field w.toNat 44 25 * 8) 40)
            escs := SMap.set 0 x.escs (field w.toNat 53 45) 0
            dloaded := SMap.set false x.dloaded (field w.toNat 53 45) true }).issued n
        else s.issueFault n 0x01 none 0)) ∧
    (s.ready n 0x05 w → field w.toNat 22 0 = 0 → rangeFault (field w.toNat 44 25 * 8, 8) = none →
      (s.nib n).rangeBusy [] [(field w.toNat 44 25 * 8, 8)] = false → (s.nib n).ecc = [] →
      exec (.esc n w) s = .next ((s.updNib n fun x => { x with
        mem := if bit w.toNat 24 then
            x.mem.writeBytes (field w.toNat 44 25 * 8) (bytesLE 8 (SMap.get 0 x.escs (field w.toNat 53 45)))
          else x.mem
        escs := if bit w.toNat 23 then SMap.set 0 x.escs (field w.toNat 53 45) 0 else x.escs }).issued n))

/-- R48, R49, R51: loop latches its count and enters a level; a count of 0 skips the body and takes no level; a fifth level raises
LOOP_DEPTH, and a body end beyond the enclosing one raises LOOP_NEST.
R50, R51: at the last instruction of the innermost body, a level with iterations left and a false exit comparator begins its
body again with its index one higher; a level at its last index, or whose comparator is true, is released, and issue continues after
the body where no outer body ends there. -/
def Obligations.LoopsEnterAndEnd : Prop :=
  (∀ (n : NibId) (w : BitVec 64) (s : State), s.issues n = true → wordOp w.toNat = 0x08 → wordPred w.toNat = 0 →
     field w.toNat 21 0 = 0 → (bit w.toNat 41 = true → field w.toNat 40 28 = 0) →
     (s.nib n).issue.addr < field w.toNat 53 42 →
     ∀ count, count = (if bit w.toNat 41 then (s.nib n).ct (field w.toNat 27 25) else field w.toNat 40 25) →
     (count = 0 → (∀ l, (s.nib n).issue.loops.head? = some l → l.last ≠ (s.nib n).issue.addr) →
       exec (.loop n w) s = .next (((s.setNib n (s.nib n)).progress n 0).moveIssue n (field w.toNat 53 42 + 1))) ∧
     (count ≠ 0 → (s.nib n).issue.loops.length < 4 →
       (∀ l, (s.nib n).issue.loops.head? = some l → field w.toNat 53 42 ≤ l.last) →
       exec (.loop n w) s = .next (((s.updNib n fun x => { x with issue := { x.issue with
         loops := ⟨x.issue.addr + 1, field w.toNat 53 42, count, 0,
           if bit w.toNat 24 then some (field w.toNat 23 22) else none⟩ :: x.issue.loops } }).progress n 0).moveIssue n
             ((s.nib n).issue.addr + 1))) ∧
     (count ≠ 0 → 4 ≤ (s.nib n).issue.loops.length → exec (.loop n w) s = .next (s.issueFault n 0x05 none 0)) ∧
     (count ≠ 0 → (s.nib n).issue.loops.length < 4 →
       (∃ l, (s.nib n).issue.loops.head? = some l ∧ l.last < field w.toNat 53 42) →
       exec (.loop n w) s = .next (s.issueFault n 0x06 none 0))) ∧
  (∀ (s : State) (n : Nat) (l : LoopLevel) (ls : List LoopLevel),
     (s.nib n).issue.loops = l :: ls → (s.nib n).issue.addr = l.last → l.last < 4095 → l.first < 4096 →
     (l.index + 1 ≠ l.count → (∀ e, l.exit = some e → (s.nib n).cmpOut e = false) →
       ((s.issued n).nib n).issue.addr = l.first ∧
       ((s.issued n).nib n).issue.loops = { l with index := l.index + 1 } :: ls) ∧
     ((l.index + 1 = l.count ∨ ∃ e, l.exit = some e ∧ (s.nib n).cmpOut e = true) → (∀ k ∈ ls, k.last ≠ l.last) →
       ((s.issued n).nib n).issue.addr = l.last + 1 ∧ ((s.issued n).nib n).issue.loops = ls))

/-- R139: ct changes counter CD according to FN; codes 6 and 7 are reserved. -/
def Obligations.CtFunctions : Prop :=
  ∀ (n : NibId) (w : BitVec 64) (s : State), s.ready n 0x09 w → field w.toNat 10 0 = 0 →
    ∀ v, v = (s.nib n).ct (field w.toNat 53 51) → ∀ b, b = (s.nib n).ct (field w.toNat 47 45) →
    (field w.toNat 50 48 = 0 → exec (.ct n w) s =
      .next ((s.updNib n fun x => x.setCt (field w.toNat 53 51) (field w.toNat 42 11)).issued n)) ∧
    (field w.toNat 50 48 = 1 → exec (.ct n w) s =
      .next ((s.updNib n fun x => x.setCt (field w.toNat 53 51) (v + field w.toNat 42 11)).issued n)) ∧
    (field w.toNat 50 48 = 2 → exec (.ct n w) s =
      .next ((s.updNib n fun x => x.setCt (field w.toNat 53 51) (v + b)).issued n)) ∧
    (field w.toNat 50 48 = 3 → exec (.ct n w) s =
      .next ((s.updNib n fun x => x.setCt (field w.toNat 53 51) (v + 2 ^ 32 - b)).issued n)) ∧
    (field w.toNat 50 48 = 4 → exec (.ct n w) s =
      .next ((s.updNib n fun x => x.setCt (field w.toNat 53 51) b).issued n)) ∧
    (field w.toNat 50 48 = 5 → exec (.ct n w) s =
      .next ((s.updNib n fun x => x.setCt (field w.toNat 53 51)
        (((s.nib n).issue.loops[field w.toNat 44 43]?.map LoopLevel.index).getD 0)).issued n)) ∧
    (6 ≤ field w.toNat 50 48 → exec (.ct n w) s = .next (s.issueFault n 0x01 none 0))

/-- A counter written reads as the value modulo 2³² and every other counter as before (R46); the nib holds nothing else new. -/
def Obligations.CounterWritten : Prop :=
  ∀ (x : Nib) (c v : Nat), (x.setCt c v).ct c = v % 2 ^ 32 ∧ { x.setCt c v with counters := x.counters } = x ∧
    (∀ d, d ≠ c → (x.setCt c v).ct d = x.ct d)

/-- R47, R138: cmp sets comparator C; R127: ktag sets the stamp and the accept masks; R135: rbase sets the base register of RQ. -/
def Obligations.CmpKtagRbase : Prop :=
  ∀ (n : NibId) (w : BitVec 64) (s : State),
    (s.ready n 0x0A w → field w.toNat 9 0 = 0 → exec (.cmp n w) s =
      .next ((s.updNib n fun x => { x with
        cmps := SMap.set {} x.cmps (field w.toNat 53 52)
          ⟨field w.toNat 51 49, field w.toNat 48 46, bit w.toNat 45, field w.toNat 44 42, field w.toNat 41 10⟩ }).issued n)) ∧
    (s.ready n 0x34 w → field w.toNat 39 0 = 0 →
      ∀ t : Tags, t = ⟨field w.toNat 53 51, field w.toNat 50 50, field w.toNat 49 42, field w.toNat 41 40⟩ →
      exec (.ktag n w) s = .next ((s.setTags n t).issued n) ∧
      ((s.nib n).inbox = [] → (∀ o ∈ (s.nib n).slots, o.kind ≠ .recv) →
        (s.setTags n t).nib n = { s.nib n with tags := t })) ∧
    (s.ready n 0x28 w → field w.toNat 10 0 = 0 → exec (.rbase n w) s =
      .next ((s.updNib n fun x => { x with
        rbase := SMap.set 0 x.rbase (field w.toNat 53 52) (field w.toNat 51 11 * 64) }).issued n))

/-! ### Tokens, engines, streams and reservoirs -/

/-- R124: twait dequeues N tokens and checks each against KMASK; with STORE the N-th token's VALUE goes to CT; a token of a KIND that
KMASK leaves out is dequeued and raises TOKEN_KIND; with fewer than N tokens the wait holds issue. -/
def Obligations.TwaitDequeues : Prop :=
  ∀ (n : NibId) (w : BitVec 64) (s : State), s.ready n 0x10 w → field w.toNat 35 0 = 0 →
    (∀ k e, (s.nib n).issue.hold ≠ .tokens k e) →
    ∀ (ts rest : List Nat) (t : Nat), (∀ u ∈ ts, bit (field w.toNat 43 40) (field u 25 24) = true) →
    (bit (field w.toNat 43 40) (field t 25 24) = true → ts.length = field w.toNat 49 44 →
      (s.nib n).queue (field w.toNat 53 50) = ts ++ t :: rest →
      exec (.twait n w) s = .next (((s.setNib n
        (if bit w.toNat 39 then ((s.nib n).setQueue (field w.toNat 53 50) rest).setCt (field w.toNat 38 36) (field t 23 0)
        else (s.nib n).setQueue (field w.toNat 53 50) rest)).settle n).issued n)) ∧
    (bit (field w.toNat 43 40) (field t 25 24) = false → ts.length ≤ field w.toNat 49 44 →
      (s.nib n).queue (field w.toNat 53 50) = ts ++ t :: rest →
      exec (.twait n w) s = .next (((s.setNib n ((s.nib n).setQueue (field w.toNat 53 50) rest)).settle n).issueFault n 0x08 none
        (field w.toNat 53 50 <<< 14 + field t 25 24 <<< 12 + field t 31 29 <<< 9 + field t 28 28 <<< 8))) ∧
    (ts.length ≤ field w.toNat 49 44 → (s.nib n).queue (field w.toNat 53 50) = ts → ts ≠ [] →
      exec (.twait n w) s = .next ((((s.setNib n ((s.nib n).setQueue (field w.toNat 53 50) [])).updNib n fun x => { x with
        issue := { x.issue with hold := .tokens (field w.toNat 49 44 + 1 - ts.length) (bit w.toNat 43) } }).settle n).progress n 0))

/-- R123, R41: a local signal enqueues a SIGNAL token in queue Q where it has room and waits where it has none; a remote one enters the
mesh; one to a nib outside the declared grid raises ADDRESS. -/
def Obligations.SignalSends : Prop :=
  ∀ (n : NibId) (w : BitVec 64) (s : State), s.ready n 0x11 w → field w.toNat 9 0 = 0 → field w.toNat 53 52 ≤ 1 →
    (bit w.toNat 34 = true → field w.toNat 30 10 = 0) →
    ∀ v, v = (if bit w.toNat 34 then (s.nib n).ct (field w.toNat 33 31) % 2 ^ 24 else field w.toNat 33 10) →
    (field w.toNat 53 52 = 0 → (s.nib n).room (field w.toNat 38 35) = true → exec (.signal n w) s =
      .next ((s.updNib n fun x => x.enqueue (field w.toNat 38 35) (token x.tags.gen x.tags.epoch 0 v)).issued n)) ∧
    (field w.toNat 53 52 = 0 → (s.nib n).room (field w.toNat 38 35) = false → exec (.signal n w) s =
      .next (s.updNib n fun x => { x with issue := { x.issue with hold := .queueFull } })) ∧
    (field w.toNat 53 52 = 1 → s.inGrid (field w.toNat 51 45) (field w.toNat 44 39) = true → exec (.signal n w) s =
      .next ((s.inject n [⟨n, .nib (field w.toNat 51 45 * 64 + field w.toNat 44 39),
        (s.nib n).tags.gen, (s.nib n).tags.epoch, .signal (field w.toNat 38 35) v⟩]).issued n)) ∧
    (field w.toNat 53 52 = 1 → s.inGrid (field w.toNat 51 45) (field w.toNat 44 39) = false → exec (.signal n w) s =
      .next (s.issueFault n 0x02 none 0))

/-- R125: tbind with EN = 1 binds the Prompt Window doorbell to queue Q of this nib, where held doorbell events then go; with EN = 0 it
unbinds the doorbell. -/
def Obligations.TbindBindsDoorbell : Prop :=
  ∀ (n : NibId) (w : BitVec 64) (s : State), s.ready n 0x12 w → field w.toNat 48 0 = 0 →
    (bit w.toNat 49 = true → exec (.tbind n w) s = .next (State.issued
      (State.ringBells 64 { s with binding := { s.binding with doorbell := some (n.val, field w.toNat 53 50) } }) n)) ∧
    (bit w.toNat 49 = false → exec (.tbind n w) s = .next (State.issued
      { s with binding := { s.binding with doorbell := none } } n))

/-- R37, R39, R114, R117-R120: mma, vop and cvt take their operands, are checked, and enter the lowest free in-flight slot when no range of
theirs meets one in flight; a check that fails raises its fault. -/
def Obligations.EngineOperationsIssue : Prop :=
  ∀ (n : NibId) (w : BitVec 64) (s : State) (a b d : Tensor) (ss : List Tensor) (k : Nat),
    (s.nib n).freeSlotNo = some k →
    (s.ready n 0x18 w → field w.toNat 20 0 = 0 → (s.nib n).operands [(field w.toNat 44 36, false), (field w.toNat 35 27, false),
        (field w.toNat 53 45, true)] = .ok [a, b, d] →
      (mmaFault d a b = none → (s.nib n).rangeBusy (a.ranges ++ b.ranges ++ (if bit w.toNat 26 then d.ranges else [])) d.ranges = false →
        exec (.mma n w) s = .next ((s.updNib n fun x => { x with
          slots := x.slots ++ [{ slot := k, kind := .mma, word := w.toNat, addr := x.issue.addr, gen := x.tags.gen,
                                 epoch := x.tags.epoch, tensors := [d, a, b], writes := d.ranges,
                                 reads := a.ranges ++ b.ranges ++ (if bit w.toNat 26 then d.ranges else []) }] }).issued n)) ∧
      (∀ code h e, mmaFault d a b = some (.fault code h e) → exec (.mma n w) s = .next (s.issueFault n code h e))) ∧
    (s.ready n 0x19 w → vopReserved w.toNat = true → (s.nib n).operands ((field w.toNat 53 45, true) ::
        (vopHandles w.toNat).map fun h => (h, false)) = .ok (d :: ss) →
      (vopFault (field w.toNat 17 13) (bit w.toNat 12) d ss = none →
        (s.nib n).rangeBusy (ss.flatMap Tensor.ranges) d.ranges = false →
        exec (.vop n w) s = .next ((s.updNib n fun x => { x with
          slots := x.slots ++ [{ slot := k, kind := .vop, word := w.toNat, addr := x.issue.addr, gen := x.tags.gen,
                                 epoch := x.tags.epoch, tensors := d :: ss, writes := d.ranges,
                                 reads := ss.flatMap Tensor.ranges }] }).issued n)) ∧
      (∀ code h e, vopFault (field w.toNat 17 13) (bit w.toNat 12) d ss = some (.fault code h e) →
        exec (.vop n w) s = .next (s.issueFault n code h e))) ∧
    (s.ready n 0x1B w → field w.toNat 30 0 = 0 → (s.nib n).operands [(field w.toNat 44 36, false), (field w.toNat 53 45, true)] =
        .ok [a, d] → a.scaleFault = false → d.scaleFault = false → (∀ i < 5, a.ext i = d.ext i) →
      (s.nib n).rangeBusy a.ranges d.ranges = false →
        exec (.cvt n w) s = .next ((s.updNib n fun x => { x with
          slots := x.slots ++ [{ slot := k, kind := .cvt, word := w.toNat, addr := x.issue.addr, gen := x.tags.gen,
                                 epoch := x.tags.epoch, tensors := [d, a], writes := d.ranges, reads := a.ranges }] }).issued n))

/-- R28, R30, R97, R155, R157: the oldest operation of its engine writes its results over stores without errors, whose sources no fetch in
flight writes, and goes on to its DONE token; nothing but the nib's stores changes before that.
R37, R41, R44: a finished operation without DEN frees its slot; with DEN its DONE token, of the issuing address and stamp, joins queue DQ
as the slot frees, or waits while the queue is full. -/
def Obligations.EngineOperationsComplete : Prop :=
  (∀ (n : NibId) (s : State) (o : InFlight) (k : Work), (s.nib n).ecc = [] →
     (s.engineOp n .mma = some o → o.mmaWork = some k → s.fetching n k.srcs = [] → exec (.mmaComplete n) s =
       .next (((s.progress n 1).updNib n fun x => { x with mem := (k.result x.mem).mem }).finishOp n { o with
         esc := (k.result (s.nib n).mem).esc, toZero := (k.result (s.nib n).mem).toZero
         saturated := (k.result (s.nib n).mem).saturated })) ∧
     (s.engineOp n .vop = some o → o.vopWork = some k → s.fetching n k.srcs = [] → exec (.vopComplete n) s =
       .next (((s.progress n 2).updNib n fun x => { x with mem := (k.result x.mem).mem }).finishOp n { o with
         esc := (k.result (s.nib n).mem).esc, toZero := (k.result (s.nib n).mem).toZero
         saturated := (k.result (s.nib n).mem).saturated })) ∧
     (s.engineOp n .cvt = some o → o.cvtWork = some k → s.fetching n k.srcs = [] → exec (.cvtComplete n) s =
       .next (((s.progress n 2).updNib n fun x => { x with mem := (k.result x.mem).mem }).finishOp n { o with
         esc := (k.result (s.nib n).mem).esc, toZero := (k.result (s.nib n).mem).toZero
         saturated := (k.result (s.nib n).mem).saturated })) ∧
     (s.engineOp n .kappend = some o → o.kappendWork = some k → s.fetching n k.srcs = [] → exec (.kappendComplete n) s =
       .next (((s.progress n 2).updNib n fun x => { x with mem := (k.result x.mem).mem }).finishOp n { o with
         esc := (k.result (s.nib n).mem).esc, toZero := (k.result (s.nib n).mem).toZero
         saturated := (k.result (s.nib n).mem).saturated })) ∧
     (s.engineOp n .kmask = some o → o.kmaskWork = some k → s.fetching n k.srcs = [] → exec (.kmaskComplete n) s =
       .next (((s.progress n 2).updNib n fun x => { x with mem := (k.result x.mem).mem }).finishOp n { o with
         esc := (k.result (s.nib n).mem).esc, toZero := (k.result (s.nib n).mem).toZero
         saturated := (k.result (s.nib n).mem).saturated }))) ∧
  (∀ (s : State) (n : Nat) (o : InFlight),
     (o.den.1 = false → ((s.finishOp n o).nib n).slots =
       ((s.nib n).setSlot { o with written := true }).slots.filter (fun p => p.slot ≠ o.slot)) ∧
     (o.den.1 = true → (s.nib n).room o.den.2 = true →
       ((s.finishOp n o).nib n).queue o.den.2 = (s.nib n).queue o.den.2 ++ [token o.gen o.epoch 1 o.addr] ∧
       ((s.finishOp n o).nib n).slots =
         ((s.nib n).setSlot { o with written := true }).slots.filter (fun p => p.slot ≠ o.slot)) ∧
     (o.den.1 = true → (s.nib n).room o.den.2 = false →
       (s.finishOp n o).nib n = (s.nib n).setSlot { o with written := true }) ∧
     ((s.finishOp n o).nib n).mem = (s.nib n).mem ∧ ((s.finishOp n o).nib n).counters = (s.nib n).counters ∧
     (s.finishOp n o).mesh = s.mesh ∧ (s.finishOp n o).desk = s.desk)

/-- R130, R133: where its source holds no word in error and no fetch in flight writes it, a send to a nib of the grid, or to a quill's
landing buffer, puts its message into the mesh in packets and takes a slot; one to the margin engine hands its bytes over and takes a slot. A
send completes when no more flits of it are under way than the path takes; a send of an aborted job frees its slot without a token, and one
stopped part-way by a pre-emption keeps it. -/
def Obligations.SendMessages : Prop :=
  (∀ (n : NibId) (w : BitVec 64) (s : State) (t : Tensor) (k : Nat), s.ready n 0x20 w → sendReserved w.toNat = true →
    (s.nib n).operands [(field w.toNat 53 45, false)] = .ok [t] → t.scaleFault = false →
    (s.nib n).streamBusy .sender = false → (s.nib n).freeSlotNo = some k → (s.nib n).rangeBusy t.ranges [] = false →
    (s.nib n).ecc = [] → s.fetching n t.rowRanges = [] →
    ∀ o : InFlight, o = { slot := k, kind := .send, word := w.toNat, addr := (s.nib n).issue.addr, gen := (s.nib n).tags.gen,
                          epoch := (s.nib n).tags.epoch, tensors := [t], reads := t.ranges, writes := [], left := t.denseSize } →
    (field w.toNat 44 43 = 0 → s.inGrid (field w.toNat 42 36) (field w.toNat 35 30) = true →
      exec (.send n w) s = .next ((((s.inject n
        (packets (fun a bs last => ⟨n.val, .nib (field w.toNat 42 36 * 64 + field w.toNat 35 30), (s.nib n).tags.gen,
            (s.nib n).tags.epoch, .data (field w.toNat 13 10) (64 * field w.toNat 29 14) t.denseSize (64 * field w.toNat 29 14 + a) bs
              last⟩) (t.denseSize / 1024 + 1) 0 (t.dense (s.nib n).mem))).updNib n fun x => { x with
          slots := x.slots ++ [o] }).progress n 3).issued n)) ∧
    (field w.toNat 44 43 = 1 → 64 * field w.toNat 29 14 + t.denseSize ≤ 65536 →
      s.landTouched (field w.toNat 42 39) (64 * field w.toNat 29 14) t.denseSize = false →
      exec (.send n w) s = .next ((((s.inject n
        (packets (fun a bs _ => ⟨n.val, .quill (field w.toNat 42 39), (s.nib n).tags.gen, (s.nib n).tags.epoch,
            .quill (64 * field w.toNat 29 14 + a) bs ((List.range (ceilDiv bs.length 64)).map fun i => t.denseAddr (a + 64 * i))⟩)
              (t.denseSize / 1024 + 1) 0 (t.dense (s.nib n).mem))).updNib n fun x => { x with
          slots := x.slots ++ [o] }).progress n 3).issued n)) ∧
    (field w.toNat 44 43 = 2 → t.denseSize - 64 ≤ 2048 → s.marginRoom = true →
      exec (.send n w) s = .next ((((s.issueRequest n (t.dense (s.nib n).mem)).updNib n fun x => { x with
          slots := x.slots ++ [o] }).progress n 3).issued n))) ∧
  (∀ (n : NibId) (s : State) (o : InFlight) (d : PacketDest), s.engineOp n .send = some o → sendDest o.word = some d →
    s.flitsUnderway n d ≤ s.pathRoom n d →
    (s.recovery.ended = false → (∀ k, o.stop = some k → o.total ≤ k) →
      exec (.sendComplete n) s = .next ((s.progress n 3).finishOp n { o with left := 0 })) ∧
    (s.recovery.ended = false → (∃ k, o.stop = some k ∧ k < o.total) → exec (.sendComplete n) s = .next s) ∧
    (s.recovery.ended = true →
      exec (.sendComplete n) s = .next (s.updNib n fun x => { x with slots := x.slots.filter fun p => p.slot ≠ o.slot })))

/-- R131, R132: recv posts its region and takes a slot; of mesh messages it completes when NMSG have been written whole; of a landing buffer
when the range has landed under a stamp the nib accepts, and the copy is made. -/
def Obligations.RecvMessages : Prop :=
  (∀ (n : NibId) (w : BitVec 64) (s : State) (t : Tensor) (k : Nat), s.ready n 0x21 w → recvReserved w.toNat = true →
    (s.nib n).operands [(field w.toNat 53 45, true)] = .ok [t] → t.scaleFault = false →
    (field w.toNat 24 23 = 1 → 64 * field w.toNat 18 9 + t.denseSize ≤ 65536) →
    (s.nib n).streamBusy .receiver = false → (s.nib n).freeSlotNo = some k → (s.nib n).rangeBusy [] t.ranges = false →
    exec (.recv n w) s = .next (((s.updNib n fun x => { x with
      slots := x.slots ++ [{ slot := k, kind := .recv, word := w.toNat, addr := x.issue.addr, gen := x.tags.gen,
                             epoch := x.tags.epoch, tensors := [t], reads := [], writes := t.ranges,
                             left := field w.toNat 40 25 + 1 }] }).drainInbox n).issued n)) ∧
  (∀ (n : NibId) (s : State) (o : InFlight) (t : Tensor) (ts : List Tensor), s.engineOp n .recv = some o → o.tensors = t :: ts →
    (field o.word 24 23 = 0 → o.left = 0 → exec (.recvComplete n) s = .next (((s.progress n 4).finishOp n o).settle n)) ∧
    (field o.word 24 23 = 1 → s.landed (field o.word 22 19) (64 * field o.word 18 9) t.denseSize = true →
      s.landStampOk n (field o.word 22 19) (64 * field o.word 18 9) t.denseSize = true →
      ((s.takeLanded (field o.word 22 19) (64 * field o.word 18 9) t.denseSize).1.nib n).ecc = [] →
      exec (.recvComplete n) s = .next
        ((((s.takeLanded (field o.word 22 19) (64 * field o.word 18 9) t.denseSize).1.updNib n fun x => { x with
          mem := t.writeDense x.mem 0 (s.takeLanded (field o.word 22 19) (64 * field o.word 18 9) t.denseSize).2 }).progress n
            4).finishOp n o)))

/-- R56, R57, R123, R127: where no link of its route is held by a packet that waits for another destination, the oldest packet of a nib to
another reaches its local input: a signal whose stamp the nib accepts is enqueued where its queue has room; a message's packet waits
while no recv of its queue is posted; a packet of a stamp the nib does not accept is dropped, and where no quire on its route
stretches that is all that is counted, at 0x7016. Where a link is held, the packet stays in the mesh. -/
def Obligations.PacketsArrive : Prop :=
  ∀ (n src : NibId) (s : State) (p : Packet) (rest : List Packet), takePacket src (.nib n) s.mesh = some (p, rest) →
    (s.heldBack src (.nib n) = false → (s.nib n).inbox = [] → (s.nib n).issue.run = .running → s.recovery.ended = false →
      (∀ q v, p.body = .signal q v → (s.nib n).accepts p = true → (s.nib n).room q = true →
        ∃ t, exec (.remoteSignalArrival n src) s = .next t ∧ t.mesh = rest ∧
          (t.nib n).queue q = (s.nib n).queue q ++ [token p.gen p.epoch 0 v] ∧ (t.nib n).inbox = [] ∧ (t.nib n).mem = (s.nib n).mem) ∧
      (∀ q v, p.body = .signal q v → (s.nib n).accepts p = false →
        ∃ t, exec (.remoteSignalArrival n src) s = .next t ∧ t.mesh = rest ∧ (t.nib n).queues = (s.nib n).queues ∧
          (s.slowCrossings (s.routeOf src (.nib n)) = [] →
            t.obj 0x7016 (s.nibQuire n) = (s.obj 0x7016 (s.nibQuire n) + 1) % 2 ^ 64)) ∧
      (∀ q base total off bs last, p.body = .data q base total off bs last → (s.nib n).accepts p = true →
        (s.nib n).recvFor q = none →
        ∃ t, exec (.streamPacketArrival n src) s = .next t ∧ t.mesh = rest ∧ (t.nib n).inbox = [⟨s.portOf src n, p⟩] ∧
          (t.nib n).queues = (s.nib n).queues ∧ (t.nib n).slots = (s.nib n).slots ∧ (t.nib n).mem = (s.nib n).mem) ∧
      (∀ q base total off bs last, p.body = .data q base total off bs last → (s.nib n).accepts p = false →
        ∃ t, exec (.streamPacketArrival n src) s = .next t ∧ t.mesh = rest ∧ (t.nib n).inbox = [] ∧
          (t.nib n).queues = (s.nib n).queues ∧ (t.nib n).slots = (s.nib n).slots ∧ (t.nib n).mem = (s.nib n).mem ∧
          (s.slowCrossings (s.routeOf src (.nib n)) = [] →
            t.obj 0x7016 (s.nibQuire n) = (s.obj 0x7016 (s.nibQuire n) + 1) % 2 ^ 64))) ∧
    (s.heldBack src (.nib n) = true → exec (.remoteSignalArrival n src) s = .next s ∧ exec (.streamPacketArrival n src) s = .next s)

/-- R131: a packet of a message that fits the posted region is written at its offset; the last one enqueues a DATA token of the message's
64 B units; a message that does not fit raises STREAM_BOUNDS. -/
def Obligations.RecvTakesPackets : Prop :=
  ∀ (n : Nat) (s : State) (p : Packet) (q base total off : Nat) (bs : List Byte) (o : InFlight) (t : Tensor) (ts : List Tensor),
    (s.nib n).recvFor q = some o → o.tensors = t :: ts → (o.partials.contains p.src = true ∨ o.admitted < o.left) →
    (t.denseSize < base + total → ∀ last, s.recvPacket n p q base total off bs last =
      .taken (s.nibFault n { code := 0x09, addr := o.addr, detail := q <<< 14 })) ∧
    (base + total ≤ t.denseSize → (s.nib n).ecc = [] → (s.nib n).room q = true →
      ∃ u, s.recvPacket n p q base total off bs true = .taken u ∧ (u.nib n).mem = t.writeDense (s.nib n).mem off bs ∧
        (u.nib n).queue q = (s.nib n).queue q ++ [token p.gen p.epoch 2 (ceilDiv total 64)]) ∧
    (base + total ≤ t.denseSize → (s.nib n).ecc = [] →
      ∃ u, s.recvPacket n p q base total off bs false = .taken u ∧ (u.nib n).mem = t.writeDense (s.nib n).mem off bs ∧
        (u.nib n).queues = (s.nib n).queues)

/-- R136, R137: rfetch and rstore take an entry of their queue with the desk address R136 gives; rwait goes on once at most N transfers are
unretired, holds issue above that, and raises RES once the oldest transfer has ended in error and has no chunk in flight.
R136: the desk side of a transfer starts at the base of RQ plus 64 × (OFF + CT) modulo 2³², CT counted when CEN is 1. -/
def Obligations.ReservoirInstructions : Prop :=
  (∀ (n : NibId) (w : BitVec 64) (s : State),
     (∀ t, s.ready n 0x29 w → field w.toNat 6 0 = 0 → (s.nib n).operands [(field w.toNat 53 45, true)] = .ok [t] →
       inWell t.base = true → t.scaled = false → transferVa (s.nib n) w.toNat + t.denseSize ≤ 2 ^ 47 →
       ((s.nib n).resQueue (field w.toNat 44 43)).length < 64 →
       exec (.rfetch n w) s = .next ((s.updNib n fun x => x.setResQueue (field w.toNat 44 43) (x.resQueue (field w.toNat 44 43) ++
         [{ word := w.toNat, va := transferVa x w.toNat, tensor := t }])).issued n)) ∧
     (∀ t, s.ready n 0x2A w → field w.toNat 6 0 = 0 → (s.nib n).operands [(field w.toNat 53 45, false)] = .ok [t] →
       inWell t.base = true → t.scaled = false → transferVa (s.nib n) w.toNat + t.denseSize ≤ 2 ^ 47 →
       ((s.nib n).resQueue (field w.toNat 44 43)).length < 64 →
       exec (.rstore n w) s = .next ((s.updNib n fun x => x.setResQueue (field w.toNat 44 43) (x.resQueue (field w.toNat 44 43) ++
         [{ word := w.toNat, va := transferVa x w.toNat, tensor := t }])).issued n)) ∧
     (s.ready n 0x2B w → field w.toNat 45 0 = 0 →
       (((s.nib n).resQueue (field w.toNat 53 52)).length ≤ field w.toNat 51 46 → exec (.rwait n w) s = .next (s.issued n)) ∧
       (∀ t ts, (s.nib n).resQueue (field w.toNat 53 52) = t :: ts → field w.toNat 51 46 < ts.length + 1 →
         (t.isError = true → t.flight = [] → exec (.rwait n w) s =
           .next (((s.setNib n ((s.nib n).setResQueue (field w.toNat 53 52) ts)).queueTurned n (field w.toNat 53 52)).issueFault n 0x12
             none (field w.toNat 53 52 <<< 16))) ∧
         (t.isError = false ∨ t.flight ≠ [] → exec (.rwait n w) s =
           .next (s.updNib n fun x => { x with issue := { x.issue with hold := .reservoir } }))))) ∧
  (∀ (x : Nib) (w : Nat), transferVa x w = SMap.get 0 x.rbase (field w 44 43) +
     64 * ((field w 42 11 + if bit w 10 then x.ct (field w 9 7) else 0) % 2 ^ 32))


/-! ### Sequences, and the desk memory's side -/

/-- R154, R163: kappend of a bound context with room, a legal parent and entries of the binding's sizes takes the lowest free slot, which writes
the draft's key and value entries, and adds the draft node with its parent; it raises SEQ where the context is not bound, is full, the parent
is not a draft, or an entry is scaled or not of the binding's size. R156: kmask of a bound context into a mask tensor takes a slot with the
node table as it stands, and raises SEQ where the context is not bound or the destination is no mask tensor.
R153, R156: what a kmask leaves: element (i, j) shows draft node j to draft i where j is i or one of its ancestors, and hides it elsewhere, by
the encoding of the mask's format. -/
def Obligations.KappendAndKmaskIssue : Prop :=
  (∀ (n : NibId) (w : BitVec 64) (s : State) (c : Context), c = (s.nib n).ctx (field w.toNat 53 48) →
     (s.ready n 0x30 w → field w.toNat 38 31 = 0 → field w.toNat 9 0 = 0 →
       (c.bound = false → exec (.kappend n w) s = .next (s.issueFault n 0x0B none (field w.toNat 53 48))) ∧
       (∀ kt vt, c.bound = true →
         (s.nib n).operands [(field w.toNat 47 39, false), (field w.toNat 30 22, false)] = .ok [kt, vt] →
         ((c.drafts = 64 ∨ c.cap ≤ c.committed + c.drafts ∨ (field w.toNat 21 15 ≠ 0x7F ∧ c.drafts ≤ field w.toNat 21 15) ∨
             kt.denseSize ≠ c.ek ∨ vt.denseSize ≠ c.ev ∨ kt.scaled = true ∨ vt.scaled = true) →
           exec (.kappend n w) s = .next (s.issueFault n 0x0B none (field w.toNat 53 48))) ∧
         (∀ k, (s.nib n).freeSlotNo = some k → c.drafts ≠ 64 → c.committed + c.drafts < c.cap →
           (field w.toNat 21 15 = 0x7F ∨ field w.toNat 21 15 < c.drafts) →
           kt.denseSize = c.ek → vt.denseSize = c.ev → kt.scaled = false → vt.scaled = false →
           (s.nib n).rangeBusy (kt.ranges ++ vt.ranges) [c.keyAt (c.committed + c.drafts), c.valAt (c.committed + c.drafts)] = false →
           exec (.kappend n w) s = .next (((s.setNib n { s.nib n with
             slots := (s.nib n).slots ++ [{ slot := k, kind := .kappend, word := w.toNat, addr := (s.nib n).issue.addr,
                                            gen := (s.nib n).tags.gen, epoch := (s.nib n).tags.epoch, tensors := [kt, vt],
                                            reads := kt.ranges ++ vt.ranges,
                                            writes := [c.keyAt (c.committed + c.drafts), c.valAt (c.committed + c.drafts)] }]
             }).updNib n fun x => x.setCtx (field w.toNat 53 48) { c with
               drafts := c.drafts + 1, parents := c.parents.take c.drafts ++ [field w.toNat 21 15]
               rest := c.rest.drop 1 }).issued n)))) ∧
     (s.ready n 0x33 w → field w.toNat 33 0 = 0 →
       (c.bound = false → exec (.kmask n w) s = .next (s.issueFault n 0x0B none (field w.toNat 53 48))) ∧
       (∀ t, c.bound = true → (s.nib n).operands [(field w.toNat 47 39, true)] = .ok [t] →
         (maskShape t = false → exec (.kmask n w) s = .next (s.issueFault n 0x0B none (field w.toNat 53 48))) ∧
         (∀ k, (s.nib n).freeSlotNo = some k → maskShape t = true → (s.nib n).rangeBusy [] t.ranges = false →
           exec (.kmask n w) s = .next ((s.updNib n fun x => { x with
             slots := x.slots ++ [{ slot := k, kind := .kmask, word := w.toNat, addr := x.issue.addr, gen := x.tags.gen,
                                    epoch := x.tags.epoch, tensors := [t], reads := [], writes := t.ranges,
                                    nodes := c.parents.take c.drafts }] }).issued n))))) ∧
  (∀ (parents : List Nat) (i j : Nat), (∀ k p, parents[k]? = some p → p = 0x7F ∨ p < k) → i < parents.length → i < 64 →
     ((ancestry parents 64 i).contains j = true ↔
       j = i ∨ ∃ p, parents[i]? = some p ∧ p ≠ 0x7F ∧ (ancestry parents 64 p).contains j = true)) ∧
  (∀ (o : InFlight) (t : Tensor), o.tensors = [t] → ∃ k, o.kmaskWork = some k ∧ k.srcs = [] ∧ k.dest = t.touched ∧
     ∀ m, k.result m = mapElems t m fun i j => ElemResult.mk
       (if (ancestry o.nodes 64 i).contains j = true then (if t.fmt = .int8 then 1 else 0)
        else if t.fmt = .int8 then 0 else if t.fmt = .fp32 then 0xFF800000 else if t.fmt = .bf16 then 0xFF80 else 0xFC00)
       {} false false)

/-- R161, R162: kerase drops every draft node and leaves C and the stores as they are. -/
def Obligations.KeraseDropsDrafts : Prop :=
  ∀ (n : NibId) (w : BitVec 64) (s : State), s.ready n 0x32 w → field w.toNat 47 0 = 0 →
    ∀ c, c = (s.nib n).ctx (field w.toNat 53 48) → c.bound = true →
    ((s.nib n).kvBusy (field w.toNat 53 48) = false →
      exec (.kerase n w) s = .next (((s.setNib n ((s.nib n).setCtx (field w.toNat 53 48)
        { c with drafts := 0, parents := [], rest := [] })).bumpHome c 0x8021 c.drafts).issued n)) ∧
    ((s.nib n).kvBusy (field w.toNat 53 48) = true →
      exec (.kerase n w) s = .next (s.updNib n fun x => { x with issue := { x.issue with hold := .context } }))

/-- R158, R160: kcommit of the first N nodes of an unbranched context moves C on by N, keeps the drafts that descend from the last node
committed, and moves no entry. -/
def Obligations.KcommitCommitsPath : Prop :=
  ∀ (n : NibId) (w : BitVec 64) (s : State), s.ready n 0x31 w → field w.toNat 33 0 = 0 → field w.toNat 47 41 ≤ 64 →
    bit w.toNat 34 = false → field w.toNat 40 35 = 0 →
    ∀ c, c = (s.nib n).ctx (field w.toNat 53 48) → c.bound = true → (s.nib n).kvBusy (field w.toNat 53 48) = false →
    field w.toNat 47 41 ≤ c.drafts → (∀ i, i < field w.toNat 47 41 → c.parents[i]? = some (if i = 0 then 0x7F else i - 1)) →
    (field w.toNat 47 41 = 0 → exec (.kcommit n w) s = .next (s.issued n)) ∧
    (field w.toNat 47 41 ≠ 0 → ∃ t, exec (.kcommit n w) s = .next t ∧ (t.nib n).mem = (s.nib n).mem ∧
      (t.nib n).ctx (field w.toNat 53 48) = { c with
        committed := c.committed + field w.toNat 47 41
        drafts := (survivors c (List.range (field w.toNat 47 41))).length
        parents := survivors c (List.range (field w.toNat 47 41))
        rest := [] })

/-- R35, R36: with scrubbing on and the quire clocked, the scrubber reads the next of the well's 24,576 rows, and with no word in error changes
nothing else; a word of that row with one bit in error is corrected and counted at 0x7010. -/
def Obligations.ScrubberCorrects : Prop :=
  ∀ (n : NibId) (s : State), s.obj 0x4011 0 ≠ 0 → s.clocked n = true → (s.nib n).ecc = [] →
    (∃ t, exec (.patrolScrub n []) s = .next t ∧ t.nib n = { s.nib n with scrubRow := ((s.nib n).scrubRow + 1) % 24576 } ∧
      (∀ m, m ≠ n.val → t.nib m = s.nib m) ∧ { t with nibs := s.nibs } = s) ∧
    (∀ i < 16, (s.nib n).scrubRow < 24576 →
      ∃ t, exec (.patrolScrub n [⟨(wellBase + 128 * (s.nib n).scrubRow) / 8 + i, 1⟩]) s = .next t ∧ (t.nib n).ecc = [] ∧
        (t.nib n).mem = (s.nib n).mem ∧ (t.nib n).scrubRow = ((s.nib n).scrubRow + 1) % 24576 ∧
        t.obj 0x7010 (s.nibQuire n) = (s.obj 0x7010 (s.nibQuire n) + 1) % 2 ^ 64)

/-- R186, R188, R189: the next chunk of a queue starts, translated, when at most 7 of the queue are in flight, and one of a coherent page recalls
the companion's lines; a chunk that need not wait for an older one or for the companion (R190, R191) completes where its bytes can be moved, moving them between the well
and desk memory, and faults where they cannot; the oldest transfer retires once every chunk of it has completed and none is in flight.
R188, R194: the bytes a chunk moves where nothing is in error: an rfetch chunk writes the desk bytes to the well, an rstore chunk, whose well
bytes stand as they did at its start, the well bytes to the desk. -/
def Obligations.ChunksMoveTransfers : Prop :=
  (∀ (n : NibId) (rq : RqId) (s : State),
     (∀ i t, nextStarter 0 ((s.nib n).resQueue rq) = some i → ((s.nib n).resQueue rq)[i]? = some t → s.chunksStart = true →
       queueFlight ((s.nib n).resQueue rq) < 8 → (∀ k ∈ t.flight, k.idx ≠ t.next) →
       ∀ u : State, u = (s.translate (t.chunkVa t.next) t.store).1 →
       (∀ pa coh, (s.translate (t.chunkVa t.next) t.store).2 = .ok pa coh →
         ∀ v : State, v = (u.updTransfer n rq i fun x => { x with
           next := t.next + 1
           flight := x.flight ++ [⟨t.next, pa, 0, s.now, u.desk.tlbGen,
             if t.store then (t.wellAddrs t.next).map fun a => (s.nib n).mem.read a else []⟩] }) →
         exec (.chunkStart n rq) s = .next (if coh then v.claimLines pa (t.chunkLen t.next) t.store else v)) ∧
       (∀ e, (s.translate (t.chunkVa t.next) t.store).2 = .cause e → exec (.chunkStart n rq) s =
         .next (u.updTransfer n rq i fun x => { x with
           next := t.next + 1
           flight := x.flight ++ [⟨t.next, 0, e, s.now, u.desk.tlbGen, []⟩] }))) ∧
     (∀ chunk ecc i t k, findFlight chunk 0 ((s.nib n).resQueue rq) = some (i, t, k) →
       s.olderMeets ((s.nib n).resQueue rq) i t k = false →
       (k.cause = 0 → s.linesHeld k.pa (t.chunkLen chunk) t.store = false) → (s.moveChunk n t k ecc).1.recovery.ended = false →
       ((s.moveChunk n t k ecc).2 = 0 → exec (.chunkComplete n rq chunk ecc) s =
         .next (((s.moveChunk n t k ecc).1.updTransfer n rq i fun u => { u with
           flight := u.flight.filter fun j => j.idx ≠ chunk
           done := if u.done.contains chunk then u.done else u.done ++ [chunk] }).progress n (5 + rq.val))) ∧
       ((s.moveChunk n t k ecc).2 ≠ 0 → exec (.chunkFault n rq chunk ecc) s =
         .next ((s.moveChunk n t k ecc).1.chunkFaulted n rq i chunk (s.moveChunk n t k ecc).2))) ∧
     (∀ t ts, (s.nib n).resQueue rq = t :: ts → t.complete = true → t.flight = [] → t.st = .active →
       (s.nib n).issue.run = .running → exec (.transferRetire n rq) s =
         .next (((s.updNib n fun x => x.setResQueue rq ts).progress n (5 + rq.val)).queueTurned n rq))) ∧
  (∀ (n : Nat) (s : State) (t : Transfer) (k : Chunk), k.cause = 0 → (s.nib n).ecc = [] → s.desk.ecc = [] → s.desk.link = [] →
     s.desk.astray = [] →
     (t.store = true → (k.was = [] ∨ k.was = (t.wellAddrs k.idx).map fun a => (s.nib n).mem.read a) →
       (s.moveChunk n t k []).2 = 0 ∧ (s.moveChunk n t k []).1 =
         s.deskPut k.pa ((t.wellAddrs k.idx).map fun a => (s.nib n).mem.read a)) ∧
     (t.store = false → (s.moveChunk n t k []).2 = 0 ∧ (s.moveChunk n t k []).1.desk.mem = s.desk.mem ∧
       ((s.moveChunk n t k []).1.nib n).mem =
         putBytes (t.wellAddrs k.idx) (s.deskBytes k.pa (t.chunkLen k.idx)) (s.nib n).mem))

/-- R192, R195: a chunk that started more than 20 µs ago, and does not wait behind a transfer held for a fault handler, faults with cause DESK_UE
(3). Of an active transfer: where the cause's action is ABORT the transfer ends in error, counted at 0x8037; else it is HELD in the first free
fault entry and FAULT is raised; with no entry free it ends in error, counted at 0x8037 and 0x8038. A chunk that started no more than 20 µs ago,
or that waits so, is left alone. -/
def Obligations.ChunkFaultsAreHeldOrAborted : Prop :=
  ∀ (n : NibId) (rq : RqId) (s : State) (chunk i : Nat) (t : Transfer) (k : Chunk),
    findFlight chunk 0 ((s.nib n).resQueue rq) = some (i, t, k) → ((s.nib n).resQueue rq)[i]? = some t →
    ((((s.nib n).resQueue rq).take i).any (fun u => u.isStopped && s.meets u t k) = false → k.start + 20000 < s.now →
      s.recovery.ended = false → t.st = .active →
      (s.obj 0x4620 3 ≠ 0 → ∃ u, exec (.chunkTimeout n rq chunk) s = .next u ∧ u.obj 0x8037 0 = (s.obj 0x8037 0 + 1) % 2 ^ 64 ∧
        ((u.nib n).resQueue rq)[i]? = some { t with st := .error 3, flight := t.flight.filter fun j => j.idx ≠ chunk }) ∧
      (s.obj 0x4620 3 = 0 → ∀ e, s.freeEntry = some e →
        ∃ u, exec (.chunkTimeout n rq chunk) s = .next u ∧ u.obj 0x8037 0 = s.obj 0x8037 0 ∧
          ((u.nib n).resQueue rq)[i]? = some { t with st := .held 3 e, flight := t.flight.filter fun j => j.idx ≠ chunk } ∧
          SMap.get none u.desk.entries e = some
            { nib := s.physNib n, rq := rq.val, cause := 3, store := t.store, pos := i,
              st := if s.desk.preempt.status = 1 then 4 else 1, chunk := chunk, va := t.chunkVa chunk, time := s.now, virt := n.val } ∧
          (u.agent.log.getLast?.map fun r => (r.code, r.param)) = some (0x01, (e + 1) % 2 ^ 16)) ∧
      (s.obj 0x4620 3 = 0 → s.freeEntry = none →
        ∃ u, exec (.chunkTimeout n rq chunk) s = .next u ∧ u.obj 0x8037 0 = (s.obj 0x8037 0 + 1) % 2 ^ 64 ∧
          u.obj 0x8038 0 = (s.obj 0x8038 0 + 1) % 2 ^ 64 ∧
          ((u.nib n).resQueue rq)[i]? = some { t with st := .error 3, flight := t.flight.filter fun j => j.idx ≠ chunk })) ∧
    ((((s.nib n).resQueue rq).take i).any (fun u => u.isStopped && s.meets u t k) = true ∨ s.now ≤ k.start + 20000 →
      exec (.chunkTimeout n rq chunk) s = .next s)

/-- R198: an entry that stays HELD for the hold limit of 0x4621:00 is aborted as if ABORT had been written; a younger one stays. The
default limit is 10 ms. -/
def Obligations.HoldLimitAborts : Prop :=
  State.reset.obj 0x4621 0 = 10000 ∧
  ∀ (s : State) (entry : BitVec 6) (x : FaultEntry), SMap.get none s.desk.entries entry.toNat = some x → x.st = 1 →
    (x.time + s.obj 0x4621 0 * 1000 ≤ s.now → exec (.holdLimitExpiry entry) s = .next (s.resolve entry.toNat 2)) ∧
    (s.now < x.time + s.obj 0x4621 0 * 1000 → exec (.holdLimitExpiry entry) s = .next s)

/-- R176, R177: while the devices are not in self refresh, refresh and refresh management are recorded in the channel they name, a drift over
its limit runs a retraining window there, which ends at most 1.2 µs after the later of now and the latest window of the channel's package, and a poll's corrections are added
to 0x8033; in self refresh none of this happens. What goes wrong in desk memory comes with the refresh row (log entry 8).
R187: a flush completes, and 0x8035:00 then reads 0, when no chunk in flight started under an older translation; until then it stays. -/
def Obligations.DeskControllerRecords : Prop :=
  (∀ (s : State) (ch : Fin 128) (v : Nat), s.desk.selfRefresh = false →
     (∀ errors t, t = errors.foldl State.deskError s → exec (.perBankRefresh ch ⟨v, errors⟩) s = .next { t with desk := { t.desk with
       channels := SMap.upd {} t.desk.channels ch.val fun c => { c with mr4 := v, refreshes := c.refreshes + 1 } } }) ∧
     (exec (.refreshManagement ch) s = .next { s with desk := { s.desk with
       channels := SMap.upd {} s.desk.channels ch.val fun c => { c with rfm := c.rfm + 1 } } }) ∧
     (exec (.wck2dqOscillatorRead ch true) s = .next { s with desk := { s.desk with
       channels := SMap.upd {} s.desk.channels ch.val fun c => { c with
         retrains := c.retrains + 1, retrainEnd := max s.now (s.packageBusy ch.val) + 1200 } } }) ∧
     (exec (.wck2dqOscillatorRead ch false) s = .next s) ∧
     (exec (.writeLinkEccPoll v) s = .next (s.setObj 0x8033 0 ((s.obj 0x8033 0 + v) % 2 ^ 64)))) ∧
  (∀ (s : State) (ch : Fin 128) (v : Nat) (errors : List DeskError) (drift : Bool), s.desk.selfRefresh = true →
     exec (.perBankRefresh ch ⟨v, errors⟩) s = .next s ∧ exec (.refreshManagement ch) s = .next s ∧
     exec (.wck2dqOscillatorRead ch drift) s = .next s ∧ exec (.writeLinkEccPoll v) s = .next s) ∧
  (∀ (s : State) (g : Nat), s.desk.flushing = some g →
     (s.oldChunks g = false → exec .translationFlushComplete s = .next { s with desk := { s.desk with flushing := none } }) ∧
     (s.oldChunks g = true → exec .translationFlushComplete s = .next s))


/-! ### Clocks and ruling time -/

/-- R206, R211: losing the reference makes ruling time INVALID, takes lane lock from every quill, stops issue on every nib and blots a job that can be blotted with
reason CLOCK; its return relocks every generator, makes the time state FREE and asks for a compute-domain reset with cause REF. A quire clock whose
condition holds stops, is counted at 0x7026, blots the job with reason CLOCK and asks for a compute-domain reset with cause CLOCK; where the
condition does not hold nothing of the quire changes. R393: a reset asked for waits while an abort or a record is in progress; else, with none
asked for before that is as high, its record begins first. -/
def Obligations.ReferenceAndClockFailures : Prop :=
  (∀ (c : RefCause) (s : State), s.time.refOk = true → ∃ t, exec (.refLoss c) s = .next t ∧
    t.time = { s.time with refOk := false, st := 4, parent := none } ∧ (∀ n, (t.nib n).issue.run ≠ .running) ∧
    (∀ q, q < 16 → (t.quill q).laneLock = false) ∧ t.desk.mem = s.desk.mem ∧
    (s.mayBlot = true → t.binding.fn.code = .closing ∧
      t.recovery.abort = some ⟨s.now, 2, s.chip, (s.recovery.bseq + 1) % 256⟩) ∧
    (s.mayBlot = false → t.binding = s.binding ∧ t.recovery = s.recovery)) ∧
  (∀ (c : RefCause) (s : State), s.time.refOk = false → exec (.refLoss c) s = .next s) ∧
  (∀ s : State, s.time.refOk = false → ∃ u : State, exec .refReturn s = .next u.pumpSteps ∧
    u.time = { s.time with refOk := true, st := 0, adj := s.time.integ, good := 0, stepped := false } ∧
    (∀ k, k < 16 → (u.quire k).locked = true) ∧ u.nibs = s.nibs ∧ u.objs = s.objs ∧
    u.recovery = { s.recovery with wanted := s.recovery.wanted ++ [⟨3, 0xFFFF, 0, 8, s.now⟩] } ∧
    (s.recovery.abort.isSome = true ∨ s.recovery.record.isSome = true → u.pumpSteps = u) ∧
    (s.recovery.abort = none → s.recovery.record = none → s.recovery.retired = none → (∀ t ∈ s.recovery.wanted, t.step < 3) →
      u.recentRecord = false → u.blotWritable u.blotBase = true → u.pumpSteps = u.beginRecord 1 8 s.now)) ∧
  (∀ (k : QuireId) (c : ClockFail) (s : State),
    ((s.quire k.val).running = true → s.clockFails k.val c = true → ∃ u : State, exec (.clockMargin k c) s = .next u.pumpSteps ∧
      (u.quire k.val).running = false ∧ (u.quire k.val).locked = c.keepsLock ∧
      u.obj 0x7026 k.val = (s.obj 0x7026 k.val + 1) % 2 ^ 64 ∧
      u.recovery.wanted = s.recovery.wanted ++ [⟨3, 0xFFFF, 0, 4, s.now⟩] ∧
      (s.mayBlot = true → u.pumpSteps = u ∧ u.binding.fn.code = .closing ∧ (∀ n, (u.nib n).issue.run ≠ .running) ∧
        u.recovery.abort = some ⟨s.now, 2, s.chip, (s.recovery.bseq + 1) % 256⟩) ∧
      (s.mayBlot = false → u.binding = s.binding ∧ u.nibs = s.nibs ∧ u.recovery.abort = s.recovery.abort)) ∧
    ((s.quire k.val).running = false ∨ s.clockFails k.val c = false → exec (.clockMargin k c) s = .next s.pumpSteps))

/-- R208, R209, R210, R212, R213: the margin of a cycle is the smallest of its twelve slacks. A quire stretches from a cycle whose margin is below 15 units,
until the last eight cycles sampled all have 15 or more. Stretched cycles are counted at 0x7021 and, where they are the most of any line, at 0x7022; the count that
reaches 2,950 is counted once at 0x7023 and requests a pen-lift for two lines ahead. The lowest margin of a microsecond is kept at 0x7024, and at 0x7025 where it is the
lowest of all; below the threshold of 0x4704 MARGIN_LOW is raised once in a line. -/
def Obligations.QuiresStretch : Prop :=
  (∀ x : Slacks, (∀ i : Fin 12, marginOf x ≤ x[i]) ∧ ∃ i : Fin 12, marginOf x = x[i]) ∧
  (∀ (xs : List Slacks) (m : Int), (lowestMargin xs = some m ↔ (∃ x ∈ xs, marginOf x = m) ∧ ∀ x ∈ xs, m ≤ marginOf x)) ∧
  (∀ xs : List Slacks, (eightGood xs = true ↔ ∃ ys zs, xs = ys ++ zs ∧ zs.length = 8 ∧ ∀ z ∈ zs, 15 ≤ marginOf z)) ∧
  ∀ (k : QuireId) (s : State),
    (∀ x : Slacks, (s.quire k.val).running = true → ∃ t, exec (.stretchStart k x) s = .next t ∧ { t with quires := s.quires } = s ∧
      t.quire k.val = { s.quire k.val with
        nominal := marginOf x
        inUse := 2 * marginOf x + (if (s.quire k.val).stretching then 125 else 0)
        stretching := (s.quire k.val).stretching || decide (marginOf x < 15) }) ∧
    (∀ x : Slacks, (s.quire k.val).running = false → exec (.stretchStart k x) s = .next s) ∧
    (∀ (c : Nat) (xs : List Slacks), (s.quire k.val).stretching = true → (s.quire k.val).overrun = false →
      ((s.quire k.val).count + c < 2950 →
        (∃ t, exec (.stretchOverrun k c) s = .next t ∧ t.obj 0x7021 k.val = (s.obj 0x7021 k.val + c) % 2 ^ 64 ∧
          t.obj 0x7022 k.val = max (s.obj 0x7022 k.val) ((s.quire k.val).count + c) ∧
          t.quire k.val = { s.quire k.val with count := (s.quire k.val).count + c }) ∧
        ∃ t, exec (.stretchEnd k ⟨c, xs⟩) s = .next t ∧ t.obj 0x7021 k.val = (s.obj 0x7021 k.val + c) % 2 ^ 64 ∧
          t.obj 0x7022 k.val = max (s.obj 0x7022 k.val) ((s.quire k.val).count + c) ∧
          (t.quire k.val).count = (s.quire k.val).count + c ∧ (t.quire k.val).stretching = !eightGood xs) ∧
      (2950 ≤ (s.quire k.val).count + c → ∃ t, exec (.stretchOverrun k c) s = .next t ∧ (t.quire k.val).overrun = true ∧
        t.obj 0x7021 k.val = (s.obj 0x7021 k.val + c) % 2 ^ 64 ∧ t.obj 0x7023 k.val = (s.obj 0x7023 k.val + 1) % 2 ^ 64 ∧
        (s.planApplied = true → s.recovery.abort = none → (∀ j, j < 16 → (s.quire j).overrun = false) →
          (∀ a ∈ s.lines.announced, a.line ≠ s.line + 2) →
          t.lines.announced = s.lines.announced ++ [⟨s.line + 2, s.jobTag, s.chip, 2⟩] ∧
            t.obj 0x8040 0 = (s.obj 0x8040 0 + 1) % 2 ^ 64) ∧
        (s.planApplied = false → t.lines = s.lines))) ∧
    (∀ (c : Nat) (xs : List Slacks), (s.quire k.val).stretching = false →
      exec (.stretchOverrun k c) s = .next s ∧ exec (.stretchEnd k ⟨c, xs⟩) s = .next s) ∧
    (∀ (xs : List Slacks) (m : Int), lowestMargin xs = some m → ∃ t, exec (.marginLow k xs) s = .next t ∧
      t.obj 0x7024 k.val = unsigned 32 m ∧ t.nibs = s.nibs ∧
      ((s.quire k.val).marginSeen = false ∨ m < signed 32 (s.obj 0x7025 k.val) → t.obj 0x7025 k.val = unsigned 32 m) ∧
      (signed 32 (s.obj 0x4704 0) ≤ m ∨ (s.quire k.val).marginTold = some s.line → t.agent = s.agent) ∧
      (m < signed 32 (s.obj 0x4704 0) → (s.quire k.val).marginTold ≠ some s.line →
        (t.agent.log.getLast?.map fun r => (r.code, r.param)) = some (0x02, k.val) ∧
          (t.quire k.val).marginTold = some s.line)) ∧
    exec (.marginLow k []) s = .next s

/-- R215, R212, R236: each tick adds 0.5 ns, corrected by adj, to the ruling-time counter, which keeps what is left below 2⁻³² ns. At a line boundary every
quire's count is kept at 0x7022 where it is the highest and starts from 0, and a line that no pen-lift names fires. -/
def Obligations.TimeGoesOn : Prop :=
  (∀ s : State, s.time.refOk = true → exec .timeClockTick s = .next { s with time := { s.time with
    clock := s.time.clock + ((tickUnits s.time.adj).add s.time.carry).floor.toNat
    carry := ((tickUnits s.time.adj).add s.time.carry).add
      (Frac.ofInt (-((((tickUnits s.time.adj).add s.time.carry).floor.toNat : Nat) : Int)))
    ticks := s.time.ticks + 1 } }) ∧
  (∀ s : State, s.time.refOk = true → s.time.adj = {} → s.time.carry = {} →
    ∃ t, exec .timeClockTick s = .next t ∧ t.time.clock = s.time.clock + 2 ^ 31) ∧
  (∀ s : State, s.line ≤ s.time.lineDone → exec (.lineBoundary []) s = .next s) ∧
  (∀ s : State, s.time.lineDone < s.line → s.isRoot = true → s.obj 0x2707 0 = 0 → s.lifted s.line = false →
    ∃ t, exec (.lineBoundary []) s = .next t ∧ t.time.lineDone = s.line ∧ t.time.clock = s.time.clock ∧
      t.time.st = (if s.time.st = 4 then 4 else 2) ∧
      t.lines.fired = s.lines.fired + 1 ∧ (∀ k, k < 16 → (t.quire k).count = 0) ∧
      ∀ k, k < 16 → t.obj 0x7022 k = if s.obj 0x7022 k < (s.quire k).count then (s.quire k).count % 2 ^ 32 else s.obj 0x7022 k)

/-- R222, R224, R228, R230–R232: a TIME block whose CRC fails is counted at 0x6022; losing the parent puts the module in HOLDOVER with adj = integ, counted at
0x8042, and longer than the limit of 0x4700:00 it blots a job with an applied plan with reason TIME_LOST. PTP is heard while 0x2707:00 is not 0, on the
transport of 0x4702:00, and a Delay_Req follows an accepted Sync (log entry 57); losing it puts the anchor in holdover, counted at 0x8047; without an edge of PPS_IN for 2 s the anchor goes on without it, counted at
0x8044, and is in holdover where it steered by the edge alone. -/
def Obligations.TimeIsHeldAndLost : Prop :=
  (∀ (q : QuillId) (b : BitVec 192) (a : Nat) (s : State), (s.quill q.val).link = .up →
    exec (.timeBlockReceive q b a false) s = .next ((s.updQuill q.val fun x =>
      { x with time := { x.time with missed := x.time.missed + 1 } }).bump 0x6022 q.val 1)) ∧
  (∀ (q : QuillId) (b : BitVec 192) (a : Nat) (s : State), (s.quill q.val).link = .up → (s.quill q.val).time.heard = false →
    ∃ t, exec (.timeBlockReceive q b a true) s = .next t ∧ (t.quill q.val).time.rxSeq = field b.toNat 127 120 ∧
      (t.quill q.val).time.rxTime = a ∧ (t.quill q.val).time.hops = field b.toNat 143 136 ∧ (t.quill q.val).time.missed = 0 ∧
      (t.quill q.val).time.root = field b.toNat 161 148 ∧ t.objs = s.objs) ∧
  (∀ s : State, s.parentLost = true → s.isRoot = false → s.time.st = 1 ∨ s.time.st = 2 →
    ∃ t, exec .timeParentLoss s = .next t ∧ t.time.st = 3 ∧ t.time.adj = s.time.integ ∧ t.time.holdStart = s.now ∧
      t.obj 0x8042 0 = (s.obj 0x8042 0 + 1) % 2 ^ 64) ∧
  (∀ s : State, s.time.st = 3 → s.time.holdStart + s.obj 0x4700 0 * 1000 < s.now → s.planApplied = true → s.mayBlot = true →
    ∃ t, exec .holdoverLimitExpiry s = .next t ∧ t.obj 0x8046 0 = (s.obj 0x8046 0 + 1) % 2 ^ 64 ∧
      t.recovery.abort = some ⟨s.now, 4, s.chip, (s.recovery.bseq + 1) % 256⟩ ∧ t.binding.fn.code = .closing) ∧
  (∀ (f : PtpFrame) (s : State),
    (f.ipv6 ≠ decide (s.obj 0x4702 0 = 1) ∨ s.obj 0x2707 0 = 0 → exec (.ptpMessageReceive f) s = .next s) ∧
    (f.ipv6 = decide (s.obj 0x4702 0 = 1) → s.obj 0x2707 0 ≠ 0 →
      ∃ t, exec (.ptpMessageReceive f) s = .next t ∧ t.time = { s.time with ptp := s.ptpMessage f } ∧ t.objs = s.objs ∧
        t.mgmt.sent = s.mgmt.sent ++
          (if (s.ptpMessage f).reqSeq = s.time.ptp.reqSeq then [] else [s.delayReq (s.ptpMessage f).reqSeq]))) ∧
  (∀ s : State, s.isRoot = true → s.time.ptp.status = 1 → s.ptpLost = true →
    (s.obj 0x2707 0 = 1 → ∃ t, exec .ptpLoss s = .next t ∧ t.time.adj = s.time.integA ∧ t.time.ptp.status = 3 ∧
      t.obj 0x8047 0 = (s.obj 0x8047 0 + 1) % 2 ^ 64) ∧
    (s.obj 0x2707 0 = 2 → s.time.ptp.edge.isSome = true → s.time.ptp.fallen = false → exec .ptpLoss s =
      .next { s with time := { s.time with ptp := { s.time.ptp with status := 2 } } })) ∧
  (∀ s : State, s.isRoot = true → s.obj 0x2707 0 = 2 → s.time.ptp.fallen = false → s.time.ptp.edgeSeen + 2000000000 ≤ s.real →
    (s.time.ptp.status ≠ 2 → exec .ppsMissing s =
      .next (({ s with time := { s.time with ptp := { s.time.ptp with fallen := true } } } : State).bump 0x8044 0 1)) ∧
    (s.time.ptp.status = 2 → ∃ t, exec .ppsMissing s = .next t ∧ t.time.adj = s.time.integA ∧ t.time.ptp.status = 3 ∧
      t.time.ptp.fallen = true ∧ t.obj 0x8044 0 = (s.obj 0x8044 0 + 1) % 2 ^ 64 ∧ t.obj 0x8047 0 = (s.obj 0x8047 0 + 1) % 2 ^ 64))

/-! ### Ruled traffic -/

/-- R235, R236, R238, R251–R253, R259: at its decision instant a stroke sends what its calendar entry asks: VOID PAUSE in a line that a pen-lift names (of a FORWARD entry, in the name of a frame it has not received: log entry 6), VOID
IDLE for an IDLE entry; for ORIGINATE the region's DATA when it is ready, whose FULL marks clear, else VOID LATE, and the entry is owed; for FORWARD
the input; for COMBINE the sum of the input and the local part. A stroke decided already is not decided again. The entry
states of a copy that comes into force with the line are left to its apply (R240). -/
def Obligations.StrokesSend : Prop :=
  ∀ (q : QuillId) (s : State) (d : Nat), d = (s.now + 16) / 24 →
    (d ≤ (s.ruled q).decided → exec (.strokeDecision q) s = .next s) ∧
    ((s.ruled q).decided < d → ∀ (c : Calendar) (e : Nat) (t : Turn), c = (s.quill q).plan (s.planOf (d / 1024)) →
      e = SMap.get 0 c.tx (d % 1024) → t = ⟨q, d, d / 1024, d % 1024, e, SMap.get 0 c.bufs (entBuf e)⟩ →
      ∃ u, exec (.strokeDecision q) s = .next u ∧ (u.ruled q).decided = d ∧
        (s.lifted (d / 1024) = true → entOp e ≠ 2 → (u.ruled q).out = some (s.voidFrame (d / 1024) t.pk t.cu 3 (s.inst t))) ∧
        (s.lifted (d / 1024) = true → entOp e = 2 → (u.ruled q).out = some (s.voidForeign (d / 1024) t.cu 3).2) ∧
        (s.lifted (d / 1024) = false → entCu e = false →
          (entOp e = 0 → (u.ruled q).out = some (s.voidFrame (d / 1024) (d % 1024) false 0 (s.inst t))) ∧
          (entOp e = 1 → s.ownRuns (d / 1024) = true → (s.ruled q).ready t.region = true → (s.ruled q).edge = [] →
            (u.ruled q).out = some (s.dataFrame (d / 1024) (d % 1024) false t.region
              ((s.ruled q).lastStamp (regBase t.region) (regLen t.region)) (s.localPart t) (s.inst t)) ∧
            (u.ruled q).full = ((s.ruled q).depart t.region).full ∧
            (s.planAhead (d / 1024) = false → (u.ruled q).isOwed (d % 1024) = false ∧
              SMap.get 0 (u.ruled q).sent (d % 1024) = (s.inst t + 1) % 2 ^ 32)) ∧
          (entOp e = 1 → s.ownRuns (d / 1024) = true → (s.ruled q).ready t.region = false →
            (u.ruled q).out = some (s.voidFrame (d / 1024) (d % 1024) false 1 (s.inst t)) ∧
            (s.planAhead (d / 1024) = false → (u.ruled q).isOwed (d % 1024) = true) ∧ u.obj 0x6034 q = (s.obj 0x6034 q + 1) % 2 ^ 64 ∧
            (entHasCu e = true → u.lines = s.lines) ∧
            (entHasCu e = false → s.recovery.abort = none → (∀ a ∈ s.lines.announced, a.line ≠ s.line + 2) →
              u.lines.announced = s.lines.announced ++ [⟨s.line + 2, s.jobTag, s.chip, 1⟩])) ∧
          (∀ f, entOp e = 2 → (s.input t).2.1 = some f → (u.ruled q).out = some f) ∧
          (∀ f, entOp e = 4 → s.ownRuns (d / 1024) = true → (s.combineInput t).2 = (some f, 0) →
            (s.ruled q).ready t.region = true → (s.ruled q).isHolding (d % 1024) = false → (s.ruled q).edge = [] →
            (u.ruled q).out = some (s.dataFrame (d / 1024) (d % 1024) false t.region
              ((s.ruled q).lastStamp (regBase t.region) (regLen t.region)) (s.combined t f.payload) (s.inst t)))))

/-- R242, R246, R250, R254, R271, R281: what the FEC reports of codewords 0 to 12 is counted. An intact DATA frame whose codewords are usable and that arrives in its window
at a TERMINATE entry of the job lands: its payload is written to the region, whose words become LANDED, and the entry expects the next INSTANCE; a frame outside every
window is counted at 0x8054; a stroke without an intact frame of a known kind is handled as LOST and counted at 0x6036, and where its window has closed its control field
is missing as well. -/
def Obligations.StrokesArrive : Prop :=
  ∀ (q : QuillId) (s : State), (s.quill q).link = .up →
    (∀ (at_ : Nat) (f : Frame) (fec : FecReport), windowOf (signed 32 (s.obj 0x6021 q)) at_ = none →
      exec (.rxFrameArrival q at_ f fec) s =
        .next ((s.countFec q (strokeNear (signed 32 (s.obj 0x6021 q)) at_) fec 0 12).bump 0x8054 0 1)) ∧
    (∀ (at_ : Nat) (f : Frame) (fec : FecReport) (a : Nat) (off : Int) (c : Calendar) (e r : Nat),
      windowOf (signed 32 (s.obj 0x6021 q)) at_ = some (a, off) → a = (s.ruled q).rxDone + 1 →
      c = (s.quill q).plan (s.planOf (a / 1024)) → e = SMap.get 0 c.rx (a % 1024) → r = SMap.get 0 c.bufs (entBuf e) →
      ∃ t, exec (.rxFrameArrival q at_ f fec) s = .next t ∧ (t.ruled q).rxDone = a ∧
        (f.intact = false ∨ f.known = false ∨ (List.range 13).any fec.lost = true →
          t.obj 0x6036 q = (s.obj 0x6036 q + 1) % 2 ^ 64) ∧
        ((List.range 13).any fec.lost = false → f.intact = true → f.kind = 0 → f.why = 0 → entOp e = 3 → entCu e = false →
          s.lifted (a / 1024) = false → s.ownRuns (a / 1024) = true →
          s.lines.applyLine ≤ a / 1024 → s.addressed f = true → f.inst = SMap.get 0 (s.ruled q).expect (a % 1024) →
          (wordsOf (regBase r) (regLen r)).any (s.ruled q).isLanded = false →
          (t.ruled q).land = (s.ruled q).land.writeBytes (regBase r) (f.payload.take (regLen r)) ∧
          (t.ruled q).landed = RuledPort.mark (s.ruled q).landed (wordsOf (regBase r) (f.payload.take (regLen r)).length) true ∧
          SMap.get 0 (t.ruled q).expect (a % 1024) = (f.inst + 1) % 2 ^ 32 ∧
          SMap.get false (t.ruled q).awaiting (a % 1024) = false ∧ t.nibs = s.nibs ∧ t.recovery = s.recovery)) ∧
    (16 * (s.now : Int) ≤ 384 * (((s.ruled q).rxDone + 1 : Nat) : Int) + signed 32 (s.obj 0x6021 q) + 96 →
      exec (.arrivalWindowClose q) s = .next s) ∧
    (384 * (((s.ruled q).rxDone + 1 : Nat) : Int) + signed 32 (s.obj 0x6021 q) + 96 < 16 * (s.now : Int) →
      ∃ t, exec (.arrivalWindowClose q) s = .next t ∧ (t.ruled q).rxDone = (s.ruled q).rxDone + 1 ∧
        t.obj 0x6036 q = (s.obj 0x6036 q + 1) % 2 ^ 64 ∧ (t.quill q).port.missing = (s.quill q).port.missing + 1)

/-- R244, R257, R258: where no link of its route is held by a packet that waits elsewhere, the oldest packet of a nib to a quill's landing buffer is written there unless a
word of it is still FULL in a region that departs; of the nibs only the counts of progress change. A pen-lift block of an UP quill that names a coming line is announced and
relayed once on the other UP quills of the codex, and one that names a line that has begun is counted at 0x8052. -/
def Obligations.QuillTrafficArrives : Prop :=
  (∀ (q : QuillId) (src : NibId) (s : State) (k : Packet) (rest : List Packet) (off : Nat) (bs : List Byte) (fr : List Nat),
    takePacket src (.quill q) s.mesh = some (k, rest) → k.body = .quill off bs fr →
    (s.heldBack src (.quill q) = true → exec (.quillPacketArrival q src) s = .next s) ∧
    (s.heldBack src (.quill q) = false → s.recovery.ended = false → (s.ruled q).edge = [] →
      ∃ t, exec (.quillPacketArrival q src) s = .next t ∧ t.mesh = rest ∧ t.desk = s.desk ∧ t.recovery = s.recovery ∧
        (∀ n, t.nib n = { s.nib n with progress := (t.nib n).progress, progressAt := (t.nib n).progressAt }) ∧
        ((s.ruled q).waits (s.regions q) off bs.length = false →
          t.ruled q = (s.ruled q).put (s.regions q) off bs k.gen k.epoch (s.physNib k.src) fr) ∧
        ((s.ruled q).waits (s.regions q) off bs.length = true → t.ruled q = { s.ruled q with edge := [k] }))) ∧
  (∀ (q : QuillId) (b : BitVec 64) (s : State) (ahead : Int), (s.quill q).link = .up →
    ahead = signed 16 (field b.toNat 63 48 + 2 ^ 16 - s.line % 2 ^ 16) →
    (ahead ≤ 0 → exec (.penliftBlockReceive q b) s = .next (s.bump 0x8052 0 1)) ∧
    (0 < ahead → ∀ a : Announced, a = ⟨s.line + ahead.toNat, field b.toNat 47 36, field b.toNat 35 22, field b.toNat 21 20⟩ →
      ((∃ x ∈ s.lines.announced, x.line = a.line ∧ x.tag = a.tag) → exec (.penliftBlockReceive q b) s = .next s) ∧
      ((∀ x ∈ s.lines.announced, ¬(x.line = a.line ∧ x.tag = a.tag)) → ∃ t, exec (.penliftBlockReceive q b) s = .next t ∧
        t.lines.announced = s.lines.announced ++ [a] ∧ (t.quill q).penlifts = (s.quill q).penlifts ∧ t.nibs = s.nibs ∧
        ∀ k, k < 16 → k ≠ q.val → (t.quill k).penlifts = (s.quill k).penlifts ++
          (if (s.quill k).link = .up ∧ s.inCodex k = true then [⟨State.penliftBlock a, s.now⟩] else []))))

/-! ### Link control -/

/-- R267–R272, R276–R278, R283, R284: a quill that is neither down nor training sends one control field a stroke, and with it the stroke's PAM4 levels on the four lanes: its
ruled frame with the fill, the control field and the margin slot, as scrambled and coded; a field that fails is counted at 0x604B; a link frame in
order is accepted, one that fails is refused with NAKF, counted once an episode at 0x6045; ASEQ advances after 8 accepted frames or 96 ns; a
replay sends every unacknowledged frame again in order. -/
def Obligations.LinkControl : Prop :=
  ∀ (q : QuillId) (s : State),
    ((s.quill q).port.ctlSent < (s.now - 21) / 24 → (s.quill q).link ≠ .down → (s.quill q).link ≠ .training →
      ∃ t, exec (.controlFieldSend q) s = .next t ∧ (t.quill q).port.ctlSent = (s.now - 21) / 24 ∧
        (t.quill q).port.farewell = (s.quill q).port.farewell - 1 ∧ (t.quill q).port.ctlOut.length = 80 ∧
        (t.quill q).port.slotOut.length = 576 ∧
        (t.quill q).port.lanesOut = laneLevels (strokeWords ((s.now - 21) / 24)
          (strokeBytes ((s.ruled q).frameOf ((s.now - 21) / 24)) (t.quill q).port.ctlOut (t.quill q).port.slotOut)) ∧
        (∀ f fs, (s.quill q).link = .up → (s.quill q).port.replay = f :: fs →
          (t.quill q).port.slotOut = padTo 576 f.flits ∧ (t.quill q).port.replay = fs ∧
            t.obj 0x6044 q = (s.obj 0x6044 q + 1) % 2 ^ 64 ∧ t.obj 0x604C q = (s.obj 0x604C q + f.fcnt) % 2 ^ 64)) ∧
    ((s.quill q).port.ctlSent = (s.now - 21) / 24 → exec (.controlFieldSend q) s = .next s) ∧
    (∀ (ctl : List Byte) (fec : FecReport), (s.quill q).link = .up →
      (fec.lost 12 = false → fec.lost 13 = false → controlOk ctl = true → ∃ t, exec (.controlFieldReceive q ctl fec) s = .next t ∧
        (t.quill q).port.missing = 0 ∧ (t.quill q).port.unacked = (if bit (natBE (ctl.take 40)) 306 then
          (s.quill q).port.unacked.filter fun f => !acked (field (natBE (ctl.take 40)) 305 294) f.fseq
          else (s.quill q).port.unacked)) ∧
      (fec.lost 12 = true ∨ fec.lost 13 = true ∨ controlOk ctl = false → ∃ t, exec (.controlFieldReceive q ctl fec) s = .next t ∧
        t.obj 0x604B q = (s.obj 0x604B q + 1) % 2 ^ 64 ∧ (t.quill q).port.missing = (s.quill q).port.missing + 1)) ∧
    (∀ (ctl slot : List Byte) (fec : FecReport) (b : Nat), (s.quill q).link = .up → b = natBE (ctl.take 40) →
      ((fec.lost 12 = true ∨ fec.lost 13 = true ∨ controlOk ctl = false ∨
          (bit b 319 = true ∧ (fec.lost 14 = true ∨ 18 < field b 274 270 ∨ field b 63 32 ≠ crc32 (slice slot 0 (32 * field b 274 270))))) →
        (s.quill q).port.nakf = false → ∃ t, exec (.linkFrameReceive q ctl slot fec) s = .next t ∧
        (t.quill q).port.nakf = true ∧ t.obj 0x6045 q = (s.obj 0x6045 q + 1) % 2 ^ 64) ∧
      (fec.lost 12 = false → fec.lost 13 = false → fec.lost 14 = false →
        controlOk ctl = true → bit b 319 = true → field b 274 270 ≤ 18 → field b 63 32 = crc32 (slice slot 0 (32 * field b 274 270)) →
        field b 318 307 = (s.quill q).port.expected → ∃ t, exec (.linkFrameReceive q ctl slot fec) s = .next t ∧
          (t.quill q).port.expected = ((s.quill q).port.expected + 1) % 4096 ∧ (t.quill q).port.nakf = false ∧
          (t.quill q).port.fresh = (s.quill q).port.fresh + 1 ∧ t.nibs = s.nibs)) ∧
    (8 ≤ (s.quill q).port.fresh ∨ (s.quill q).port.fresh ≠ 0 ∧ (s.quill q).port.oldest + 96 ≤ s.now →
      exec (.aseqAdvance q) s = .next (s.updPort q fun p => { p with aseq := (p.expected + 4095) % 4096, fresh := 0 })) ∧
    ((s.quill q).port.replayDue s.stroke = true → (s.quill q).port.unacked ≠ [] →
      exec (.linkReplay q) s = .next (s.updPort q fun p => { p with replay := p.unacked, nakRose := false }))

/-- R281, R282, R301, R311, R314, R377: a quill whose condition for going down holds goes DOWN and drops what it held; training takes it to CHECK; the fourth identical IDENT
that matches the cable plan and whose own check passed brings it UP, or closes it at once where a disable is pending; an IDENT that fails says why at 0x6052; one that is not
intact changes nothing; a CHECK of 25 ms fails the OPENING. -/
def Obligations.QuillStates : Prop :=
  ∀ (q : QuillId) (s : State),
    (∀ cause, (s.quill q).link ≠ .down → s.downHolds q cause = true → ∃ t, exec (.quillDown q cause) s = .next t ∧
      t.obj 0x6046 q = (s.obj 0x6046 q + 1) % 2 ^ 64 ∧ (t.quill q).port.unacked = [] ∧ (t.quill q).port.rxBuf = [] ∧
      ((s.quill q).fn.code = .on → (s.obj 0x6041 q = 1 ∧ s.obj 0x4902 0 = 1 →
          (t.quill q).link = .training ∧ (t.quill q).fn.code = .opening) ∧
        (s.obj 0x4902 0 = 0 → (t.quill q).link = .down ∧ (t.quill q).fn.code = .off)) ∧
      ((s.quill q).fn.code = .closing → (s.quill q).fn.pending = true →
        (t.quill q).link = .training ∧ (t.quill q).fn.code = .opening) ∧
      ((∀ e ∈ s.margin.requests, ∀ r, e.2 = some r → r.hop = some q.val → r.parked.isSome = true) → t.nibs = s.nibs)) ∧
    (∀ cause, (s.quill q).link = .down ∨ s.downHolds q cause = false → exec (.quillDown q cause) s = .next s) ∧
    ((s.quill q).link = .training → s.time.refOk = true → ∃ t, exec (.quillTrainingComplete q) s = .next t ∧
      (t.quill q).link = .check ∧ (t.quill q).check.since = s.now ∧ t.obj 0x6052 q = 0 ∧ t.nibs = s.nibs) ∧
    (∀ (ctl slot : List Byte) (r : Nat), r = natBE (slot.take 64) →
      (identOk ctl slot = false ∨ (s.quill q).link ≠ .check → exec (.identReceive q ctl slot) s = .next s) ∧
      (identOk ctl slot = true → (s.quill q).link = .check → ∃ t, exec (.identReceive q ctl slot) s = .next t ∧
        t.obj 0x6052 q = s.checkIdent q r ∧ t.obj 0x6054 q = field r 448 385 ∧
        t.obj 0x6053 q = field r 511 498 * 16 + field r 497 494 ∧
        (s.checkIdent q r = 1 → (s.quill q).check.ident = some r → 3 ≤ (s.quill q).check.same → bit r 449 = true →
          ((s.quill q).fn.pending = false → (t.quill q).link = .up ∧ (t.quill q).fn.code = .on) ∧
          ((s.quill q).fn.pending = true → (t.quill q).link = .closing ∧ (t.quill q).fn.code = .closing)) ∧
        (s.checkIdent q r ≠ 1 ∨ (s.quill q).check.ident ≠ some r ∨ (s.quill q).check.same < 3 ∨ bit r 449 = false →
          (t.quill q).link = .check))) ∧
    ((s.quill q).link = .check → (s.quill q).check.since + 25000000 ≤ s.now → (s.quill q).fn.code = .opening → s.obj 0x4902 0 = 0 →
      ∃ t, exec (.checkTimeout q) s = .next t ∧ (t.quill q).link = .down ∧ (t.quill q).fn.code = .off ∧ (t.quill q).fn.failed = true)


/-! ### Margin traffic -/

/-- R285, R286: a margin packet whose route goes on leaves, with that hop taken off its route, on the quill its direction and TXID select once that quill has
credits for it; where no quill of the direction is UP it is discarded and counted at 0x8069. -/
def Obligations.MarginPacketsForward : Prop :=
  ∀ (q : QuillId) (vc : VcId) (s : State) (p : List Byte) (dir : Nat) (dx dy : Int), s.headAt (.quill q vc) = some p →
    nextHop (mDx (packetHdr p)) (mDy (packetHdr p)) = some (dir, dx, dy) →
    (s.hopQuill dir (mTxid (packetHdr p)) = none →
      exec (.marginPacketForward q vc) s = .next ((s.popAt (.quill q vc)).bump 0x8069 0 1)) ∧
    (∀ k out, s.hopQuill dir (mTxid (packetHdr p)) = some k →
      out = s.outVc k (2 ≤ vc.val) (vc.val % 2 = 1) (quillDir s.margin.profile q.val % 2 = 0 && dir % 2 = 1) →
      (s.creditsLeft k out < p.length / 32 → exec (.marginPacketForward q vc) s = .next s) ∧
      (p.length / 32 ≤ s.creditsLeft k out →
        exec (.marginPacketForward q vc) s = .next ((s.popAt (.quill q vc)).queuePacket k out (reroute p dx dy))))

/-- R288, R292, R296, R298, R299: of the requests for this module the one that reached it first is executed once and answered: a READ with the bytes it names, a WRITE after its
bytes are stored; a request of another job is answered with status 6; one whose HCRC fails is discarded and counted at 0x8064; a duplicate of a request that is
not idempotent is answered as recorded, counted at 0x8067, and not executed again. A later one waits. -/
def Obligations.MarginRequestsExecute : Prop :=
  ∀ (m : MarginAt) (s : State) (p : List Byte) (h : Nat), s.headAt m = some p → h = packetHdr p →
    nextHop (mDx h) (mDy h) = none → mType h = 0 →
    (s.firstAt m = false → exec (.marginRequestExecute m) s = .next s) ∧
    (s.firstAt m = true →
      (hcrcOk p = false → exec (.marginRequestExecute m) s = .next ((s.popRequest m).bump 0x8064 0 1)) ∧
      (hcrcOk p = true → mOp h ≤ 4 → mDst h = s.chip → crcOk p = true →
        (s.jobOk h = false → s.responseFits (s.responseTo h 6 []) = true →
          exec (.marginRequestExecute m) s = .next ((s.popRequest m).respond (s.responseTo h 6 []))) ∧
        (s.jobOk h = true → ∀ e, mIdemp h = false → s.filterEntry h = some e → s.responseFits (s.responseTo h e.status e.result) = true →
          exec (.marginRequestExecute m) s = .next (((s.bump 0x8067 0 1).popRequest m).respond (s.responseTo h e.status e.result))) ∧
        (s.jobOk h = true → mIdemp h = true → s.margin.lost = [] → ∀ n a, (s.nib n).ecc = [] →
          s.responseFits (s.responseTo h 0 (List.replicate (mPayload (setField (setField h 511 508 1) 503 496 0)) 0)) = true →
          (mOp h = 0 → mNotify h = false → s.target (mAddr h) (mLen h) false = (s, .nib n a) →
            exec (.marginRequestExecute m) s = .next (((s.forgetRecall h).popRequest m).respond
              (s.responseTo h 0 ((s.nib n).mem.readBytes a (mLen h))))) ∧
          (mOp h = 1 → mNotify h = false → s.target (mAddr h) (packetData p).length true = (s, .nib n a) →
            ∃ t, exec (.marginRequestExecute m) s = .next t ∧ (t.nib n).mem = (s.nib n).mem.writeBytes a (packetData p) ∧
              (∀ k, k ≠ n → t.nib k = s.nib k) ∧ t.desk = s.desk))))

/-- R295, R297, R298, R301: a response completes its outstanding request: its data is written at RADDR of RNIB and the request leaves the store; one that no
request awaits is discarded and counted at 0x8066. A request whose timer runs out is parked when it is idempotent and was re-sent fewer than three
times; parked for the park limit it completes; a filter entry is kept for 1 ms and a used ID for 2 ms. -/
def Obligations.MarginRequestsComplete : Prop :=
  (∀ (m : MarginAt) (s : State) (p : List Byte) (h : Nat), s.headAt m = some p → h = packetHdr p →
    nextHop (mDx h) (mDy h) = none → mType h = 1 → hcrcOk p = true →
    (SMap.get none s.margin.requests (mTxid h) = none →
      exec (.marginResponseReceive m) s = .next ((s.popAt m).bump 0x8066 0 1)) ∧
    (∀ r, SMap.get none s.margin.requests (mTxid h) = some r → r.parked = none → crcOk p = true → mStatus h = 0 → r.who = .send →
      (s.nib (mRnib r.hdr)).ecc = [] → ∃ t, exec (.marginResponseReceive m) s = .next t ∧
        SMap.get none t.margin.requests (mTxid h) = none ∧ SMap.get none t.margin.ended (mTxid h) = some s.now ∧
        (t.nib (mRnib r.hdr)).mem = (s.nib (mRnib r.hdr)).mem.writeBytes (mRaddr r.hdr) (packetData p) ∧ t.desk = s.desk)) ∧
  (∀ (txid : BitVec 16) (s : State) (r : Request), SMap.get none s.margin.requests txid.toNat = some r →
    (r.parked = none → s.now < r.sentAt + s.obj 0x4900 0 * 1000 → exec (.requestTimeout txid) s = .next s) ∧
    (r.parked = none → r.sentAt + s.obj 0x4900 0 * 1000 ≤ s.now → mIdemp r.hdr = true → mRetry r.hdr < 3 →
      exec (.requestTimeout txid) s =
        .next ((s.bump 0x8062 0 1).setRequest txid.toNat (some { r with parked := some s.now }))) ∧
    (r.parked = none → r.sentAt + s.obj 0x4900 0 * 1000 ≤ s.now → mIdemp r.hdr = false →
      ∃ t, exec (.requestTimeout txid) s = .next t ∧ SMap.get none t.margin.requests txid.toNat = none) ∧
    (∀ t0, r.parked = some t0 → t0 + s.obj 0x4901 0 * 1000 ≤ s.now → ∃ t, exec (.parkLimitExpiry txid) s = .next t ∧
      SMap.get none t.margin.requests txid.toNat = none ∧ SMap.get none t.margin.ended txid.toNat = some s.now)) ∧
  (∀ s : State, exec .filterEntryExpiry s =
    .next { s with margin := { s.margin with filter := s.margin.filter.filter fun e => s.now < e.time + 1000000 } }) ∧
  (∀ (txid : BitVec 16) (s : State) (t0 : Nat), SMap.get none s.margin.ended txid.toNat = some t0 →
    (t0 + 2000000 ≤ s.now → ∃ t, exec (.transactionIdRelease txid) s = .next t ∧ t.margin.requests = s.margin.requests ∧
      SMap.get none t.margin.ended txid.toNat = none) ∧
    (s.now < t0 + 2000000 → exec (.transactionIdRelease txid) s = .next s))

/-- R325, R326: the mirror engine sends the next piece of its nib's oldest commit that has one left, as it stands in the well; when every piece of the
oldest commit of a context has been acknowledged it sends the mark, the new committed length. -/
def Obligations.MirrorSends : Prop :=
  ∀ (n : NibId) (s : State) (r : CommitRecord) (rs : List CommitRecord) (c : Context), s.mirrorRoom = true → (s.nib n).mirror.queue = r :: rs →
    c = (s.nib n).ctx r.ctx →
    (r.written < c.pieceCount r → (s.nib n).ecc = [] →
      ∀ e, e = (c.mirrorPieces (r.first + r.written / (ceilDiv c.ek 2048 + ceilDiv c.ev 2048))).getD
          (r.written % (ceilDiv c.ek 2048 + ceilDiv c.ev 2048)) (0, 0) →
      exec (.mirrorWrite n) s = .next ((s.updNib n fun x => { x with mirror := { x.mirror with
        queue := { r with written := r.written + 1 } :: rs } }).sendMirror n r.ctx r.first .mirrorData (n.val * 2 ^ 23 + e.1)
          ((s.nib n).mem.readBytes e.1 e.2))) ∧
    (r.acked = c.pieceCount r → r.written = r.acked →
      exec (.mirrorMark n) s = .next ((s.updNib n fun x => { x with mirror := { x.mirror with
        queue := { r with written := r.written + 1 } :: rs } }).sendMirror n r.ctx r.first .mirrorMark
          (2 ^ 44 + (s.obj 0x2A23 0 + 8 * (64 * n.val + r.ctx)) % 2 ^ 44) (bytesLE 8 (r.first + r.count))))

/-! ### The job binding and the place engine -/

/-- R371, R373, R377: at its instant a scheduled transaction is checked again: if a staged object fails, it is FAILED and nothing takes effect; else it is
APPLIED, and a staged enable takes the binding from OFF to OPENING until the next line boundary; where no packet waits at a nib, the
tags that OPENING sets leave every nib's store, program and run state as they were. -/
def Obligations.StagedApply : Prop :=
  ∀ s : State, (s.agent.staging.st ≠ .scheduled ∨ s.now < s.agent.staging.instant → exec .stageApplyInstant s = .next s) ∧
    (s.agent.staging.st = .scheduled → s.agent.staging.instant ≤ s.now → s.pins.holdAt = none →
      (∀ c, s.checkStaged.2 = c → c ≠ 0 → ∃ t, exec .stageApplyInstant s = .next t ∧ t.agent.staging.st = .failed ∧
        t.agent.staging.firstFail = c ∧ t.binding = s.binding ∧ t.nibs = s.nibs ∧ t.quills = s.quills ∧
        ∀ i u, u < 256 → i ≠ 0x2B01 → t.obj i u = s.obj i u) ∧
      (s.agent.staging.vals = [(objKey 0x2A10 0, [1])] → s.binding.fn.code = .off → s.recovery.held = none →
        s.recovery.retired = none → ∃ t, exec .stageApplyInstant s = .next t ∧ t.agent.staging.st = .applied ∧
        t.agent.staging.lastApply = s.agent.staging.instant ∧ t.obj 0x2A10 0 = 1 ∧ t.binding.fn = { code := .opening } ∧
        t.binding.openLine = some (s.line + 1) ∧
        ((∀ n, (s.nib n).inbox = []) → ∀ n, (t.nib n).mem = (s.nib n).mem ∧ (t.nib n).instrs = (s.nib n).instrs ∧ (t.nib n).issue.run = (s.nib n).issue.run)))

/-- R15, R199, R203, R319, R351, R377, R451: OPENING ends at its line boundary: in ON, with every placed nib of the declared grid issuing and no other
nib's run state changed, or in OFF with FAILED and the code of the check that failed; a drain of HOLD_IN_N closes a binding that is ON, which stops
issue and pre-empts; at the drain deadline a single send in flight stops at the 4 KiB boundary past the bytes that have begun to leave, and only
packets of its own leave the mesh; once everything has come to rest, with no reset of the compute domain or above to come, the records are
written, the transfers and waiting packets leave the nibs, and the binding goes OFF. -/
def Obligations.BindingOpensAndCloses : Prop :=
  ∀ s : State,
    (∀ l, s.binding.fn.code = .opening → s.binding.openLine = some l →
      (s.line < l → exec .openingEnd s = .next s) ∧
      (l ≤ s.line → ∃ t, exec .openingEnd s = .next t ∧ t.obj 0x2B01 0 = s.openingCode ∧
        (s.openingCode ≠ 0 → t.binding.fn = { code := .off, failed := true } ∧ ∀ n, (t.nib n).issue.placed = false) ∧
        (s.openingCode = 0 → s.binding.fn.pending = true → t.binding.fn.code = .closing ∧ t.desk.preempt.status = 1) ∧
        (s.openingCode = 0 → s.binding.fn.pending = false → (∀ e ∈ s.nibs, e.2.issue.resume = false) →
          t.binding.fn = { code := .on } ∧
          ∀ n, (s.inGrid (n / 64) (n % 64) = true → (s.nib n).issue.run = .placed → (t.nib n).issue.run = .running) ∧
            (s.inGrid (n / 64) (n % 64) = false → (t.nib n).issue.run = (s.nib n).issue.run)))) ∧
    (∀ t0, s.pins.holdAt = some t0 → s.binding.fn.code = .on →
      (s.line * 24576 < t0 → exec .holdInNDrain s = .next s) ∧
      (t0 ≤ s.line * 24576 → ∃ t, exec .holdInNDrain s = .next t ∧ t.binding.fn.code = .closing ∧ t.pins.holdAt = none ∧
        t.binding.drainAt = some (s.now + s.obj 0x4625 0 * 1000) ∧ t.desk.preempt.status = 1 ∧ t.desk.mem = s.desk.mem ∧
        ∀ n, (t.nib n).issue.run ≠ .running)) ∧
    (∀ t0, s.desk.preempt.status = 1 → s.desk.preempt.drained = false → s.binding.drainAt = some t0 →
      (s.now < t0 → exec (.drainDeadline []) s = .next s) ∧
      (t0 ≤ s.now → s.liveSends = [] → exec (.drainDeadline []) s =
          .next { s with desk := { s.desk with preempt := { s.desk.preempt with drained := true } } }) ∧
      (t0 ≤ s.now → ∀ (n : NibId) (b sent : Nat) (o : InFlight) (d : PacketDest), (s.nib n).slots = [o] → s.liveSends = [(n.val, o)] →
        sendDest o.word = some d → sent = ceilDiv o.total 1024 - (s.ownPackets n o).length → min o.total (1024 * sent) ≤ b → b ≤ o.total →
        b ≤ 1024 * (sent + s.mayHaveBegun n o) →
          ∃ t st, exec (.drainDeadline [(n, b)]) s = .next t ∧ t.desk.preempt.drained = true ∧
            st = min o.total (4096 * ceilDiv b 4096) ∧ (t.nib n).slots = [{ o with stop := some st, left := o.total - st }] ∧
            t.mesh.filter (fun p => !messageFor n d p) = s.mesh.filter (fun p => !messageFor n d p) ∧
            ∀ k, k ≠ n.val → t.nib k = s.nib k)) ∧
    (s.desk.preempt.status = 1 → s.desk.preempt.drained = true → s.draining = false → s.binding.fn.pending = false →
      (s.resetComing = true → exec .preemptionComplete s = .next s) ∧
      (s.resetComing = false → ∃ t, exec .preemptionComplete s = .next t ∧ t.binding.fn.code = .off ∧
        t.desk.preempt.status = (if s.finishStreams.writeRecords.2 then 3 else 2) ∧
        t.desk.mem = s.finishStreams.writeRecords.1.desk.mem ∧
        ∀ n, (t.nib n).resq = [] ∧ (t.nib n).inbox = [] ∧ (t.nib n).issue.placed = false))

/-- R16, R344–R348: while the binding is OFF the place engine takes its entries, the first here, each by the row of its OP: NOP completes, START
places its nib at its start address, FILL writes zeros, PUT writes desk bytes into a nib and GET a nib's bytes into desk memory. An entry that
breaks R344 or R345, names a nib outside the exposed grid, or cannot be read, ends the list with its cause; a list is complete when every entry
has completed. With the binding not OFF no row of the engine acts. -/
def Obligations.PlaceEntries : Prop :=
  (∀ (s u : State) (bs : List (Byte × Bool)) (c : Nat), s.place.running = true → s.place.next < s.place.count →
    s.place.failed = none → s.place.done = [] → s.binding.fn.code = .off →
    s.placeRead (s.place.base + 32 * s.place.next) 32 = (u, bs, c) →
    (c ≠ 0 → exec .placeNop s = .next (u.placeFault s.place.next c) ∧ exec .placePut s = .next (u.placeFault s.place.next c) ∧
      exec .placeGet s = .next (u.placeFault s.place.next c) ∧ exec .placeFill s = .next (u.placeFault s.place.next c) ∧
      exec .placeStartNib s = .next (u.placeFault s.place.next c)) ∧
    (c = 0 → ∀ e, e = natLE (bs.map Prod.fst) →
      (placeEntryOk e = false ∨ u.placeNibs e = none → exec .placeNop s = .next (u.placeFault s.place.next 6) ∧
        exec .placePut s = .next (u.placeFault s.place.next 6) ∧ exec .placeGet s = .next (u.placeFault s.place.next 6) ∧
        exec .placeFill s = .next (u.placeFault s.place.next 6) ∧ exec .placeStartNib s = .next (u.placeFault s.place.next 6)) ∧
      (placeEntryOk e = true → placeOp e = 0 → u.placeNibs e ≠ none → exec .placeNop s = .next (u.placeDone s.place.next) ∧
        (s.place.count = s.place.next + 1 → exec .placePut s = .next u)) ∧
      (placeEntryOk e = true → bit e 248 = false → field e 245 233 < u.gridRows * 64 →
        ∀ n, n = field e 245 233 →
        (placeOp e = 4 → field e 232 220 < 0x1000 → ∃ t, exec .placeStartNib s = .next t ∧ t.place.next = s.place.next + 1 ∧
          (t.nib n).issue.run = .placed ∧ (t.nib n).issue.placed = true ∧ (t.nib n).issue.addr = field e 232 220 ∧
          (t.nib n).issue.resume = bit e 246 ∧ (t.nib n).mem = (u.nib n).mem ∧ ∀ k, k ≠ n → t.nib k = u.nib k) ∧
        (placeOp e = 3 → placeSpace e = 0 → ∃ t, exec .placeFill s = .next t ∧ t.place.next = s.place.next + 1 ∧
          (t.nib n).mem = (u.nib n).mem.writeBytes (placeOffset e) (List.replicate (placeLength e) 0) ∧
          (t.nib n).issue = (u.nib n).issue ∧ ∀ k, k ≠ n → t.nib k = u.nib k) ∧
        (∀ v ds, placeOp e = 1 → placeSpace e = 0 → u.placeRead (placeDesk e) (placeLength e) = (v, ds, 0) →
          ∃ t, exec .placePut s = .next t ∧ t.place.next = s.place.next + 1 ∧
            (t.nib n).mem = (v.nib n).mem.writeBytes (placeOffset e) (ds.map Prod.fst) ∧ ∀ k, k ≠ n → t.nib k = v.nib k) ∧
        (∀ v ps, placeOp e = 2 → placeSpace e = 0 → (v.nib n).ecc = [] → v.desk.ecc = [] → v.desk.link = [] → v.desk.astray = [] →
          State.placePages (placeLength e / 2 ^ 21 + 2) u (placeDesk e) (placeLength e) true = (v, ps, 0) →
          ∃ t, exec .placeGet s = .next t ∧ t.place.next = s.place.next + 1 ∧ t.nibs = v.nibs ∧
            t.desk.mem = (v.placeStore ps ((v.nib n).mem.readBytes (placeOffset e) (placeLength e))).desk.mem)))) ∧
  (∀ s : State, s.place.running = true → s.place.count ≤ s.place.next → s.binding.fn.code = .off → exec .placeListComplete s =
    .next { s with place := { s.place with running := false, status := 2 } }) ∧
  (∀ s : State, s.binding.fn.code ≠ .off → exec .placePut s = .next s ∧ exec .placeGet s = .next s ∧ exec .placeFill s = .next s ∧
    exec .placeStartNib s = .next s ∧ exec .placeNop s = .next s ∧ exec .placeListComplete s = .next s)

/-! ### The Ledger agent -/

/-- R360, R361, R364–R367, R379: the agent takes the oldest message: a request that names no open session of its source is refused with NO_SESSION; an OPEN of
standard level opens a session; one of expert level whose credential does not hold is refused AUTH, and the nonce it is signed over is used; in a
session a KEEPALIVE handled before is answered again and counted at 0x8093, and a request of a new SEQ is handled: CLOSE ends the session, EVENT_ACK drops
the events it names, READ answers the items and WRITE writes them in order; NONCE issues a nonce. -/
def Obligations.LapRequests : Prop :=
  ∀ (s u : State) (w : LapMsg) (ws : List LapMsg) (id : Nat), s.agent.waiting = w :: ws → id = lapSession w.bytes →
    u = (s.lapPop.updSession id fun x => x.touch id s.now).handled →
    ((s.session id = none ∨ ∃ x, s.session id = some x ∧ x.source ≠ w.source) →
      (lapType w.bytes = 2 → exec .lapClose s = .next (s.lapPop.handled.lapRefuse w.source w.bytes .noSession)) ∧
      (lapType w.bytes = 4 → exec .lapWrite s = .next (s.lapPop.handled.lapRefuse w.source w.bytes .noSession)) ∧
      (lapType w.bytes = 5 → exec .lapKeepalive s = .next (s.lapPop.handled.lapRefuse w.source w.bytes .noSession)) ∧
      (lapType w.bytes = 0x11 → exec .lapEventAck s = .next (s.lapPop.handled.lapRefuse w.source w.bytes .noSession))) ∧
    (∀ x, s.session id = some x → x.source = w.source →
      (∀ seq r, x.kept.find? (fun p => p.1 = lapSeq w.bytes) = some (seq, r) → lapType w.bytes = 5 →
        exec .lapKeepalive s = .next (((s.lapPop.updSession id fun x => x.touch id s.now).lapRespond w.source r).bump 0x8093 0 1)) ∧
      (x.kept.find? (fun p => p.1 = lapSeq w.bytes) = none → (∀ h, x.highSeq = some h → h ≤ lapSeq w.bytes) →
        (lapType w.bytes = 2 → exec .lapClose s = .next ((u.lapRespond w.source (u.lapAnswer w.bytes 0 id 0 [])).closeSession id)) ∧
        (lapType w.bytes = 5 → exec .lapKeepalive s = .next (u.sessionAnswer w 0 0 [])) ∧
        (lapType w.bytes = 0x11 → exec .lapEventAck s = .next ((u.updSession id fun x => { x with
          events := x.events.filter fun e => natLE (lapPayload w.bytes) < e.record.eseq }).sessionAnswer w 0 0 [])) ∧
        (∀ items, lapType w.bytes = 4 → writeItems (lapCount w.bytes) (lapPayload w.bytes) = some items →
          exec .lapWrite s = .next ((u.writeAll id items).1.sessionAnswer w (u.writeAll id items).2.2.code
            items.length (u.writeAll id items).2.1)) ∧
        (∀ items, lapType w.bytes = 3 → id ≠ 0 → items = readItems (lapCount w.bytes) (lapPayload w.bytes) →
          exec .lapRead s = .next (u.sessionAnswer w (u.readAll (some { x with lastUse := s.now }) 4128 items).2.code items.length
            (u.readAll (some { x with lastUse := s.now }) 4128 items).1)))) ∧
    (∀ items, lapType w.bytes = 3 → id = 0 → items = readItems (lapCount w.bytes) (lapPayload w.bytes) →
      exec .lapRead s = .next (s.lapPop.handled.lapRespond w.source (s.lapPop.handled.lapAnswer w.bytes
        (s.lapPop.handled.readAll none 4128 items).2.code 0 items.length (s.lapPop.handled.readAll none 4128 items).1))) ∧
    (lapType w.bytes = 1 → natLE ((lapPayload w.bytes).take 1) = 1 → s.agent.sessions.length < 8 →
      s.credentialOk w.source (lapPayload w.bytes) = false →
      (natLE (slice (lapPayload w.bytes) 1 1) = 0xFF → exec .lapOpen s = .next (s.lapPop.handled.lapRefuse w.source w.bytes .auth)) ∧
      (natLE (slice (lapPayload w.bytes) 1 1) ≠ 0xFF → exec .lapOpen s =
        .next ((s.lapPop.handled.spendNonce w.source (lapPayload w.bytes)).lapRefuse w.source w.bytes .auth))) ∧
    (lapType w.bytes = 1 → natLE ((lapPayload w.bytes).take 1) = 0 →
      (8 ≤ s.agent.sessions.length → exec .lapOpen s = .next (s.lapPop.handled.lapRefuse w.source w.bytes .busy)) ∧
      (s.agent.sessions.length < 8 → ∃ t x, exec .lapOpen s = .next t ∧ t.agent.waiting = ws ∧ t.agent.nonces = s.agent.nonces ∧
        t.agent.sessions = s.agent.sessions ++ [x] ∧ x.expert = false ∧ x.source = w.source ∧ x.lastUse = s.now ∧
        x.evmask = natLE (slice (lapPayload w.bytes) 4 4) ∧ x.highSeq = none ∧ x.kept = [] ∧ x.events = [])) ∧
    (lapType w.bytes = 6 → ∃ t v, exec .lapNonce s = .next t ∧ t.agent.waiting = ws ∧ t.agent.sessions = s.agent.sessions ∧
      t.agent.nonces = s.agent.nonces ++ [⟨w.source, v, s.now⟩] ∧ v.length = 32 ∧ t.obj 0x8091 0 = (s.obj 0x8091 0 + 1) % 2 ^ 64)

/-- R360, R361, R365, R379: an event not acknowledged for 1 ms is repeated, up to 8 times, and then given up, counted at 0x8094; a session idle for the time of
0x1001:05 closes; a segmented write without a segment for 1 s and a nonce older than 1 s are dropped. -/
def Obligations.LedgerTimers : Prop :=
  (∀ (s : State) (x : Session) (e : PendingEvent), s.agent.sessions = [x] → x.events = [e] →
    (s.now < e.last + 1000000 → ∃ t, exec .eventRepeat s = .next t ∧ t.agent.sessions = [x] ∧ t.obj 0x8094 0 = s.obj 0x8094 0) ∧
    (e.last + 1000000 ≤ s.now → e.repeats < 8 → ∃ t, exec .eventRepeat s = .next t ∧ t.obj 0x8094 0 = s.obj 0x8094 0 ∧
      t.agent.sessions = [{ x with events := [{ e with repeats := e.repeats + 1, last := s.now }] }]) ∧
    (e.last + 1000000 ≤ s.now → 8 ≤ e.repeats → ∃ t, exec .eventRepeat s = .next t ∧
      t.agent.sessions = [{ x with events := [] }] ∧ t.obj 0x8094 0 = (s.obj 0x8094 0 + 1) % 2 ^ 64)) ∧
  (∀ (sess : SessionId) (s : State) (x : Session), s.session sess.toNat = some x →
    (s.now < x.lastUse + s.obj 0x1001 5 * 1000000 → exec (.sessionIdleTimeout sess) s = .next s) ∧
    (x.lastUse + s.obj 0x1001 5 * 1000000 ≤ s.now → ∃ t, exec (.sessionIdleTimeout sess) s = .next t ∧
      t.agent.sessions = s.agent.sessions.filter fun y => y.id ≠ sess.toNat) ∧
    (∃ t, exec (.blobAssemblyTimeout sess) s = .next t ∧ t.agent.sessions = s.agent.sessions.map fun y =>
      if y.id = sess.toNat then { y with assembly := y.assembly.filter fun a => s.now < a.time + 1000000000 } else y)) ∧
  (∀ s : State, exec .nonceExpiry s =
    .next { s with agent := { s.agent with nonces := s.agent.nonces.filter fun n => s.now < n.issued + 1000000000 } })

/-! ### Recovery -/

/-- R383–R392, R450, R451: an event of BLOT_IN_N blots a job that is ON with reason PIN, while the compute domain is not in reset, and is counted at 0x80A6
when it is not ON; a BLOT item of the job's tag begins the abort where the job may be blotted, and else is counted at 0x80A3, as is one seen within 1 ms;
a unit of a nib that made no progress over a window blots the job; an abort ends at rest, or after 100 µs, with a blotter record, and the binding is OFF, or
in OPENING where an enable is pending. -/
def Obligations.BlotsAndAborts : Prop :=
  (∀ s : State, (s.pin 0).armed = true → (s.pin 0).stuck = false →
    (s.binding.fn.code = .on → s.computeDown = true → ∃ t, exec .blotInN s = .next t ∧ t.recovery = s.recovery ∧ t.binding = s.binding) ∧
    (s.binding.fn.code = .on → s.recovery.abort = none → s.computeDown = false → ∃ t, exec .blotInN s = .next t ∧
      t.recovery.abort = some ⟨s.now, 8, s.chip, (s.recovery.bseq + 1) % 256⟩ ∧ t.binding.fn.code = .closing ∧ (t.pin 0).armed = false ∧
      t.pins.blotOutUntil = s.pins.blotOutUntil ∧ ∀ n, (t.nib n).issue.run ≠ .running) ∧
    (s.binding.fn.code ≠ .on → ∃ t, exec .blotInN s = .next t ∧ t.obj 0x80A6 0 = (s.obj 0x80A6 0 + 1) % 2 ^ 64 ∧
      t.obj 0x80F2 1 = (s.obj 0x80F2 1 + 1) % 2 ^ 64 ∧ t.binding = s.binding ∧ t.recovery = s.recovery)) ∧
  (∀ (q : QuillId) (item : BitVec 64) (s : State) (k : BlotKey), (s.quill q.val).link = .up →
    k = ⟨field item.toNat 63 52, field item.toNat 51 38, field item.toNat 31 24, s.now⟩ →
    ((∃ j ∈ s.recovery.keys, j.tag = k.tag ∧ j.origin = k.origin ∧ j.bseq = k.bseq ∧ s.now < j.time + 1000000) →
      exec (.blotItemReceive q item) s = .next (s.bump 0x80A3 0 1)) ∧
    (s.recovery.keys = [] → ∃ t, exec (.blotItemReceive q item) s = .next t ∧ t.recovery.keys = [k] ∧
      t.obj 0x80A2 0 = (s.obj 0x80A2 0 + 1) % 2 ^ 64 ∧
      (k.tag = s.jobTag → s.mayBlot = true → t.binding.fn.code = .closing ∧
        t.recovery.abort = some ⟨s.now, field item.toNat 37 32, k.origin, k.bseq⟩) ∧
      (k.tag ≠ s.jobTag ∨ s.mayBlot = false → t.binding = s.binding ∧ t.recovery.abort = s.recovery.abort ∧
        t.obj 0x80A3 0 = (s.obj 0x80A3 0 + 1) % 2 ^ 64))) ∧
  (∀ s : State, exec .blotKeyExpiry s =
    .next { s with recovery := { s.recovery with keys := s.recovery.keys.filter fun k => s.now < k.time + 1000000 } }) ∧
  (∀ (s : State) (b : Nat), b = s.now / (s.obj 0x4C00 0 * 1000) * (s.obj 0x4C00 0 * 1000) →
    (b ≤ s.recovery.lastBoundary → exec .progressCheck s = .next s) ∧
    (s.recovery.lastBoundary < b → s.binding.fn.code ≠ .on → exec .progressCheck s =
      .next { s with recovery := { s.recovery with lastBoundary := b, samples := [] } }) ∧
    (s.recovery.lastBoundary < b → s.binding.fn.code = .on → s.recovery.abort = none → s.computeDown = false → s.obj 0x4C06 0 = 1 → ∀ x ∈ s.checkedNibs,
      SMap.get none s.recovery.samples x.1 = some x.2.count → ∃ t, exec .progressCheck s = .next t ∧
        t.recovery.abort = some ⟨s.now, 7, s.chip, (s.recovery.bseq + 1) % 256⟩ ∧ t.recovery.lastBoundary = b ∧
        t.binding.fn.code = .closing)) ∧
  (∀ (s : State) (a : Abort), s.recovery.abort = some a →
    (s.atRest = false → s.now < a.time + 100000 → exec .abortEnd s = .next s) ∧
    (s.atRest = true ∨ a.time + 100000 ≤ s.now → s.binding.fn.pending = true → s.blotWritable s.blotBase = true →
      (∀ n, (s.nib n).inbox = []) → ∃ t, exec .abortEnd s = .next t ∧ t.recovery.abort = none ∧ t.binding.fn.code = .opening) ∧
    (s.atRest = true ∨ a.time + 100000 ≤ s.now → s.binding.fn.pending = false → s.blotWritable s.blotBase = true →
      ∃ t, exec .abortEnd s = .next t ∧
      t.recovery.abort = none ∧ t.recovery.lastAbort = some a ∧ t.binding.fn.code = .off ∧ t.binding.fn.failed = s.binding.fn.failed ∧
      ∃ j, t.recovery.record = some j ∧ j.trigger = 0 ∧ j.reason = a.reason ∧ j.time = a.time))

/-- R393–R397, R400, R402, R403: a record that is complete names the newest slot; a step that completes resets its domain: a nib reset clears the nib's scalar state,
its engines and queues and keeps its store, a compute-domain reset leaves every store zero, a part reset waits until no quill has strokes of its GOING_DOWN
left; an engine reset whose timer runs out escalates to a nib reset, and a compute-domain reset to COMPUTE_HELD unless 0x4C02:00 is 0; a compute domain
held for the limit of 0x4C02:00 asks for a part reset, after its record; the service time is saved every second. -/
def Obligations.ResetsFollow : Prop :=
  (∀ (s : State) (j : BlotterJob), s.recovery.record = some j → s.recovery.wanted = [] → ∃ t, exec .blotterRecordComplete s = .next t ∧
    t.recovery.record = none ∧ t.recovery.recordDone = some s.now ∧ t.recovery.newestSeq = j.seq ∧ t.recovery.newestSlot = j.slot ∧
    t.recovery.savedMs = s.serviceTime ∧ t.nibs = s.nibs) ∧
  (∀ (s : State) (k : ResetStep), s.recovery.steps = [k] → s.recovery.wanted = [] →
    (∀ n, k.step = 2 → s.virtNib k.nib = some n → (s.nib n).slots = [] → ∃ t, exec .resetStepComplete s = .next t ∧
      t.recovery.steps = [] ∧ (t.nib n).queues = [] ∧ (t.nib n).counters = [] ∧ (t.nib n).resq = [] ∧ (t.nib n).inbox = [] ∧
      (t.nib n).tags = {} ∧ (t.nib n).issue.loops = [] ∧ (t.nib n).issue.run = (s.nib n).issue.run ∧
      (t.nib n).issue.faultRec = (s.nib n).issue.faultRec ∧ (t.nib n).mem = (s.nib n).mem ∧ ∀ m, m ≠ n → t.nib m = s.nib m) ∧
    (k.step = 3 → ∃ t, exec .resetStepComplete s = .next t ∧ t.recovery.steps = [] ∧ t.mesh = [] ∧ t.binding.doorbell = none ∧
      (∀ n, (t.nib n).mem = [] ∧ (t.nib n).instrs = [] ∧ (t.nib n).ctxs = [] ∧ (t.nib n).slots = [] ∧ (t.nib n).resq = []) ∧
      (∀ q, q < 16 → (t.quire q).running = true) ∧ t.desk.mem = s.desk.mem) ∧
    (s.now < k.start + stepTimer k.step → s.boot.phase = .running → exec .resetEscalation s = .next s) ∧
    (k.start + stepTimer k.step ≤ s.now → s.recovery.abort = none → s.recovery.record = none → s.recovery.retired = none → k.step = 1 →
      ∃ t, exec .resetEscalation s = .next t ∧ t.recovery.steps = [⟨2, k.nib, 0, 2, s.now⟩] ∧ t.recovery.wanted = [] ∧
        t.obj 0x80A5 2 = (s.obj 0x80A5 2 + 1) % 2 ^ 64) ∧
    (k.start + stepTimer k.step ≤ s.now → k.step = 3 → s.obj 0x4C02 0 ≠ 0 → ∃ t, exec .resetEscalation s = .next t ∧
      t.recovery.held = some s.now ∧ t.recovery.steps = [] ∧ ∀ q, q < 16 → (t.quire q).running = false) ∧
    (k.step = 4 → (∀ q, q < 16 → (s.quill q).link = .closing → (s.quill q).port.farewell = 0) →
      exec .resetStepComplete s = .next s.resetPart) ∧
    (k.step = 4 → (∃ q, q < 16 ∧ (s.quill q).link = .closing ∧ (s.quill q).port.farewell ≠ 0) →
      exec .resetStepComplete s = .next s)) ∧
  (∀ (s : State) (t0 : Nat), s.recovery.held = some t0 → s.recovery.wanted = [] →
    (s.now < t0 + s.obj 0x4C02 0 * 1000000 → exec .computeHeldLimit s = .next s) ∧
    (t0 + s.obj 0x4C02 0 * 1000000 ≤ s.now → s.recovery.abort = none → s.recovery.record = none → s.recovery.retired = none →
      s.recentRecord = false → s.blotWritable s.blotBase = true → ∃ t, exec .computeHeldLimit s = .next t ∧
        t.recovery.wanted = [⟨4, 0xFFFF, 0, 2, s.now⟩] ∧ ∃ j, t.recovery.record = some j ∧ j.trigger = 2 ∧ j.reason = 2)) ∧
  (∀ s : State, s.inPartReset = false → s.recovery.savedMs + 1000 ≤ s.serviceTime → ∃ t, exec .serviceTimeSave s = .next t ∧
    t.recovery.savedMs = s.serviceTime ∧ t.nibs = s.nibs ∧ t.objs = s.objs)

/-! ### The Tamyx Link -/

/-- R412–R417, R420–R425: the oldest request of a tag is served, and its slots go back to the companion: one that maps nowhere is answered NOMAP, a Prompt Window
read is answered ahead of all else, a cached read of the control region or of a page without COH is refused with NOCACHE, any other read or write of a window
is translated and enters those in progress; WB, CLN and BIRSP end the companion's hold on their line, whose way goes to the request that evicts it if one does,
and data they bring is written; WB and CLN of a line that is I are answered STALE, and outside both regions NOMAP; a request that waits for nothing takes place
and is answered, one whose set is full or whose line is held asks for it. -/
def Obligations.TxlRequests : Prop :=
  (∀ (tag : BitVec 12) (s u : State) (m : TxlMsg) (rest : List TxlMsg), u = { s with txl := { s.txl with rx := rest }.freed m } →
    (takeTxl [1] tag.toNat s.txl.rx = some (m, rest) →
      (s.decodeTxl m.addr = .nomap → exec (.rdu tag) s = .next (u.cmp m 1).txlReturn) ∧
      (∀ off, s.decodeTxl m.addr = .control off → off < 256 → exec (.rdu tag) s =
        .next (u.txlSayFirst (txlMsg 0x21 m.tag m.addr (rspArg 0 false 0) (s.desk.prompt.readBytes off 64))).txlReturn) ∧
      (∀ w va v pa coh, s.decodeTxl m.addr = .window w va → winRight w 1 = true → u.translateFor va .forWindow = (v, .ok pa coh) →
        exec (.rdu tag) s =
          .next ({ v with txl := { v.txl with reqs := v.txl.reqs ++ [{ msg := m, pa := pa, coh := coh }] } } : State).txlReturn)) ∧
    (takeTxl [2] tag.toNat s.txl.rx = some (m, rest) →
      (∀ off, s.decodeTxl m.addr = .control off → exec (.rds tag) s = .next (u.cmp m 3).txlReturn) ∧
      (∀ w va v pa, s.decodeTxl m.addr = .window w va → winRight w 2 = true → u.translateFor va .forWindow = (v, .ok pa false) →
        exec (.rds tag) s = .next (v.cmp m 3).txlReturn) ∧
      (∀ w va v pa, s.decodeTxl m.addr = .window w va → winRight w 2 = true → u.translateFor va .forWindow = (v, .ok pa true) →
        v.setFull (pa / 64) = false → exec (.rds tag) s =
          .next ({ v with txl := { v.txl with reqs := v.txl.reqs ++ [{ msg := m, pa := pa, coh := true }] } } : State).txlReturn)) ∧
    (takeTxl [3] tag.toNat s.txl.rx = some (m, rest) →
      (s.decodeTxl m.addr = .nomap → exec (.rdx tag) s = .next (u.cmp m 1).txlReturn) ∧
      (∀ w va, s.decodeTxl m.addr = .window w va → winRight w 3 = false → exec (.rdx tag) s = .next (u.cmp m 2).txlReturn) ∧
      (∀ w va v pa, s.decodeTxl m.addr = .window w va → winRight w 3 = true → u.translateFor va .forWindow = (v, .ok pa true) →
        v.setFull (pa / 64) = false → exec (.rdx tag) s =
          .next ({ v with txl := { v.txl with reqs := v.txl.reqs ++ [{ msg := m, pa := pa, coh := true }] } } : State).txlReturn)) ∧
    (takeTxl [4] tag.toNat s.txl.rx = some (m, rest) →
      (s.decodeTxl m.addr = .nomap → exec (.wr tag) s = .next (u.cmp m 1).txlReturn) ∧
      (∀ off, s.decodeTxl m.addr = .control off → off < 256 → s.linesHeld (s.obj 0x2E01 0 + off) 64 true = false →
        exec (.wr tag) s = .next (u.promptWrite m off).txlReturn) ∧
      (s.decodeTxl m.addr = .control 0x7000 → m.arg.testBit 0 = true →
        exec (.wr tag) s = .next ((u.mbctrlWrite (natLE (m.data.take 1))).cmp m 0).txlReturn) ∧
      (∀ w va v pa, s.decodeTxl m.addr = .window w va → winRight w 4 = true → u.translateFor va .forWindow = (v, .ok pa false) →
        exec (.wr tag) s =
          .next ({ v with txl := { v.txl with reqs := v.txl.reqs ++ [{ msg := m, pa := pa, coh := false }] } } : State).txlReturn)) ∧
    (takeTxl [5] tag.toNat s.txl.rx = some (m, rest) →
      (s.decodeTxl m.addr = .nomap → exec (.wb tag) s = .next (u.cmp m 1).txlReturn) ∧
      (∀ w va v pa coh, s.decodeTxl m.addr = .window w va → u.translateFor va .forWindow = (v, .ok pa coh) →
        v.lineOf m.addr (.ok pa coh) = none → exec (.wb tag) s = .next ((v.bump 0x80E3 0 1).cmp m 5).txlReturn) ∧
      (∀ w va v tr d, s.decodeTxl m.addr = .window w va → u.translateFor va .forWindow = (v, tr) → v.lineOf m.addr tr = some d →
        ∃ t, exec (.wb tag) s = .next t ∧ t.nibs = v.nibs ∧ t.desk.mem = (v.deskPut (64 * d.line) (padTo 64 m.data)).desk.mem ∧
          t.desk.directory = (v.giveWay d.line).desk.directory ∧
          ((∀ b ∈ v.txl.binvs, b.line = d.line → b.evictFor = none) →
            t.desk.directory = v.desk.directory.filter fun e => e.line ≠ d.line))) ∧
    (takeTxl [6] tag.toNat s.txl.rx = some (m, rest) →
      (s.decodeTxl m.addr = .nomap → exec (.cln tag) s = .next (u.cmp m 1).txlReturn) ∧
      (∀ w va v pa coh, s.decodeTxl m.addr = .window w va → u.translateFor va .forWindow = (v, .ok pa coh) →
        v.lineOf m.addr (.ok pa coh) = none → exec (.cln tag) s = .next ((v.bump 0x80E3 0 1).cmp m 5).txlReturn) ∧
      (∀ w va v tr d, s.decodeTxl m.addr = .window w va → u.translateFor va .forWindow = (v, tr) → v.lineOf m.addr tr = some d →
        ∃ t, exec (.cln tag) s = .next t ∧ t.desk.mem = v.desk.mem ∧ t.desk.directory = (v.giveWay d.line).desk.directory ∧
          ((∀ b ∈ v.txl.binvs, b.line = d.line → b.evictFor = none) →
            t.desk.directory = v.desk.directory.filter fun e => e.line ≠ d.line))) ∧
    (takeTxl [7, 8] tag.toNat s.txl.rx = some (m, rest) → ∀ b d, s.txl.binvs.find? (fun b => b.tag = m.tag) = some b → b.done = false →
      s.dirEntry b.line = some d → ∃ t, exec (.birsp tag) s = .next t ∧ (t.txl.binvs = s.txl.binvs.filter fun x => x ≠ b) ∧
        t.desk.directory = (s.giveWay b.line).desk.directory ∧
        ((∀ x ∈ s.txl.binvs, x.line = b.line → x.evictFor = none) →
          t.desk.directory = s.desk.directory.filter fun e => e.line ≠ b.line) ∧
        t.desk.mem = (if m.data.isEmpty then s else s.deskPut (64 * b.line) (padTo 64 m.data)).desk.mem)) ∧
  (∀ (tag : BitVec 12) (s u : State) (q : TxlReq), s.txl.reqs.find? (fun q => q.msg.tag = tag.toNat) = some q → s.desk.ecc = [] →
    s.desk.link = [] → s.desk.astray = [] → u = { s with txl := { s.txl with reqs := s.txl.reqs.erase q } } →
    (q.msg.opc = 1 → exec (.txlRequestCompletion tag) s = .next (u.cmpd q.msg 0 (s.deskBytes q.pa 64))) ∧
    (q.msg.opc = 2 → s.setFull (q.pa / 64) = false → s.dirEntry (q.pa / 64) = none → ∃ t, exec (.txlRequestCompletion tag) s = .next t ∧
      t.desk.directory = s.desk.directory ++ [⟨q.pa / 64, .shared, q.msg.addr⟩] ∧ t.desk.mem = s.desk.mem) ∧
    (q.msg.opc = 3 → s.setFull (q.pa / 64) = false → s.dirEntry (q.pa / 64) = none → ∃ t, exec (.txlRequestCompletion tag) s = .next t ∧
      t.desk.directory = s.desk.directory ++ [⟨q.pa / 64, .exclusive, q.msg.addr⟩] ∧ t.desk.mem = s.desk.mem) ∧
    (q.msg.opc = 2 ∨ q.msg.opc = 3 → s.setFull (q.pa / 64) = true →
      exec (.txlRequestCompletion tag) s = .next (s.evictWay (q.pa / 64) tag.toNat)) ∧
    (q.msg.opc = 4 → q.coh = true → s.linesHeld q.pa 64 true = true →
      exec (.txlRequestCompletion tag) s = .next (s.claimLines q.pa 64 true)) ∧
    (∀ w va, q.msg.opc = 4 → q.coh = false → s.decodeTxl q.msg.addr = .window w va → ∃ t, exec (.txlRequestCompletion tag) s = .next t ∧
      t.desk.mem = (s.deskPut q.pa (mergeLine q.msg.arg 0 (s.deskBytes q.pa 64) (padTo 64 q.msg.data))).desk.mem))

/-- R407–R411, R418, R425: bytes that FEC corrects are counted at 0x80E0; a flit that FEC, CRC or FTYPE rejects, or that is out of order, sets NAK, which goes out in
a CONTROL flit as it rises, and is counted at 0x80E1; the PROTOCOL flit expected is taken; an acknowledgement advances after 16 flits or 32 ns and goes out in a
CONTROL flit; NAK sends what is unacknowledged again, each flit with its original contents, counted at 0x80E2; a flit unacknowledged for 10 µs, a BINV
unanswered for its limit or the loss of the link takes it down, clearing the directory; it comes UP with enough credits; the mailbox hands its request to
the agent and its buffers free to what waits. -/
def Obligations.TxlLink : Prop :=
  (∀ (b : List Byte) (s : State), s.txl.link = .up →
    ((readFlit b).corrected ≠ 0 → ∃ t, exec (.txlFlitReceive b) s = .next t ∧
      t.obj 0x80E0 0 = (s.obj 0x80E0 0 + (readFlit b).corrected) % 2 ^ 64) ∧
    ((readFlit b).good = none ∨
        (∃ f, (readFlit b).good = some f ∧ field f.hdr 31 30 = 1 ∧ field f.hdr 29 20 ≠ s.txl.expect) →
      ∃ t, exec (.txlFlitReceive b) s = .next t ∧ t.txl.nak = true ∧ t.txl.expect = s.txl.expect ∧ t.txl.rx = s.txl.rx ∧
        t.obj 0x80E1 0 = (s.obj 0x80E1 0 + 1) % 2 ^ 64 ∧
        (s.txl.nak = false → ⟨{ s.txl with nak := true }.header 2 0 s.txl.creditReturn, []⟩ ∈ t.txl.wire)) ∧
    (∀ f, (readFlit b).good = some f → field f.hdr 31 30 = 1 → field f.hdr 29 20 = s.txl.expect →
      ∃ t, exec (.txlFlitReceive b) s = .next t ∧
        t.txl.expect = (s.txl.expect + 1) % 1024 ∧ t.txl.nak = false ∧ t.txl.fresh = s.txl.fresh + 1 ∧
        t.txl.rx = s.txl.rx ++ (flitMsgs 15 15 (padTo 240 f.slots)).1 ∧ t.nibs = s.nibs ∧ t.desk = s.desk) ∧
    (∀ f, (readFlit b).good = some f → field f.hdr 31 30 ≠ 1 → ∃ t, exec (.txlFlitReceive b) s = .next t ∧ t.txl.rx = s.txl.rx ∧
      t.txl.expect = s.txl.expect ∧ t.txl.nakLevel = bit f.hdr 8)) ∧
  (∀ s : State,
    ((16 ≤ s.txl.fresh ∨ s.txl.fresh ≠ 0 ∧ s.txl.freshAt + 32 ≤ s.now) → exec .txlAckAdvance s =
      .next { s with txl := { s.txl with aseq := some ((s.txl.expect + 1023) % 1024), fresh := 0 }.control.pair }) ∧
    (s.txl.nakSeen = true → s.txl.kept ≠ [] → exec .txlReplay s =
      .next (({ s with txl := { s.txl with nakSeen := false, wire := s.txl.wire ++ s.txl.kept.map TxlKept.flit }.pair } : State).bump
        0x80E2 0 s.txl.kept.length)) ∧
    (s.txl.nakSeen = false → exec .txlReplay s = .next s) ∧
    (s.txl.link = .down → exec .txlLinkDown s = .next s) ∧
    (∀ c, (c = Instr.txlLinkDown ∧ s.txl.link = .up) ∨ (c = Instr.txlFlitTimeout ∧ ∃ k ∈ s.txl.kept, k.sent + 10000 ≤ s.now) ∨
        (c = Instr.binvTimeout ∧ ∃ b ∈ s.txl.binvs, b.done = false ∧ b.sent + s.obj 0x4E00 0 ≤ s.now) →
      ∃ t, exec c s = .next t ∧ t.txl.link = .down ∧ t.desk.directory = [] ∧ t.txl.kept = [] ∧ t.txl.binvs = [] ∧
        t.obj 0x80E5 0 = (s.obj 0x80E5 0 + 1) % 2 ^ 64 ∧ t.desk.mem = s.desk.mem ∧ t.txl.rspBuf = s.txl.rspBuf) ∧
    (∀ r d q, s.txl.link ≠ .up → s.boot.phase = .running →
      (r < 64 ∨ d < 256 → exec (.txlLinkUp r d q) s = .next { s with txl := { s.txl with link := .credits } }) ∧
      (64 ≤ r → 256 ≤ d → ∃ t, exec (.txlLinkUp r d q) s = .next t ∧ t.txl.link = .up ∧ t.txl.rspCr = r ∧ t.txl.dataCr = d ∧
        t.txl.reqCr = q ∧ t.txl.expect = 0 ∧ t.txl.kept = [])) ∧
    (s.txl.link = .up → s.boot.phase = .running → exec .mailboxSubmit s =
      .next (({ s with txl := { s.txl with req := false } } : State).lapArrive .mailbox (s.txl.reqBuf.readBytes 0 mailboxSize))) ∧
    (s.txl.link = .up → s.txl.rspWait = [] → exec .mailboxRspClear s = .next { s with txl := { s.txl with rsp := false } }) ∧
    (∀ m ms, s.txl.link = .up → s.txl.rspWait = m :: ms → exec .mailboxRspClear s = .next { s with txl := { s.txl with
      rsp := true, rspWait := ms, rspBuf := Memory.writeBytes [] 0 (padTo mailboxSize m) } }) ∧
    (s.txl.link = .up → s.txl.evtWait = [] → exec .mailboxEvtClear s = .next { s with txl := { s.txl with evt := false } }) ∧
    (∀ m ms, s.txl.link = .up → s.txl.evtWait = m :: ms → exec .mailboxEvtClear s = .next { s with txl := { s.txl with
      evt := true, evtWait := ms, evtBuf := Memory.writeBytes [] 0 (padTo mailboxSize m) } }))

/-! ### The management port and SMBus -/

/-- R426–R429, R440, R453, R455: while stage two runs each frame is counted at 0x80F0, ARP for the module's address is answered, LAP to its address and port, whole, reaches
the agent, PTP of the version of 0x4702:00 reaches the clock, and a tagged frame, LAP to another address or port or in a fragment, or PTP of the other
version is dropped, counted at 0x80F1; every SMBus and PMBus read with PEC is answered from the module's readings, one without PEC is refused, and a
command that the port does not support is refused. -/
def Obligations.ManagementPorts : Prop :=
  (∀ s : State, s.boot.phase = .running →
    exec (.mgmtFrameReceive .tagged) s = .next ((s.bump 0x80F0 0 1).bump 0x80F1 0 1) ∧
    (∀ ip, ip = s.blob 0x1001 2 4 → exec (.mgmtFrameReceive (.arp ip)) s = .next ((s.bump 0x80F0 0 1).mgmtSend (.arp ip))) ∧
    (∀ ip, ip ≠ s.blob 0x1001 2 4 → exec (.mgmtFrameReceive (.arp ip)) s = .next (s.bump 0x80F0 0 1)) ∧
    (∀ ip sp dst m, s.ownAddress dst = true → exec (.mgmtFrameReceive (.lap (.udp ip sp) dst (s.obj 0x1001 1) false m)) s =
      .next ((s.bump 0x80F0 0 1).lapArrive (.udp ip sp) m)) ∧
    (∀ src dst port frag m, s.ownAddress dst = false ∨ port ≠ s.obj 0x1001 1 ∨ frag = true →
      exec (.mgmtFrameReceive (.lap src dst port frag m)) s = .next ((s.bump 0x80F0 0 1).bump 0x80F1 0 1)) ∧
    (∀ p : PtpFrame, (p.ipv6 = true ↔ s.obj 0x4702 0 = 1) → exec (.mgmtFrameReceive (.ptp p)) s =
      .next ((s.bump 0x80F0 0 1).takePtp p)) ∧
    (∀ p : PtpFrame, ¬(p.ipv6 = true ↔ s.obj 0x4702 0 = 1) → exec (.mgmtFrameReceive (.ptp p)) s =
      .next ((s.bump 0x80F0 0 1).bump 0x80F1 0 1)) ∧
    (∀ f, exec (.mgmtAutonegotiation f) s = .next (s.setObj 0x2F02 0 (if s.obj 0x2F01 0 = 1 && f then 1 else 0)))) ∧
  (∀ (s : State) (sensors : List Int) (a b c : Int), s.boot.phase = .running →
    ∀ p ∈ [(Instr.gradeAndStepping true, bytesLE 1 s.fuses.grade ++ bytesLE 1 s.fuses.stepping),
      (Instr.recoveryState true, bytesLE 2 (unsigned 16 (s.recoveryState : Nat))),
      (Instr.dieTemperature true sensors, bytesLE 2 (unsigned 16 (sensors.foldl max (sensors.headD 0)))),
      (Instr.coolantInletTemperature true a, bytesLE 2 (unsigned 16 a)),
      (Instr.environmentFlags true a b c, bytesLE 2 (unsigned 16 (environment a b c : Nat))),
      (Instr.serialNumber true, 8 :: bytesLE 8 s.fuses.serial),
      (Instr.readVin true a, busWord (linear11 a 1000)), (Instr.readIin true a, busWord (linear11 a 1000)),
      (Instr.readPout true a, busWord (linear11 a 1000)), (Instr.readTemperature1 true a, busWord (linear11 a 8)),
      (Instr.readTemperature2 true a, busWord (linear11 a 8)),
      (Instr.statusWord true, bytesLE 2 (unsigned 16 (Machine.statusWord s.smbus.status : Nat))),
      (Instr.statusInput true, bytesLE 1 (Machine.statusInput s.smbus.status)),
      (Instr.statusTemperature true, bytesLE 1 (Machine.statusTemperature s.smbus.status))],
    exec p.1 s = .next (s.busReply (some p.2))) ∧
  (∀ (s : State) (c : Nat), s.boot.phase = .failed c →
    exec (.recoveryState true) s = .next (s.busReply (some (bytesLE 2 (unsigned 16 (0x80 + c : Nat)))))) ∧
  (∀ s : State, s.boot.phase = .running → (∃ t b, exec (.macAndIpv4Address true) s = .next t ∧
      t.smbus.reply = some (16 :: (padTo 6 s.fuses.mac ++ s.blob 0x1001 2 4 ++ b)) ∧ b.length = 6 ∧ t.nibs = s.nibs) ∧
    exec (.clearFaults true) s = .next { s with smbus := { reply := some [], status := 0 } }) ∧
  (∀ (s : State) (sensors : List Int) (a b c : Int), ∀ i ∈ [Instr.gradeAndStepping false, .recoveryState false, .dieTemperature false sensors,
    .coolantInletTemperature false a, .environmentFlags false a b c, .serialNumber false, .readVin false a, .readIin false a,
    .readPout false a, .readTemperature1 false a, .readTemperature2 false a, .statusWord false, .statusInput false,
    .statusTemperature false, .clearFaults false], exec i s = .next (s.busReply none)) ∧
  (∀ (s : State) (code : Byte), exec (.pmbusUnsupportedCommand code) s = .next (s.busReply none))

/-! ### Boot, power, pins and test ports -/

/-- R431, R434–R441: power comes up with the module held in reset; the boot sequence takes the slot that R437 chooses and measures it, trains every enabled quill and leaves
desk memory's devices out of self refresh, or fails with the code of the image rejected; a firmware command ends with its effect and 2 at 0x2D21, or a failure code and none. -/
def Obligations.BootAndFirmware : Prop :=
  (∀ s : State, (s.boot.phase = .off → ∃ t, exec .powerUp s = .next t ∧ t.boot.phase = .held ∧ t.pins.pwrGood = true ∧
      t.pins.tripped = false ∧ (t.pin 3).level = true ∧ t.fuses = s.fuses ∧ t.flash = s.flash) ∧
    (s.boot.phase = .held → (s.pin 3).level = false → s.tap.instr = .idcode → ∃ t, exec .powerUp s = .next t ∧ t.boot.phase = .booting ∧
      t.boot.started = s.now ∧ t.pins.pwrGood = true)) ∧
  (∀ s : State, (s.boot.phase ≠ .booting → exec .bootSequence s = .next s) ∧
    (s.boot.phase = .booting → ∀ fl k code, chooseSlot s.fuses s.flash = (fl, some k, code) → ∃ t, exec .bootSequence s = .next t ∧
      t.boot.phase = .running ∧ t.boot.slot = k ∧ t.boot.rejected = code ∧ t.boot.fwver = natLE (slice ((fl.image k).readBytes 0 8192) 8 4) ∧
      t.flash = { fl with boots := fl.boots + 1 } ∧ t.fuses = s.fuses ∧ t.desk.eccOn = (s.obj 0x2620 0 = 1) ∧
      t.desk.selfRefresh = false ∧ (∀ q, q < 16 → s.obj 0x6041 q = 1 → (t.quill q).link = .training ∧ (t.quill q).fn.code = .opening) ∧
      t.margin.profile = s.obj 0x2900 0 ∧ t.meas 1 = padTo 32 (sha3 (s.meas 1 ++ slice ((fl.image k).readBytes 0 8192) 0x40 32))) ∧
    (s.boot.phase = .booting → ∀ fl code, chooseSlot s.fuses s.flash = (fl, none, code) → ∃ t, exec .bootSequence s = .next t ∧
      t.boot.phase = .failed code ∧ t.flash = fl ∧ t.nibs = s.nibs)) ∧
  (∀ (s : State) (ok : Bool), (s.boot.job = none → exec (.firmwareCommandComplete ok) s = .next s) ∧
    (∀ arg, s.boot.job = some (1, arg) → ∃ t, exec (.firmwareCommandComplete ok) s = .next t ∧ t.boot.job = none ∧
      t.obj 0x2D21 0 = (if ok then 2 else 0x16) ∧ t.flash = if ok then s.flash.confirm s.boot.slot else s.flash) ∧
    (∀ arg, s.boot.job = some (2, arg) → ∃ t, exec (.firmwareCommandComplete ok) s = .next t ∧ t.obj 0x2D21 0 = 2 ∧
      t.fuses = { s.fuses with floor := max s.fuses.floor s.boot.svn } ∧ t.flash = s.flash) ∧
    (∀ arg, s.boot.job = some (4, arg) → ∃ t, exec (.firmwareCommandComplete ok) s = .next t ∧ t.obj 0x2D21 0 = 2 ∧ arg ∈ t.fuses.revoked ∧
      t.fuses.floor = s.fuses.floor) ∧
    (∀ arg c, s.boot.job = some (3, arg) → c = imageCode s.fuses s.newImage (s.obj 0x4D01 0) → ∃ t,
      exec (.firmwareCommandComplete ok) s = .next t ∧ t.boot.job = none ∧ (c ≠ 0 → t.obj 0x2D21 0 = c ∧ t.flash = s.flash) ∧
      (c = 0 → ok = true → t.obj 0x2D21 0 = 2 ∧ t.flash = s.flash.install s.boot.slot s.newImage (s.obj 0x4D01 0)) ∧
      (c = 0 → ok = false → t.obj 0x2D21 0 = 0x16 ∧ t.flash.slotA = s.flash.slotA ∧ t.flash.slotB = s.flash.slotB)))

/-- R231, R449–R451, R453: an event of HOLD_IN_N makes a drain due after 10 µs where 0x4F11:00 asks for it; one of PPS_IN gives time an edge, 200 ns before
it leaves the filter, and one that follows in under 0.5 s is counted at 0x80F4; one of MOD_RST_N, or an input under-voltage, is a part reset in which the
module is held, after 16 strokes of GOING_DOWN on every quill that is UP; an over-voltage or an
over-temperature shuts the rails down; a release of MOD_RST_N starts the boot sequence; an input is armed again after its level is deasserted, and one
asserted for 1 s is stuck. -/
def Obligations.PinsAndPower : Prop :=
  (∀ s : State, (s.pin 1).armed = true → (s.pin 1).stuck = false → ∃ t, exec .holdInN s = .next t ∧ (t.pin 1).armed = false ∧
    t.obj 0x80F2 2 = (s.obj 0x80F2 2 + 1) % 2 ^ 64 ∧ t.binding = s.binding ∧
    t.pins.holdAt = if s.obj 0x4F11 0 = 1 ∧ s.binding.fn.code = .on then some (s.now + 10000) else s.pins.holdAt) ∧
  (∀ (s : State) (edge : Nat), (s.pin 2).armed = true → (s.pin 2).stuck = false → ∃ t, exec (.ppsIn edge) s = .next t ∧ (t.pin 2).armed = false ∧
    (∀ e, s.pins.lastPps = some e → edge < e + 500000000 → t.obj 0x80F4 0 = (s.obj 0x80F4 0 + 1) % 2 ^ 64 ∧ t.time = s.time) ∧
    (s.pins.lastPps = none → t.obj 0x8043 0 = unsigned 64 ((edge : Int) - 200) ∧ t.pins.lastPps = some edge ∧ t.time.ptp.edge = some edge ∧ t.time.ptp.edgeSeen = s.real ∧
      t.time.ptp.fallen = false ∧ t.obj 0x80F4 0 = s.obj 0x80F4 0)) ∧
  (∀ s : State, s.boot.phase ≠ .off →
    (∀ c q, (c = Instr.modRstNAssert ∧ (s.pin 3).armed = true ∧ (s.pin 3).stuck = false) ∨ c = .inputUndervoltage → s.time.refOk = true →
      q < 16 → (s.quill q).link = .up → ∃ t, exec c s = .next t ∧ (t.quill q).link = .closing ∧ (t.quill q).port.farewell = 16 ∧
        t.boot = s.boot ∧ ∃ k ∈ t.recovery.steps, k.step = 4) ∧
    (∀ c, (c = Instr.modRstNAssert ∧ (s.pin 3).armed = true ∧ (s.pin 3).stuck = false) ∨ c = .inputUndervoltage →
      (s.time.refOk = false ∨ ∀ q, q < 16 → (s.quill q).link ≠ .up) → ∃ t, exec c s = .next t ∧
      t.boot.phase = .held ∧ t.nibs = [] ∧ t.mesh = [] ∧ t.binding = {} ∧ t.agent = {} ∧ t.fuses = s.fuses ∧ t.pending = s.pending ∧
      t.time.st = 4 ∧ (∀ k, k < 16 → (t.quill k).link = .down) ∧ (c = .inputUndervoltage → t.pins.pwrGood = false ∧ bit t.smbus.status 0 = true))) ∧
  (∀ s : State, (s.boot.phase = .held → s.pins.pwrGood = true → s.tap.instr = .idcode → ∃ t, exec .modRstNRelease s = .next t ∧
      t.boot.phase = .booting ∧ t.boot.started = s.now ∧ (t.pin 3).level = false) ∧
    (s.boot.phase = .running → ∃ t, exec .modRstNRelease s = .next t ∧ t.boot = s.boot ∧ (t.pin 3).level = false ∧ t.nibs = s.nibs) ∧
    (∃ t, exec .inputOvervoltage s = .next t ∧ t.boot.phase = .off ∧ t.desk.mem = [] ∧ t.nibs = [] ∧ t.fuses = s.fuses ∧
      bit t.smbus.status 1 = true ∧ t.pins.tripped = s.pins.tripped) ∧
    (∃ t, exec .powerStageOvertemperature s = .next t ∧ t.boot.phase = .off ∧ t.desk.mem = [] ∧ t.nibs = [] ∧ t.fuses = s.fuses ∧
      bit t.smbus.status 2 = true ∧ t.pins.tripped = true)) ∧
  (∀ (p : PinId) (s : State), (p ≠ 3 → ∃ t, exec (.sidebandRearm p) s = .next t ∧ (t.pin p).level = false ∧
      (t.pin p).armed = !(s.pin p).stuck ∧ (t.pin p).stuck = (s.pin p).stuck ∧ t.objs = s.objs) ∧
    (p ≠ 3 → (s.pin p).level = true → (s.pin p).stuck = false → (s.pin p).since + 1000000000 < s.now → ∃ t,
      exec (.sidebandStuck p) s = .next t ∧ (t.pin p).stuck = true ∧ (t.pin p).armed = false ∧
      t.obj 0x80F3 (p + 1) = (s.obj 0x80F3 (p + 1) + 1) % 2 ^ 64) ∧
    (s.now ≤ (s.pin p).since + 1000000000 → exec (.sidebandStuck p) s = .next s))

/-- R463–R465: a checker locks after 64 symbols that follow its pattern, of SSPRQ by a free choice, since the spec does not give its symbols; locked, it counts bit errors and drops lock at 64 in 1,024 symbols; the TAP takes each
instruction, those that drive pins only while MOD_RST_N is asserted with PWR_GOOD high, BYPASS else. -/
def Obligations.TestPorts : Prop :=
  (∀ (q : QuillId) (lane : Fin 4) (syms : List (BitVec 2)) (s : State), s.checking q lane = true → 64 ≤ syms.length →
    (SMap.get ({} : LaneTest) (s.quill q).lanes lane).locked = false →
    (field (s.obj 0x6060 q) 6 4 = 6 → ∃ t, exec (.checkerLock q lane syms) s = .next t ∧ t.fresh = s.fresh + 1 ∧
      (t = s.took ∨ (SMap.get ({} : LaneTest) (t.quill q).lanes lane).locked = true)) ∧
    (field (s.obj 0x6060 q) 6 4 ≠ 6 → followsPattern (patternTaps (field (s.obj 0x6060 q) 6 4)) (syms.flatMap grayBits) = false →
      exec (.checkerLock q lane syms) s = .next s) ∧
    (field (s.obj 0x6060 q) 6 4 ≠ 6 → followsPattern (patternTaps (field (s.obj 0x6060 q) 6 4)) (syms.flatMap grayBits) = true → ∃ t,
      exec (.checkerLock q lane syms) s = .next t ∧ (SMap.get ({} : LaneTest) (t.quill q).lanes lane).locked = true ∧
      t.obj 0x6066 q = setField (s.obj 0x6066 q) lane lane 1)) ∧
  (∀ (q : QuillId) (lane : Fin 4) (n : Nat) (s : State), s.checking q lane = true →
    (SMap.get ({} : LaneTest) (s.quill q).lanes lane).locked = true →
    (n < 64 → exec (.checkerLockLoss q lane n) s = .next (s.bump (0x6061 + lane) q n)) ∧
    (64 ≤ n → ∃ t, exec (.checkerLockLoss q lane n) s = .next t ∧ (SMap.get ({} : LaneTest) (t.quill q).lanes lane).locked = false ∧
      t.obj (0x6061 + lane) q = (s.obj (0x6061 + lane) q + n) % 2 ^ 64)) ∧
  (∀ (s : State) (pins pre : List Bool) (code : Byte),
    (∃ t, exec .jtagBypass s = .next t ∧ t.tap.instr = .bypass ∧ t.nibs = s.nibs) ∧
    (∃ t, exec .jtagIdcode s = .next t ∧ t.tap.instr = .idcode ∧
      t.tap.data = bitsLE 32 ((s.fuses.stepping % 16) * 2 ^ 28 + 0xB1F0 * 2 ^ 12 + 0x2D3 * 2 + 1)) ∧
    (∃ t, exec (.jtagSamplePreload pins pre) s = .next t ∧ t.tap.instr = .samplePreload ∧ t.tap.data = pins ∧ t.tap.boundary = pre) ∧
    (∃ t, exec (.jtagManufacturing code) s = .next t ∧ t.tap.instr = .bypass) ∧
    (∃ t, exec .jtagTapReset s = .next t ∧ t.tap = {}) ∧
    (∀ p ∈ [(Instr.jtagExtest, JtagInstr.extest), (.jtagExtestPulse, .extestPulse), (.jtagExtestTrain, .extestTrain),
        (.jtagClamp, .clamp), (.jtagHighz, .highz)], ∃ t, exec p.1 s = .next t ∧ t.nibs = s.nibs ∧
      t.tap.instr = if (s.pin 3).level ∧ s.pins.pwrGood then p.2 else .bypass))

/-! ### Commands that are a session's write of one object -/

/-- R355, R357–R360, R371 and the rules of each object: a write that the object's existence, right, level or length bars does nothing but answer with that status; one
that is not barred has its object's effect, and its status is kept; a move of the blotter region takes effect with status FLASH where the flash write
fails (a free value, log entry 19); a step request first reports its stretched cycles. Of a link-test word of another mode the row is ill-formed. -/
def Obligations.SessionWrites : Prop :=
  (∀ (sess : SessionId) (q : QuillId) (entry : BitVec 6) (nib : BitVec 14) (base : BitVec 64) (key pin : Byte) (t0 t1 t2 : BitVec 32)
    (v32 : List Byte) (s : State), nib.toNat < 8448 → key.toNat ≤ 3 → 1 ≤ pin.toNat → pin.toNat ≤ 4 → v32.length = 32 →
    testWordOk t0.toNat = true → field t0.toNat 1 0 = 0 → testWordOk t1.toNat = true → field t1.toNat 1 0 = 1 →
    testWordOk t2.toNat = true → field t2.toNat 1 0 = 2 → ∀ p ∈ ([
      (.stageOpen sess, 0x9000, 1, 1, s.stageCommand sess.toNat 1), (.stageCheck sess, 0x9000, 1, 1, s.stageCommand sess.toNat 2),
      (.stageApply sess, 0x9000, 1, 1, s.stageCommand sess.toNat 3), (.stageCancel sess, 0x9000, 1, 1, s.stageCommand sess.toNat 4),
      (.stageDiscard sess, 0x9000, 1, 1, s.stageCommand sess.toNat 5),
      (.resumeTransfer sess entry, 0x4622, 0, 1, s.writeResolve (64 + entry.toNat)),
      (.abortTransfer sess entry, 0x4622, 0, 1, s.writeResolve (128 + entry.toNat)),
      (.translationFlush sess, 0x4623, 0, 1, (s.startFlush, .ok)),
      (.quillEnable sess q, 0x6041, q.val, 1, (s.writeEnable q 1, .ok)),
      (.quillDisable sess q, 0x6041, q.val, 1, (s.writeEnable q 0, .ok)),
      (.placeStart sess, 0x2B12, 0, 1, orState s s.placeBegin),
      (.faultRecordClear sess, 0x2B15, 0, 1, if s.binding.fn.code = .off then (s.clearFaults, .ok) else (s, .state)),
      (.hostBlot sess, 0x4C04, 0, 1, (s.blot 9, .ok)),
      (.nibResetRequest sess nib, 0x4C03, 0, 4, orState s (s.requestReset 2 nib.toNat)),
      (.computeResetRequest sess, 0x4C03, 0, 4, orState s (s.requestReset 3 0)),
      (.partResetRequest sess, 0x4C03, 0, 4, orState s (s.requestReset 4 0)),
      (.retirementClear sess, 0x4C05, 0, 1, ({ s with recovery := { s.recovery with clearAsked := true } }, .ok)),
      (.blotterRegionMove sess base, 0x4C01, 0, 8,
        ((s.took.notePersist (objKey 0x4C01 0) s.flashTakes).moveBlotter base.toNat, if s.flashTakes then .ok else .flash)),
      (.fwConfirm sess, 0x2D20, 0, 2, s.writeFirmware 0x100), (.fwRaiseFloor sess, 0x2D20, 0, 2, s.writeFirmware 0x200),
      (.fwInstall sess, 0x2D20, 0, 2, s.writeFirmware 0x300), (.fwRevoke sess key, 0x2D20, 0, 2, s.writeFirmware (0x400 + key.toNat)),
      (.meas2Extend sess v32, 0x2D04, 0, 32, (s.extend 2 v32, .ok)),
      (.quoteRequest sess v32, 0x2D10, 0, 32, (s.keepQuote sess.toNat v32, .ok)),
      (.restoreDefaults sess, 0x1001, 0x20, 1, ({ s with boot := { s.boot with restore := true } }, .ok)),
      (.sidebandRearmWrite sess pin, 0x4F10, 0, 1, (s.unstick pin.toNat, .ok)),
      (.linkTestOff sess q t0, 0x6060, q.val, 4, s.writeTest q t0.toNat), (.linkTestLane sess q t1, 0x6060, q.val, 4, s.writeTest q t1.toNat),
      (.linkTestFramed sess q t2, 0x6060, q.val, 4, s.writeTest q t2.toNat),
      (.ledgerRegisterWrite sess 0x2D04 0 v32, 0x2D04, 0, 32, (s.extend 2 v32, .ok))] : List (Instr × Nat × Nat × Nat × State × LapStatus)),
    (s.writeBar sess.toNat p.2.1 p.2.2.1 p.2.2.2.1 = .ok → exec p.1 s = .next (State.commit sess p.2.2.2.2)) ∧
    (s.writeBar sess.toNat p.2.1 p.2.2.1 p.2.2.2.1 ≠ .ok →
      exec p.1 s = .next (State.commit sess (s, s.writeBar sess.toNat p.2.1 p.2.2.1 p.2.2.2.1)))) ∧
  (∀ (sess : SessionId) (cycles : List (QuireId × Nat)) (s : State),
    ((s.countCycles cycles).writeBar sess.toNat 0x4705 0 1 = .ok →
      exec (.stepRequest ⟨sess, cycles⟩) s = .next (State.commit sess (s.countCycles cycles).requestStep)) ∧
    ((s.countCycles cycles).writeBar sess.toNat 0x4705 0 1 ≠ .ok → exec (.stepRequest ⟨sess, cycles⟩) s =
      .next (State.commit sess (s.countCycles cycles, (s.countCycles cycles).writeBar sess.toNat 0x4705 0 1)))) ∧
  (∀ (sess : SessionId) (q : QuillId) (t : BitVec 32) (s : State),
    (field t.toNat 1 0 ≠ 0 → exec (.linkTestOff sess q t) s = .fault .illFormed) ∧
    (field t.toNat 1 0 ≠ 1 → exec (.linkTestLane sess q t) s = .fault .illFormed) ∧
    (field t.toNat 1 0 ≠ 2 → exec (.linkTestFramed sess q t) s = .fault .illFormed))

/-- R187, R197, R282, R348, R371, R387, R439, R441: what such writes do when they are not barred: a transaction is opened for its session; a HELD entry is
resumed from its chunk; a flush empties the translation cache; a quill that is OFF trains; the place engine starts on its list; a running job is
blotted with reason HOST; a firmware command starts; MEAS2 is extended. -/
def Obligations.SessionWriteEffects : Prop :=
  ∀ (sess : SessionId) (s : State),
    (s.writeBar sess.toNat 0x9000 1 1 = .ok → s.agent.staging.st = .idle → ∃ t, exec (.stageOpen sess) s = .next t ∧
      t.agent.staging = { s.agent.staging with st := .open_, owner := sess.toNat, vals := [], firstFail := 0 } ∧ t.agent.lastStatus = .ok) ∧
    (∀ (e : BitVec 6) (x : FaultEntry) (i : Nat) (u : Transfer), s.writeBar sess.toNat 0x4622 0 1 = .ok → SMap.get none s.desk.entries e.toNat = some x →
      x.st = 1 → s.entryTransfer e.toNat x = some i → ((s.nib x.virt).resQueue x.rq)[i]? = some u →
      ∃ t, exec (.resumeTransfer sess e) s = .next t ∧ SMap.get none t.desk.entries e.toNat = some { x with st := 2 } ∧
        ((t.nib x.virt).resQueue x.rq)[i]? = some { u with
          st := .active, next := x.chunk, done := u.done.filter fun c => c < x.chunk, flight := u.flight.filter fun c => c.idx < x.chunk }) ∧
    (s.writeBar sess.toNat 0x4623 0 1 = .ok → ∃ t, exec (.translationFlush sess) s = .next t ∧ t.desk.tlb = [] ∧
      t.desk.flushing = some (s.desk.tlbGen + 1) ∧ t.desk.mem = s.desk.mem) ∧
    (∀ q : QuillId, s.writeBar sess.toNat 0x6041 q 1 = .ok → (s.quill q).fn.code = .off → ∃ t, exec (.quillEnable sess q) s = .next t ∧
      (t.quill q).link = .training ∧ (t.quill q).fn = { code := .opening } ∧ t.obj 0x6041 q = 1) ∧
    (s.writeBar sess.toNat 0x2B12 0 1 = .ok →
      (s.binding.fn.code = .off → s.place.running = false → ∃ t, exec (.placeStart sess) s = .next t ∧ t.place =
        { running := true, next := 0, base := s.obj 0x2B10 0, count := s.obj 0x2B11 0, status := 1, fault := s.place.fault }) ∧
      (s.binding.fn.code ≠ .off → ∃ t, exec (.placeStart sess) s = .next t ∧ t.place = s.place ∧ t.agent.lastStatus = .state)) ∧
    (s.writeBar sess.toNat 0x4C04 0 1 = .ok → s.mayBlot = true → ∃ t, exec (.hostBlot sess) s = .next t ∧ t.binding.fn.code = .closing ∧
      t.recovery.abort = some ⟨s.now, 9, s.chip, (s.recovery.bseq + 1) % 256⟩) ∧
    (∀ k : Byte, k.toNat ≤ 3 → s.writeBar sess.toNat 0x2D20 0 2 = .ok →
      (s.fwRefused 4 k.toNat = false → ∃ t, exec (.fwRevoke sess k) s = .next t ∧ t.boot.job = some (4, k.toNat) ∧ t.obj 0x2D21 0 = 1) ∧
      (s.fwRefused 4 k.toNat = true → ∃ t, exec (.fwRevoke sess k) s = .next t ∧ t.boot = s.boot ∧ t.fuses = s.fuses ∧
        t.agent.lastStatus = .state)) ∧
    (∀ v, v.length = 32 → s.writeBar sess.toNat 0x2D04 0 32 = .ok → ∃ t, exec (.meas2Extend sess v) s = .next t ∧
      t.meas 2 = padTo 32 (sha3 (s.meas 2 ++ v)) ∧ t.meas 0 = s.meas 0 ∧ t.meas 1 = s.meas 1 ∧ t.meas 3 = s.meas 3 ∧ t.nibs = s.nibs)

/-! ### Reset, and what every step keeps -/

/-- R1, R104, R215, R282, R376, R382, R394: the machine right after reset: no command waits, every nib is as R104 says and is not placed, every quill is down with its
function OFF, the job binding is OFF, ruling time is 0 and FREE, no session is open, memory lists nothing. -/
def Obligations.ResetState : Prop :=
  State.reset.pending = [] ∧ (∀ n, State.reset.nib n = Nib.fresh) ∧ Nib.fresh.issue.run = .notPlaced ∧ Nib.fresh.issue.addr = 0 ∧
    (∀ c, Nib.fresh.ct c = 0) ∧ (∀ q, Nib.fresh.queue q = []) ∧ Nib.fresh.slots = [] ∧ Nib.fresh.tags.gmask = 0xFF ∧ Nib.fresh.tags.emask = 3 ∧
    (∀ q, (State.reset.quill q).link = .down ∧ (State.reset.quill q).fn = {}) ∧ State.reset.binding.fn = {} ∧
    State.reset.time.clock = 0 ∧ State.reset.time.st = 0 ∧ State.reset.agent.sessions = [] ∧ State.reset.agent.staging.st = .idle ∧
    State.reset.memOk ∧ State.reset.keepsFuses State.reset.fuses ∧ State.reset.gridRows = 128 ∧
    (∀ a, State.reset.desk.mem.read a = 0) ∧ State.reset.recovery.abort = none ∧ State.reset.txl.link = .down

/-- R438, R3: no command undoes a fuse: whatever fuse values `f` the state keeps, every step that answers a next state keeps them: grade, stepping, serial number, MAC
address, maps, key hashes and seed stay, the floor never falls, and a revoked key stays revoked. -/
def Obligations.StepKeepsFuses : Prop :=
  ∀ (f : Fuses) (s t : State), s.keepsFuses f → step s = .next t → t.keepsFuses f

end Statements
end

