-- ==== Sys2Proof/Laws/Dispatch.lean ====
section
/-! SUPPORT. Each command's arm of the dispatcher, so that no later proof unfolds the dispatcher. -/

namespace Sys2Proof.Machine

@[simp] theorem exec_nop : ∀ n w s, exec (.nop n w) s = execNop n w s := fun _ _ _ => rfl
@[simp] theorem exec_fence : ∀ n w s, exec (.fence n w) s = execFence n w s := fun _ _ _ => rfl
@[simp] theorem exec_halt : ∀ n w s, exec (.halt n w) s = execHalt n w s := fun _ _ _ => rfl
@[simp] theorem exec_halted : ∀ n s, exec (.halted n) s = execHalted n s := fun _ _ => rfl
@[simp] theorem exec_overlay : ∀ n w s, exec (.overlay n w) s = execOverlay n w s := fun _ _ _ => rfl
@[simp] theorem exec_dload : ∀ n w s, exec (.dload n w) s = execDload n w s := fun _ _ _ => rfl
@[simp] theorem exec_esc : ∀ n w s, exec (.esc n w) s = execEsc n w s := fun _ _ _ => rfl
@[simp] theorem exec_loop : ∀ n w s, exec (.loop n w) s = execLoop n w s := fun _ _ _ => rfl
@[simp] theorem exec_ct : ∀ n w s, exec (.ct n w) s = execCt n w s := fun _ _ _ => rfl
@[simp] theorem exec_cmp : ∀ n w s, exec (.cmp n w) s = execCmp n w s := fun _ _ _ => rfl
@[simp] theorem exec_twait : ∀ n w s, exec (.twait n w) s = execTwait n w s := fun _ _ _ => rfl
@[simp] theorem exec_signal : ∀ n w s, exec (.signal n w) s = execSignal n w s := fun _ _ _ => rfl
@[simp] theorem exec_tbind : ∀ n w s, exec (.tbind n w) s = execTbind n w s := fun _ _ _ => rfl
@[simp] theorem exec_mma : ∀ n w s, exec (.mma n w) s = execMma n w s := fun _ _ _ => rfl
@[simp] theorem exec_mmaComplete : ∀ n s, exec (.mmaComplete n) s = execMmaComplete n s := fun _ _ => rfl
@[simp] theorem exec_vop : ∀ n w s, exec (.vop n w) s = execVop n w s := fun _ _ _ => rfl
@[simp] theorem exec_vopComplete : ∀ n s, exec (.vopComplete n) s = execVopComplete n s := fun _ _ => rfl
@[simp] theorem exec_cvt : ∀ n w s, exec (.cvt n w) s = execCvt n w s := fun _ _ _ => rfl
@[simp] theorem exec_cvtComplete : ∀ n s, exec (.cvtComplete n) s = execCvtComplete n s := fun _ _ => rfl
@[simp] theorem exec_send : ∀ n w s, exec (.send n w) s = execSend n w s := fun _ _ _ => rfl
@[simp] theorem exec_sendComplete : ∀ n s, exec (.sendComplete n) s = execSendComplete n s := fun _ _ => rfl
@[simp] theorem exec_recv : ∀ n w s, exec (.recv n w) s = execRecv n w s := fun _ _ _ => rfl
@[simp] theorem exec_recvComplete : ∀ n s, exec (.recvComplete n) s = execRecvComplete n s := fun _ _ => rfl
@[simp] theorem exec_streamPacketArrival : ∀ n src s, exec (.streamPacketArrival n src) s = execStreamPacketArrival n src s := fun _ _ _ => rfl
@[simp] theorem exec_remoteSignalArrival : ∀ n src s, exec (.remoteSignalArrival n src) s = execRemoteSignalArrival n src s := fun _ _ _ => rfl
@[simp] theorem exec_rbase : ∀ n w s, exec (.rbase n w) s = execRbase n w s := fun _ _ _ => rfl
@[simp] theorem exec_rfetch : ∀ n w s, exec (.rfetch n w) s = execRfetch n w s := fun _ _ _ => rfl
@[simp] theorem exec_rstore : ∀ n w s, exec (.rstore n w) s = execRstore n w s := fun _ _ _ => rfl
@[simp] theorem exec_rwait : ∀ n w s, exec (.rwait n w) s = execRwait n w s := fun _ _ _ => rfl
@[simp] theorem exec_kappend : ∀ n w s, exec (.kappend n w) s = execKappend n w s := fun _ _ _ => rfl
@[simp] theorem exec_kappendComplete : ∀ n s, exec (.kappendComplete n) s = execKappendComplete n s := fun _ _ => rfl
@[simp] theorem exec_kcommit : ∀ n w s, exec (.kcommit n w) s = execKcommit n w s := fun _ _ _ => rfl
@[simp] theorem exec_kerase : ∀ n w s, exec (.kerase n w) s = execKerase n w s := fun _ _ _ => rfl
@[simp] theorem exec_kmask : ∀ n w s, exec (.kmask n w) s = execKmask n w s := fun _ _ _ => rfl
@[simp] theorem exec_kmaskComplete : ∀ n s, exec (.kmaskComplete n) s = execKmaskComplete n s := fun _ _ => rfl
@[simp] theorem exec_ktag : ∀ n w s, exec (.ktag n w) s = execKtag n w s := fun _ _ _ => rfl
@[simp] theorem exec_nibFaulted : ∀ n s, exec (.nibFaulted n) s = execNibFaulted n s := fun _ _ => rfl
@[simp] theorem exec_patrolScrub : ∀ n upsets s, exec (.patrolScrub n upsets) s = execPatrolScrub n upsets s := fun _ _ _ => rfl
@[simp] theorem exec_chunkStart : ∀ n rq s, exec (.chunkStart n rq) s = execChunkStart n rq s := fun _ _ _ => rfl
@[simp] theorem exec_chunkComplete : ∀ n rq chunk ecc s, exec (.chunkComplete n rq chunk ecc) s = execChunkComplete n rq chunk ecc s := fun _ _ _ _ _ => rfl
@[simp] theorem exec_chunkFault : ∀ n rq chunk ecc s, exec (.chunkFault n rq chunk ecc) s = execChunkFault n rq chunk ecc s := fun _ _ _ _ _ => rfl
@[simp] theorem exec_chunkTimeout : ∀ n rq chunk s, exec (.chunkTimeout n rq chunk) s = execChunkTimeout n rq chunk s := fun _ _ _ _ => rfl
@[simp] theorem exec_transferRetire : ∀ n rq s, exec (.transferRetire n rq) s = execTransferRetire n rq s := fun _ _ _ => rfl
@[simp] theorem exec_resumeTransfer : ∀ sess entry s, exec (.resumeTransfer sess entry) s = execResumeTransfer sess entry s := fun _ _ _ => rfl
@[simp] theorem exec_abortTransfer : ∀ sess entry s, exec (.abortTransfer sess entry) s = execAbortTransfer sess entry s := fun _ _ _ => rfl
@[simp] theorem exec_holdLimitExpiry : ∀ entry s, exec (.holdLimitExpiry entry) s = execHoldLimitExpiry entry s := fun _ _ => rfl
@[simp] theorem exec_translationFlush : ∀ sess s, exec (.translationFlush sess) s = execTranslationFlush sess s := fun _ _ => rfl
@[simp] theorem exec_translationFlushComplete : ∀ s, exec (.translationFlushComplete) s = execTranslationFlushComplete s := fun _ => rfl
@[simp] theorem exec_perBankRefresh : ∀ ch found s, exec (.perBankRefresh ch found) s = execPerBankRefresh ch found s := fun _ _ _ => rfl
@[simp] theorem exec_refreshManagement : ∀ ch s, exec (.refreshManagement ch) s = execRefreshManagement ch s := fun _ _ => rfl
@[simp] theorem exec_wck2dqOscillatorRead : ∀ ch overLimit s, exec (.wck2dqOscillatorRead ch overLimit) s = execWck2dqOscillatorRead ch overLimit s := fun _ _ _ => rfl
@[simp] theorem exec_writeLinkEccPoll : ∀ corrections s, exec (.writeLinkEccPoll corrections) s = execWriteLinkEccPoll corrections s := fun _ _ => rfl
@[simp] theorem exec_drainDeadline : ∀ begun s, exec (.drainDeadline begun) s = execDrainDeadline begun s := fun _ _ => rfl
@[simp] theorem exec_preemptionComplete : ∀ s, exec (.preemptionComplete) s = execPreemptionComplete s := fun _ => rfl
@[simp] theorem exec_refLoss : ∀ cause s, exec (.refLoss cause) s = execRefLoss cause s := fun _ _ => rfl
@[simp] theorem exec_refReturn : ∀ s, exec (.refReturn) s = execRefReturn s := fun _ => rfl
@[simp] theorem exec_stretchStart : ∀ k slacks s, exec (.stretchStart k slacks) s = execStretchStart k slacks s := fun _ _ _ => rfl
@[simp] theorem exec_stretchEnd : ∀ k found s, exec (.stretchEnd k found) s = execStretchEnd k found s := fun _ _ _ => rfl
@[simp] theorem exec_stretchOverrun : ∀ k cycles s, exec (.stretchOverrun k cycles) s = execStretchOverrun k cycles s := fun _ _ _ => rfl
@[simp] theorem exec_clockMargin : ∀ k cause s, exec (.clockMargin k cause) s = execClockMargin k cause s := fun _ _ _ => rfl
@[simp] theorem exec_marginLow : ∀ k samples s, exec (.marginLow k samples) s = execMarginLow k samples s := fun _ _ _ => rfl
@[simp] theorem exec_timeClockTick : ∀ s, exec (.timeClockTick) s = execTimeClockTick s := fun _ => rfl
@[simp] theorem exec_lineBoundary : ∀ cycles s, exec (.lineBoundary cycles) s = execLineBoundary cycles s := fun _ _ => rfl
@[simp] theorem exec_stepRequest : ∀ order s, exec (.stepRequest order) s = execStepRequest order s := fun _ _ => rfl
@[simp] theorem exec_timeBlockReceive : ∀ q block arrival crcOk s, exec (.timeBlockReceive q block arrival crcOk) s = execTimeBlockReceive q block arrival crcOk s := fun _ _ _ _ _ => rfl
@[simp] theorem exec_timeParentLoss : ∀ s, exec (.timeParentLoss) s = execTimeParentLoss s := fun _ => rfl
@[simp] theorem exec_holdoverLimitExpiry : ∀ s, exec (.holdoverLimitExpiry) s = execHoldoverLimitExpiry s := fun _ => rfl
@[simp] theorem exec_ptpMessageReceive : ∀ f s, exec (.ptpMessageReceive f) s = execPtpMessageReceive f s := fun _ _ => rfl
@[simp] theorem exec_ptpLoss : ∀ s, exec (.ptpLoss) s = execPtpLoss s := fun _ => rfl
@[simp] theorem exec_ppsMissing : ∀ s, exec (.ppsMissing) s = execPpsMissing s := fun _ => rfl
@[simp] theorem exec_strokeDecision : ∀ q s, exec (.strokeDecision q) s = execStrokeDecision q s := fun _ _ => rfl
@[simp] theorem exec_rxFrameArrival : ∀ q arrival f fec s, exec (.rxFrameArrival q arrival f fec) s = execRxFrameArrival q arrival f fec s := fun _ _ _ _ _ => rfl
@[simp] theorem exec_arrivalWindowClose : ∀ q s, exec (.arrivalWindowClose q) s = execArrivalWindowClose q s := fun _ _ => rfl
@[simp] theorem exec_quillPacketArrival : ∀ q src s, exec (.quillPacketArrival q src) s = execQuillPacketArrival q src s := fun _ _ _ => rfl
@[simp] theorem exec_penliftBlockReceive : ∀ q block s, exec (.penliftBlockReceive q block) s = execPenliftBlockReceive q block s := fun _ _ _ => rfl
@[simp] theorem exec_controlFieldSend : ∀ q s, exec (.controlFieldSend q) s = execControlFieldSend q s := fun _ _ => rfl
@[simp] theorem exec_controlFieldReceive : ∀ q ctl fec s, exec (.controlFieldReceive q ctl fec) s = execControlFieldReceive q ctl fec s := fun _ _ _ _ => rfl
@[simp] theorem exec_linkFrameReceive : ∀ q ctl slot fec s, exec (.linkFrameReceive q ctl slot fec) s = execLinkFrameReceive q ctl slot fec s := fun _ _ _ _ _ => rfl
@[simp] theorem exec_aseqAdvance : ∀ q s, exec (.aseqAdvance q) s = execAseqAdvance q s := fun _ _ => rfl
@[simp] theorem exec_linkReplay : ∀ q s, exec (.linkReplay q) s = execLinkReplay q s := fun _ _ => rfl
@[simp] theorem exec_quillDown : ∀ q cause s, exec (.quillDown q cause) s = execQuillDown q cause s := fun _ _ _ => rfl
@[simp] theorem exec_quillEnable : ∀ sess q s, exec (.quillEnable sess q) s = execQuillEnable sess q s := fun _ _ _ => rfl
@[simp] theorem exec_quillDisable : ∀ sess q s, exec (.quillDisable sess q) s = execQuillDisable sess q s := fun _ _ _ => rfl
@[simp] theorem exec_quillTrainingComplete : ∀ q s, exec (.quillTrainingComplete q) s = execQuillTrainingComplete q s := fun _ _ => rfl
@[simp] theorem exec_identReceive : ∀ q ctl slot s, exec (.identReceive q ctl slot) s = execIdentReceive q ctl slot s := fun _ _ _ _ => rfl
@[simp] theorem exec_checkTimeout : ∀ q s, exec (.checkTimeout q) s = execCheckTimeout q s := fun _ _ => rfl
@[simp] theorem exec_marginPacketForward : ∀ q vc s, exec (.marginPacketForward q vc) s = execMarginPacketForward q vc s := fun _ _ _ => rfl
@[simp] theorem exec_marginRequestExecute : ∀ at_ s, exec (.marginRequestExecute at_) s = execMarginRequestExecute at_ s := fun _ _ => rfl
@[simp] theorem exec_marginResponseReceive : ∀ at_ s, exec (.marginResponseReceive at_) s = execMarginResponseReceive at_ s := fun _ _ => rfl
@[simp] theorem exec_requestTimeout : ∀ txid s, exec (.requestTimeout txid) s = execRequestTimeout txid s := fun _ _ => rfl
@[simp] theorem exec_parkLimitExpiry : ∀ txid s, exec (.parkLimitExpiry txid) s = execParkLimitExpiry txid s := fun _ _ => rfl
@[simp] theorem exec_filterEntryExpiry : ∀ s, exec (.filterEntryExpiry) s = execFilterEntryExpiry s := fun _ => rfl
@[simp] theorem exec_mirrorWrite : ∀ n s, exec (.mirrorWrite n) s = execMirrorWrite n s := fun _ _ => rfl
@[simp] theorem exec_mirrorMark : ∀ n s, exec (.mirrorMark n) s = execMirrorMark n s := fun _ _ => rfl
@[simp] theorem exec_stageOpen : ∀ sess s, exec (.stageOpen sess) s = execStageOpen sess s := fun _ _ => rfl
@[simp] theorem exec_stageCheck : ∀ sess s, exec (.stageCheck sess) s = execStageCheck sess s := fun _ _ => rfl
@[simp] theorem exec_stageApply : ∀ sess s, exec (.stageApply sess) s = execStageApply sess s := fun _ _ => rfl
@[simp] theorem exec_stageCancel : ∀ sess s, exec (.stageCancel sess) s = execStageCancel sess s := fun _ _ => rfl
@[simp] theorem exec_stageDiscard : ∀ sess s, exec (.stageDiscard sess) s = execStageDiscard sess s := fun _ _ => rfl
@[simp] theorem exec_stageApplyInstant : ∀ s, exec (.stageApplyInstant) s = execStageApplyInstant s := fun _ => rfl
@[simp] theorem exec_openingEnd : ∀ s, exec (.openingEnd) s = execOpeningEnd s := fun _ => rfl
@[simp] theorem exec_holdInNDrain : ∀ s, exec (.holdInNDrain) s = execHoldInNDrain s := fun _ => rfl
@[simp] theorem exec_placeStart : ∀ sess s, exec (.placeStart sess) s = execPlaceStart sess s := fun _ _ => rfl
@[simp] theorem exec_placePut : ∀ s, exec (.placePut) s = execPlacePut s := fun _ => rfl
@[simp] theorem exec_placeGet : ∀ s, exec (.placeGet) s = execPlaceGet s := fun _ => rfl
@[simp] theorem exec_placeFill : ∀ s, exec (.placeFill) s = execPlaceFill s := fun _ => rfl
@[simp] theorem exec_placeStartNib : ∀ s, exec (.placeStartNib) s = execPlaceStartNib s := fun _ => rfl
@[simp] theorem exec_placeNop : ∀ s, exec (.placeNop) s = execPlaceNop s := fun _ => rfl
@[simp] theorem exec_placeListComplete : ∀ s, exec (.placeListComplete) s = execPlaceListComplete s := fun _ => rfl
@[simp] theorem exec_faultRecordClear : ∀ sess s, exec (.faultRecordClear sess) s = execFaultRecordClear sess s := fun _ _ => rfl
@[simp] theorem exec_lapOpen : ∀ s, exec (.lapOpen) s = execLapOpen s := fun _ => rfl
@[simp] theorem exec_lapClose : ∀ s, exec (.lapClose) s = execLapClose s := fun _ => rfl
@[simp] theorem exec_lapRead : ∀ s, exec (.lapRead) s = execLapRead s := fun _ => rfl
@[simp] theorem exec_lapWrite : ∀ s, exec .lapWrite s = execLapWrite s := fun _ => rfl
@[simp] theorem exec_lapKeepalive : ∀ s, exec (.lapKeepalive) s = execLapKeepalive s := fun _ => rfl
@[simp] theorem exec_lapNonce : ∀ s, exec (.lapNonce) s = execLapNonce s := fun _ => rfl
@[simp] theorem exec_lapEventAck : ∀ s, exec (.lapEventAck) s = execLapEventAck s := fun _ => rfl
@[simp] theorem exec_ledgerRegisterWrite : ∀ sess index sub value s, exec (.ledgerRegisterWrite sess index sub value) s = execLedgerRegisterWrite sess index sub value s := fun _ _ _ _ _ => rfl
@[simp] theorem exec_eventRepeat : ∀ s, exec (.eventRepeat) s = execEventRepeat s := fun _ => rfl
@[simp] theorem exec_sessionIdleTimeout : ∀ sess s, exec (.sessionIdleTimeout sess) s = execSessionIdleTimeout sess s := fun _ _ => rfl
@[simp] theorem exec_blobAssemblyTimeout : ∀ sess s, exec (.blobAssemblyTimeout sess) s = execBlobAssemblyTimeout sess s := fun _ _ => rfl
@[simp] theorem exec_nonceExpiry : ∀ s, exec (.nonceExpiry) s = execNonceExpiry s := fun _ => rfl
@[simp] theorem exec_progressCheck : ∀ s, exec (.progressCheck) s = execProgressCheck s := fun _ => rfl
@[simp] theorem exec_hostBlot : ∀ sess s, exec (.hostBlot sess) s = execHostBlot sess s := fun _ _ => rfl
@[simp] theorem exec_blotItemReceive : ∀ q item s, exec (.blotItemReceive q item) s = execBlotItemReceive q item s := fun _ _ _ => rfl
@[simp] theorem exec_blotKeyExpiry : ∀ s, exec (.blotKeyExpiry) s = execBlotKeyExpiry s := fun _ => rfl
@[simp] theorem exec_abortEnd : ∀ s, exec (.abortEnd) s = execAbortEnd s := fun _ => rfl
@[simp] theorem exec_blotterRecordComplete : ∀ s, exec (.blotterRecordComplete) s = execBlotterRecordComplete s := fun _ => rfl
@[simp] theorem exec_nibResetRequest : ∀ sess nib s, exec (.nibResetRequest sess nib) s = execNibResetRequest sess nib s := fun _ _ _ => rfl
@[simp] theorem exec_computeResetRequest : ∀ sess s, exec (.computeResetRequest sess) s = execComputeResetRequest sess s := fun _ _ => rfl
@[simp] theorem exec_partResetRequest : ∀ sess s, exec (.partResetRequest sess) s = execPartResetRequest sess s := fun _ _ => rfl
@[simp] theorem exec_resetEscalation : ∀ s, exec (.resetEscalation) s = execResetEscalation s := fun _ => rfl
@[simp] theorem exec_computeHeldLimit : ∀ s, exec (.computeHeldLimit) s = execComputeHeldLimit s := fun _ => rfl
@[simp] theorem exec_serviceTimeSave : ∀ s, exec (.serviceTimeSave) s = execServiceTimeSave s := fun _ => rfl
@[simp] theorem exec_retirementClear : ∀ sess s, exec (.retirementClear sess) s = execRetirementClear sess s := fun _ _ => rfl
@[simp] theorem exec_blotterRegionMove : ∀ sess base s, exec (.blotterRegionMove sess base) s = execBlotterRegionMove sess base s := fun _ _ _ => rfl
@[simp] theorem exec_rdu : ∀ tag s, exec (.rdu tag) s = execRdu tag s := fun _ _ => rfl
@[simp] theorem exec_rds : ∀ tag s, exec (.rds tag) s = execRds tag s := fun _ _ => rfl
@[simp] theorem exec_rdx : ∀ tag s, exec (.rdx tag) s = execRdx tag s := fun _ _ => rfl
@[simp] theorem exec_wr : ∀ tag s, exec (.wr tag) s = execWr tag s := fun _ _ => rfl
@[simp] theorem exec_wb : ∀ tag s, exec (.wb tag) s = execWb tag s := fun _ _ => rfl
@[simp] theorem exec_cln : ∀ tag s, exec (.cln tag) s = execCln tag s := fun _ _ => rfl
@[simp] theorem exec_birsp : ∀ tag s, exec (.birsp tag) s = execBirsp tag s := fun _ _ => rfl
@[simp] theorem exec_binvTimeout : ∀ s, exec (.binvTimeout) s = execBinvTimeout s := fun _ => rfl
@[simp] theorem exec_txlFlitReceive : ∀ f s, exec (.txlFlitReceive f) s = execTxlFlitReceive f s := fun _ _ => rfl
@[simp] theorem exec_txlAckAdvance : ∀ s, exec (.txlAckAdvance) s = execTxlAckAdvance s := fun _ => rfl
@[simp] theorem exec_txlReplay : ∀ s, exec (.txlReplay) s = execTxlReplay s := fun _ => rfl
@[simp] theorem exec_txlFlitTimeout : ∀ s, exec (.txlFlitTimeout) s = execTxlFlitTimeout s := fun _ => rfl
@[simp] theorem exec_txlLinkDown : ∀ s, exec (.txlLinkDown) s = execTxlLinkDown s := fun _ => rfl
@[simp] theorem exec_txlLinkUp : ∀ rsp data req s, exec (.txlLinkUp rsp data req) s = execTxlLinkUp rsp data req s := fun _ _ _ _ => rfl
@[simp] theorem exec_mailboxSubmit : ∀ s, exec (.mailboxSubmit) s = execMailboxSubmit s := fun _ => rfl
@[simp] theorem exec_mailboxRspClear : ∀ s, exec (.mailboxRspClear) s = execMailboxRspClear s := fun _ => rfl
@[simp] theorem exec_mailboxEvtClear : ∀ s, exec (.mailboxEvtClear) s = execMailboxEvtClear s := fun _ => rfl
@[simp] theorem exec_mgmtFrameReceive : ∀ f s, exec (.mgmtFrameReceive f) s = execMgmtFrameReceive f s := fun _ _ => rfl
@[simp] theorem exec_mgmtAutonegotiation : ∀ partnerFec s, exec (.mgmtAutonegotiation partnerFec) s = execMgmtAutonegotiation partnerFec s := fun _ _ => rfl
@[simp] theorem exec_gradeAndStepping : ∀ pec s, exec (.gradeAndStepping pec) s = execGradeAndStepping pec s := fun _ _ => rfl
@[simp] theorem exec_recoveryState : ∀ pec s, exec (.recoveryState pec) s = execRecoveryState pec s := fun _ _ => rfl
@[simp] theorem exec_dieTemperature : ∀ pec sensors s, exec (.dieTemperature pec sensors) s = execDieTemperature pec sensors s := fun _ _ _ => rfl
@[simp] theorem exec_coolantInletTemperature : ∀ pec sensor s, exec (.coolantInletTemperature pec sensor) s = execCoolantInletTemperature pec sensor s := fun _ _ _ => rfl
@[simp] theorem exec_environmentFlags : ∀ pec die inlet millivolts s, exec (.environmentFlags pec die inlet millivolts) s = execEnvironmentFlags pec die inlet millivolts s := fun _ _ _ _ _ => rfl
@[simp] theorem exec_serialNumber : ∀ pec s, exec (.serialNumber pec) s = execSerialNumber pec s := fun _ _ => rfl
@[simp] theorem exec_macAndIpv4Address : ∀ pec s, exec (.macAndIpv4Address pec) s = execMacAndIpv4Address pec s := fun _ _ => rfl
@[simp] theorem exec_readVin : ∀ pec millivolts s, exec (.readVin pec millivolts) s = execReadVin pec millivolts s := fun _ _ _ => rfl
@[simp] theorem exec_readIin : ∀ pec milliamps s, exec (.readIin pec milliamps) s = execReadIin pec milliamps s := fun _ _ _ => rfl
@[simp] theorem exec_readPout : ∀ pec milliwatts s, exec (.readPout pec milliwatts) s = execReadPout pec milliwatts s := fun _ _ _ => rfl
@[simp] theorem exec_readTemperature1 : ∀ pec eighths s, exec (.readTemperature1 pec eighths) s = execReadTemperature1 pec eighths s := fun _ _ _ => rfl
@[simp] theorem exec_readTemperature2 : ∀ pec eighths s, exec (.readTemperature2 pec eighths) s = execReadTemperature2 pec eighths s := fun _ _ _ => rfl
@[simp] theorem exec_statusWord : ∀ pec s, exec (.statusWord pec) s = execStatusWord pec s := fun _ _ => rfl
@[simp] theorem exec_statusInput : ∀ pec s, exec (.statusInput pec) s = execStatusInput pec s := fun _ _ => rfl
@[simp] theorem exec_statusTemperature : ∀ pec s, exec (.statusTemperature pec) s = execStatusTemperature pec s := fun _ _ => rfl
@[simp] theorem exec_clearFaults : ∀ pec s, exec (.clearFaults pec) s = execClearFaults pec s := fun _ _ => rfl
@[simp] theorem exec_pmbusUnsupportedCommand : ∀ code s, exec (.pmbusUnsupportedCommand code) s = execPmbusUnsupportedCommand code s := fun _ _ => rfl
@[simp] theorem exec_powerUp : ∀ s, exec (.powerUp) s = execPowerUp s := fun _ => rfl
@[simp] theorem exec_bootSequence : ∀ s, exec (.bootSequence) s = execBootSequence s := fun _ => rfl
@[simp] theorem exec_fwConfirm : ∀ sess s, exec (.fwConfirm sess) s = execFwConfirm sess s := fun _ _ => rfl
@[simp] theorem exec_fwRaiseFloor : ∀ sess s, exec (.fwRaiseFloor sess) s = execFwRaiseFloor sess s := fun _ _ => rfl
@[simp] theorem exec_fwInstall : ∀ sess s, exec (.fwInstall sess) s = execFwInstall sess s := fun _ _ => rfl
@[simp] theorem exec_fwRevoke : ∀ sess key s, exec (.fwRevoke sess key) s = execFwRevoke sess key s := fun _ _ _ => rfl
@[simp] theorem exec_firmwareCommandComplete : ∀ flashOk s, exec (.firmwareCommandComplete flashOk) s = execFirmwareCommandComplete flashOk s := fun _ _ => rfl
@[simp] theorem exec_meas2Extend : ∀ sess value s, exec (.meas2Extend sess value) s = execMeas2Extend sess value s := fun _ _ _ => rfl
@[simp] theorem exec_quoteRequest : ∀ sess nonce s, exec (.quoteRequest sess nonce) s = execQuoteRequest sess nonce s := fun _ _ _ => rfl
@[simp] theorem exec_restoreDefaults : ∀ sess s, exec (.restoreDefaults sess) s = execRestoreDefaults sess s := fun _ _ => rfl
@[simp] theorem exec_blotInN : ∀ s, exec (.blotInN) s = execBlotInN s := fun _ => rfl
@[simp] theorem exec_holdInN : ∀ s, exec (.holdInN) s = execHoldInN s := fun _ => rfl
@[simp] theorem exec_ppsIn : ∀ edge s, exec (.ppsIn edge) s = execPpsIn edge s := fun _ _ => rfl
@[simp] theorem exec_modRstNAssert : ∀ s, exec (.modRstNAssert) s = execModRstNAssert s := fun _ => rfl
@[simp] theorem exec_modRstNRelease : ∀ s, exec (.modRstNRelease) s = execModRstNRelease s := fun _ => rfl
@[simp] theorem exec_sidebandRearm : ∀ pin s, exec (.sidebandRearm pin) s = execSidebandRearm pin s := fun _ _ => rfl
@[simp] theorem exec_sidebandStuck : ∀ pin s, exec (.sidebandStuck pin) s = execSidebandStuck pin s := fun _ _ => rfl
@[simp] theorem exec_sidebandRearmWrite : ∀ sess value s, exec (.sidebandRearmWrite sess value) s = execSidebandRearmWrite sess value s := fun _ _ _ => rfl
@[simp] theorem exec_inputUndervoltage : ∀ s, exec (.inputUndervoltage) s = execInputUndervoltage s := fun _ => rfl
@[simp] theorem exec_inputOvervoltage : ∀ s, exec (.inputOvervoltage) s = execInputOvervoltage s := fun _ => rfl
@[simp] theorem exec_powerStageOvertemperature : ∀ s, exec (.powerStageOvertemperature) s = execPowerStageOvertemperature s := fun _ => rfl
@[simp] theorem exec_linkTestOff : ∀ sess q value s, exec (.linkTestOff sess q value) s = execLinkTestOff sess q value s := fun _ _ _ _ => rfl
@[simp] theorem exec_linkTestLane : ∀ sess q value s, exec (.linkTestLane sess q value) s = execLinkTestLane sess q value s := fun _ _ _ _ => rfl
@[simp] theorem exec_linkTestFramed : ∀ sess q value s, exec (.linkTestFramed sess q value) s = execLinkTestFramed sess q value s := fun _ _ _ _ => rfl
@[simp] theorem exec_checkerLock : ∀ q lane symbols s, exec (.checkerLock q lane symbols) s = execCheckerLock q lane symbols s := fun _ _ _ _ => rfl
@[simp] theorem exec_checkerLockLoss : ∀ q lane errors s, exec (.checkerLockLoss q lane errors) s = execCheckerLockLoss q lane errors s := fun _ _ _ _ => rfl
@[simp] theorem exec_jtagBypass : ∀ s, exec (.jtagBypass) s = execJtagBypass s := fun _ => rfl
@[simp] theorem exec_jtagIdcode : ∀ s, exec (.jtagIdcode) s = execJtagIdcode s := fun _ => rfl
@[simp] theorem exec_jtagSamplePreload : ∀ pins preload s, exec (.jtagSamplePreload pins preload) s = execJtagSamplePreload pins preload s := fun _ _ _ => rfl
@[simp] theorem exec_jtagExtest : ∀ s, exec (.jtagExtest) s = execJtagExtest s := fun _ => rfl
@[simp] theorem exec_jtagExtestPulse : ∀ s, exec (.jtagExtestPulse) s = execJtagExtestPulse s := fun _ => rfl
@[simp] theorem exec_jtagExtestTrain : ∀ s, exec (.jtagExtestTrain) s = execJtagExtestTrain s := fun _ => rfl
@[simp] theorem exec_jtagClamp : ∀ s, exec (.jtagClamp) s = execJtagClamp s := fun _ => rfl
@[simp] theorem exec_jtagHighz : ∀ s, exec (.jtagHighz) s = execJtagHighz s := fun _ => rfl
@[simp] theorem exec_jtagManufacturing : ∀ code s, exec (.jtagManufacturing code) s = execJtagManufacturing code s := fun _ _ => rfl
@[simp] theorem exec_jtagTapReset : ∀ s, exec (.jtagTapReset) s = execJtagTapReset s := fun _ => rfl
@[simp] theorem exec_resetStepComplete : ∀ s, exec (.resetStepComplete) s = execResetStepComplete s := fun _ => rfl
@[simp] theorem exec_transactionIdRelease : ∀ txid s, exec (.transactionIdRelease txid) s = execTransactionIdRelease txid s := fun _ _ => rfl
@[simp] theorem exec_txlRequestCompletion : ∀ tag s, exec (.txlRequestCompletion tag) s = execTxlRequestCompletion tag s := fun _ _ => rfl

end Sys2Proof.Machine
end

