-- ==== Sys2Proof/Laws/Sparse.lean ====
section
/-! SUPPORT. Sparse data: reading what was written, and the canonical form kept by every operation. -/

namespace Sys2Proof.Machine.SMap

variable {α : Type}

/-- Every key of `m` lies above `k`. -/
def above (k : Nat) (m : SMap α) : Prop := ∀ e ∈ m, k < e.1

/-- The canonical form, entry by entry: the first entry is no default and below the rest. -/
theorem wf_cons [DecidableEq α] (d : α) (k : Nat) (v : α) (m : SMap α) :
    wf d ((k, v) :: m) = true ↔ v ≠ d ∧ above k m ∧ wf d m = true := by
  induction m generalizing k v with
  | nil => simp [wf, above]
  | cons e m ih =>
    obtain ⟨k', v'⟩ := e
    simp only [wf, Bool.and_eq_true, decide_eq_true_eq, above, List.mem_cons, forall_eq_or_imp]
    constructor
    · rintro ⟨⟨h1, h2⟩, h3⟩
      exact ⟨h1, ⟨h2, fun e he => Nat.lt_trans h2 (((ih k' v').1 h3).2.1 e he)⟩, h3⟩
    · rintro ⟨h1, ⟨h2, _⟩, h3⟩
      exact ⟨⟨h1, h2⟩, h3⟩

@[simp] theorem wf_nil [DecidableEq α] (d : α) : wf d ([] : SMap α) = true := rfl

/-- Erasing, entry by entry. -/
theorem erase_cons (k' : Nat) (v : α) (m : SMap α) (k : Nat) :
    erase ((k', v) :: m) k = if k' = k then erase m k else (k', v) :: erase m k := by
  by_cases h : k' = k <;> simp [erase, h]

/-- An erased key reads as the default. -/
theorem get_erase_same (d : α) (m : SMap α) (k : Nat) : get d (erase m k) k = d := by
  induction m with
  | nil => rfl
  | cons e m ih =>
    obtain ⟨k', v⟩ := e
    rw [erase_cons]
    split
    · exact ih
    · rename_i h
      simp only [get]
      rw [if_neg (fun h' => h h'.symm)]
      exact ih

/-- An inserted key reads as what was inserted. -/
theorem get_insert_same (d : α) (m : SMap α) (k : Nat) (v : α) : get d (insert k v m) k = v := by
  induction m with
  | nil => simp [insert, get]
  | cons e m ih =>
    obtain ⟨k', v'⟩ := e
    simp only [insert]
    split
    · simp [get]
    · split
      · simp [get]
      · rename_i h1 h2
        simp only [get, h2, if_false]
        exact ih

/-- A key reads as what was last written to it. -/
@[simp] theorem get_set_same [DecidableEq α] (d : α) (m : SMap α) (k : Nat) (v : α) : get d (set d m k v) k = v := by
  unfold set
  split
  · rename_i h; rw [h]; exact get_erase_same d m k
  · exact get_insert_same d m k v

/-- Inserting leaves every other key alone. -/
theorem get_insert_other (d : α) (m : SMap α) (k j : Nat) (v : α) (h : j ≠ k) : get d (insert k v m) j = get d m j := by
  induction m with
  | nil => simp only [insert, get, if_neg h]
  | cons e m ih =>
    obtain ⟨k', v'⟩ := e
    simp only [insert]
    split
    · simp only [get, if_neg h]
    · split
      · rename_i h1 h2
        subst h2
        simp [get, h]
      · simp only [get, ih]

/-- Erasing leaves every other key alone. -/
theorem get_erase_other (d : α) (m : SMap α) (k j : Nat) (h : j ≠ k) : get d (erase m k) j = get d m j := by
  induction m with
  | nil => rfl
  | cons e m ih =>
    obtain ⟨k', v⟩ := e
    rw [erase_cons]
    split
    · rename_i hk
      subst hk
      simp only [get, if_neg h, ih]
    · simp only [get, ih]

/-- Writing leaves every other key alone. -/
theorem get_set_other [DecidableEq α] (d : α) (m : SMap α) (k j : Nat) (v : α) (h : j ≠ k) :
    get d (set d m k v) j = get d m j := by
  unfold set
  split
  · exact get_erase_other d m k j h
  · exact get_insert_other d m k j v h

/-- Filtering keeps the canonical form. -/
theorem wf_filter [DecidableEq α] (d : α) (m : SMap α) (p : Nat × α → Bool) (hm : wf d m = true) :
    wf d (m.filter p) = true := by
  induction m with
  | nil => rfl
  | cons e m ih =>
    obtain ⟨k, v⟩ := e
    obtain ⟨hv, ha, hw⟩ := (wf_cons d k v m).1 hm
    simp only [List.filter_cons]
    split
    · exact (wf_cons d k v _).2 ⟨hv, fun e he => ha e (List.mem_filter.1 he).1, ih hw⟩
    · exact ih hw

/-- Erasing keeps the canonical form. -/
theorem wf_erase [DecidableEq α] (d : α) (m : SMap α) (k : Nat) (hm : wf d m = true) : wf d (erase m k) = true :=
  wf_filter d m _ hm

/-- Erasing a range keeps the canonical form. -/
theorem wf_eraseRange [DecidableEq α] (d : α) (m : SMap α) (k n : Nat) (hm : wf d m = true) :
    wf d (eraseRange m k n) = true := wf_filter d m _ hm

/-- The entries after an insertion. -/
theorem mem_insert (k : Nat) (v : α) (m : SMap α) (e : Nat × α) (h : e ∈ insert k v m) : e = (k, v) ∨ e ∈ m := by
  induction m with
  | nil => simpa [insert] using h
  | cons x m ih =>
    obtain ⟨k', v'⟩ := x
    simp only [insert] at h
    split at h
    · simpa using h
    · split at h
      · rcases List.mem_cons.1 h with h | h
        · exact .inl h
        · exact .inr (List.mem_cons_of_mem _ h)
      · rcases List.mem_cons.1 h with h | h
        · exact .inr (by simp [h])
        · rcases ih h with h | h
          · exact .inl h
          · exact .inr (List.mem_cons_of_mem _ h)

/-- Inserting a value that is no default keeps the canonical form. -/
theorem wf_insert [DecidableEq α] (d : α) (m : SMap α) (k : Nat) (v : α) (hv : v ≠ d) (hm : wf d m = true) :
    wf d (insert k v m) = true := by
  induction m with
  | nil => simp [insert, wf, hv]
  | cons e m ih =>
    obtain ⟨k', v'⟩ := e
    obtain ⟨hv', ha, hw⟩ := (wf_cons d k' v' m).1 hm
    simp only [insert]
    split
    · rename_i hk
      refine (wf_cons d k v _).2 ⟨hv, ?_, hm⟩
      intro e he
      rcases List.mem_cons.1 he with h | h
      · rw [h]; exact hk
      · exact Nat.lt_trans hk (ha e h)
    · split
      · rename_i hk
        subst hk
        exact (wf_cons d k v m).2 ⟨hv, ha, hw⟩
      · refine (wf_cons d k' v' _).2 ⟨hv', ?_, ih hw⟩
        intro e he
        rcases mem_insert k v m e he with h | h
        · rw [h]; simp only; omega
        · exact ha e h

/-- Writing keeps the canonical form. -/
theorem wf_set [DecidableEq α] (d : α) (m : SMap α) (k : Nat) (v : α) (hm : wf d m = true) : wf d (set d m k v) = true := by
  unfold set
  split
  · exact wf_erase d m k hm
  · exact wf_insert d m k v ‹_› hm

/-- Values changed key by key stand in the canonical form, whatever form they stood in. -/
theorem wf_mapVals [DecidableEq α] (d : α) (f : Nat → α → α) (m : SMap α) : wf d (mapVals d f m) = true := by
  induction m with
  | nil => rfl
  | cons e m ih => exact wf_set d _ _ _ ih

/-- A key with no entry reads as the default. -/
theorem get_unlisted (d : α) (m : SMap α) (k : Nat) (h : ∀ e ∈ m, e.1 ≠ k) : get d m k = d := by
  induction m with
  | nil => rfl
  | cons e m ih =>
    obtain ⟨j, v⟩ := e
    rw [get, if_neg fun e => h (j, v) (List.mem_cons_self ..) e.symm, ih fun e he => h e (List.mem_cons_of_mem _ he)]

/-- Where `f` keeps what an unlisted key reads as, every key reads as `f` of what it read. -/
theorem get_mapVals [DecidableEq α] (d : α) (f : Nat → α → α) (m : SMap α) (k : Nat) (h : f k d = d) :
    get d (mapVals d f m) k = f k (get d m k) := by
  induction m with
  | nil => exact h.symm
  | cons e m ih =>
    obtain ⟨j, v⟩ := e
    simp only [mapVals, get]
    split
    · rename_i e; subst e; exact get_set_same d _ _ _
    · rename_i e; exact (get_set_other d _ _ _ _ e).trans ih

/-- Writing a run of keys keeps the canonical form. -/
theorem wf_setRange [DecidableEq α] (d : α) (vs : List α) (m : SMap α) (k : Nat) (hm : wf d m = true) :
    wf d (setRange d m k vs) = true := by
  induction vs generalizing m k with
  | nil => exact hm
  | cons v vs ih => exact ih _ _ (wf_set d m k v hm)

/-- Writing a list of pairs keeps the canonical form. -/
theorem wf_setAll [DecidableEq α] (d : α) (kvs : List (Nat × α)) (m : SMap α) (hm : wf d m = true) :
    wf d (setAll d m kvs) = true := by
  induction kvs generalizing m with
  | nil => exact hm
  | cons e kvs ih => exact ih _ (wf_set d m e.1 e.2 hm)

/-- Keys outside a run that is written are left alone. -/
theorem get_setRange_other [DecidableEq α] (d : α) (vs : List α) (m : SMap α) (k j : Nat)
    (h : j < k ∨ k + vs.length ≤ j) : get d (setRange d m k vs) j = get d m j := by
  induction vs generalizing m k with
  | nil => rfl
  | cons v vs ih =>
    simp only [List.length_cons] at h
    simp only [setRange]
    rw [ih _ _ (by omega)]
    exact get_set_other d m k j v (by omega)

/-- A key of a run that is written reads as its value. -/
theorem get_setRange_same [DecidableEq α] (d : α) (vs : List α) (m : SMap α) (k i : Nat)
    (h : i < vs.length) : get d (setRange d m k vs) (k + i) = vs[i] := by
  induction vs generalizing m k i with
  | nil => exact absurd h (by simp)
  | cons v vs ih =>
    simp only [setRange]
    cases i with
    | zero =>
      have := get_setRange_other d vs (set d m k v) (k + 1) k (by omega)
      simpa using this
    | succ i =>
      have := ih (set d m k v) (k + 1) i (by simpa using h)
      rw [show k + (i + 1) = k + 1 + i by omega]
      simpa using this

end Sys2Proof.Machine.SMap

namespace Sys2Proof.Machine.Memory

/-- A byte written reads back. -/
@[simp] theorem read_write_same (m : Memory) (a : Nat) (b : Byte) : (m.write a b).read a = b := SMap.get_set_same 0 m a b

/-- A byte written leaves every other byte alone. -/
theorem read_write_other (m : Memory) (a c : Nat) (b : Byte) (h : c ≠ a) :
    (m.write a b).read c = m.read c := SMap.get_set_other 0 m a c b h

/-- Bytes written leave every byte outside them alone. -/
theorem read_writeBytes_other (m : Memory) (a c : Nat) (bs : List Byte) (h : c < a ∨ a + bs.length ≤ c) :
    (m.writeBytes a bs).read c = m.read c := SMap.get_setRange_other 0 bs m a c h

/-- Bytes written read back. -/
theorem read_writeBytes_same (m : Memory) (a i : Nat) (bs : List Byte) (h : i < bs.length) :
    (m.writeBytes a bs).read (a + i) = bs[i] := SMap.get_setRange_same 0 bs m a i h

/-- A write of one byte keeps the canonical form. -/
theorem wf_write (m : Memory) (a : Nat) (b : Byte) (hm : m.wf = true) : (m.write a b).wf = true := SMap.wf_set 0 m a b hm

/-- A write of bytes keeps the canonical form. -/
theorem wf_writeBytes (m : Memory) (a : Nat) (bs : List Byte) (hm : m.wf = true) : (m.writeBytes a bs).wf = true :=
  SMap.wf_setRange 0 bs m a hm

end Sys2Proof.Machine.Memory
end

