-- ==== Sys2Proof/Laws/State.lean ====
section
/-! SUPPORT. The state's plain updates, field by field: each is true by unfolding, so that no later proof unfolds a record
update. -/

namespace Sys2Proof.Machine.State

variable (s : State)

/-! ### setObj -/

@[simp] theorem setObj_pending (i u v : Nat) : (s.setObj i u v).pending = s.pending := rfl
@[simp] theorem setObj_fresh (i u v : Nat) : (s.setObj i u v).fresh = s.fresh := rfl
@[simp] theorem setObj_nibs (i u v : Nat) : (s.setObj i u v).nibs = s.nibs := rfl
@[simp] theorem setObj_mesh (i u v : Nat) : (s.setObj i u v).mesh = s.mesh := rfl
@[simp] theorem setObj_desk (i u v : Nat) : (s.setObj i u v).desk = s.desk := rfl
@[simp] theorem setObj_time (i u v : Nat) : (s.setObj i u v).time = s.time := rfl
@[simp] theorem setObj_lines (i u v : Nat) : (s.setObj i u v).lines = s.lines := rfl
@[simp] theorem setObj_quires (i u v : Nat) : (s.setObj i u v).quires = s.quires := rfl
@[simp] theorem setObj_quills (i u v : Nat) : (s.setObj i u v).quills = s.quills := rfl
@[simp] theorem setObj_binding (i u v : Nat) : (s.setObj i u v).binding = s.binding := rfl
@[simp] theorem setObj_place (i u v : Nat) : (s.setObj i u v).place = s.place := rfl
@[simp] theorem setObj_agent (i u v : Nat) : (s.setObj i u v).agent = s.agent := rfl
@[simp] theorem setObj_recovery (i u v : Nat) : (s.setObj i u v).recovery = s.recovery := rfl
@[simp] theorem setObj_fuses (i u v : Nat) : (s.setObj i u v).fuses = s.fuses := rfl
@[simp] theorem setObj_flash (i u v : Nat) : (s.setObj i u v).flash = s.flash := rfl
@[simp] theorem setObj_boot (i u v : Nat) : (s.setObj i u v).boot = s.boot := rfl
@[simp] theorem setObj_pins (i u v : Nat) : (s.setObj i u v).pins = s.pins := rfl
@[simp] theorem setObj_margin (i u v : Nat) : (s.setObj i u v).margin = s.margin := rfl
@[simp] theorem setObj_txl (i u v : Nat) : (s.setObj i u v).txl = s.txl := rfl
@[simp] theorem setObj_mgmt (i u v : Nat) : (s.setObj i u v).mgmt = s.mgmt := rfl
@[simp] theorem setObj_smbus (i u v : Nat) : (s.setObj i u v).smbus = s.smbus := rfl
@[simp] theorem setObj_tap (i u v : Nat) : (s.setObj i u v).tap = s.tap := rfl
@[simp] theorem setObj_blobs (i u v : Nat) : (s.setObj i u v).blobs = s.blobs := rfl

/-! ### bump -/

@[simp] theorem bump_pending (i u v : Nat) : (s.bump i u v).pending = s.pending := rfl
@[simp] theorem bump_fresh (i u v : Nat) : (s.bump i u v).fresh = s.fresh := rfl
@[simp] theorem bump_nibs (i u v : Nat) : (s.bump i u v).nibs = s.nibs := rfl
@[simp] theorem bump_mesh (i u v : Nat) : (s.bump i u v).mesh = s.mesh := rfl
@[simp] theorem bump_desk (i u v : Nat) : (s.bump i u v).desk = s.desk := rfl
@[simp] theorem bump_time (i u v : Nat) : (s.bump i u v).time = s.time := rfl
@[simp] theorem bump_lines (i u v : Nat) : (s.bump i u v).lines = s.lines := rfl
@[simp] theorem bump_quires (i u v : Nat) : (s.bump i u v).quires = s.quires := rfl
@[simp] theorem bump_quills (i u v : Nat) : (s.bump i u v).quills = s.quills := rfl
@[simp] theorem bump_binding (i u v : Nat) : (s.bump i u v).binding = s.binding := rfl
@[simp] theorem bump_place (i u v : Nat) : (s.bump i u v).place = s.place := rfl
@[simp] theorem bump_agent (i u v : Nat) : (s.bump i u v).agent = s.agent := rfl
@[simp] theorem bump_recovery (i u v : Nat) : (s.bump i u v).recovery = s.recovery := rfl
@[simp] theorem bump_fuses (i u v : Nat) : (s.bump i u v).fuses = s.fuses := rfl
@[simp] theorem bump_flash (i u v : Nat) : (s.bump i u v).flash = s.flash := rfl
@[simp] theorem bump_boot (i u v : Nat) : (s.bump i u v).boot = s.boot := rfl
@[simp] theorem bump_pins (i u v : Nat) : (s.bump i u v).pins = s.pins := rfl
@[simp] theorem bump_margin (i u v : Nat) : (s.bump i u v).margin = s.margin := rfl
@[simp] theorem bump_txl (i u v : Nat) : (s.bump i u v).txl = s.txl := rfl
@[simp] theorem bump_mgmt (i u v : Nat) : (s.bump i u v).mgmt = s.mgmt := rfl
@[simp] theorem bump_smbus (i u v : Nat) : (s.bump i u v).smbus = s.smbus := rfl
@[simp] theorem bump_tap (i u v : Nat) : (s.bump i u v).tap = s.tap := rfl
@[simp] theorem bump_blobs (i u v : Nat) : (s.bump i u v).blobs = s.blobs := rfl

/-! ### setBlob -/

@[simp] theorem setBlob_pending (i u : Nat) (v : List Byte) : (s.setBlob i u v).pending = s.pending := rfl
@[simp] theorem setBlob_fresh (i u : Nat) (v : List Byte) : (s.setBlob i u v).fresh = s.fresh := rfl
@[simp] theorem setBlob_nibs (i u : Nat) (v : List Byte) : (s.setBlob i u v).nibs = s.nibs := rfl
@[simp] theorem setBlob_mesh (i u : Nat) (v : List Byte) : (s.setBlob i u v).mesh = s.mesh := rfl
@[simp] theorem setBlob_desk (i u : Nat) (v : List Byte) : (s.setBlob i u v).desk = s.desk := rfl
@[simp] theorem setBlob_time (i u : Nat) (v : List Byte) : (s.setBlob i u v).time = s.time := rfl
@[simp] theorem setBlob_lines (i u : Nat) (v : List Byte) : (s.setBlob i u v).lines = s.lines := rfl
@[simp] theorem setBlob_quires (i u : Nat) (v : List Byte) : (s.setBlob i u v).quires = s.quires := rfl
@[simp] theorem setBlob_quills (i u : Nat) (v : List Byte) : (s.setBlob i u v).quills = s.quills := rfl
@[simp] theorem setBlob_binding (i u : Nat) (v : List Byte) : (s.setBlob i u v).binding = s.binding := rfl
@[simp] theorem setBlob_place (i u : Nat) (v : List Byte) : (s.setBlob i u v).place = s.place := rfl
@[simp] theorem setBlob_agent (i u : Nat) (v : List Byte) : (s.setBlob i u v).agent = s.agent := rfl
@[simp] theorem setBlob_recovery (i u : Nat) (v : List Byte) : (s.setBlob i u v).recovery = s.recovery := rfl
@[simp] theorem setBlob_fuses (i u : Nat) (v : List Byte) : (s.setBlob i u v).fuses = s.fuses := rfl
@[simp] theorem setBlob_flash (i u : Nat) (v : List Byte) : (s.setBlob i u v).flash = s.flash := rfl
@[simp] theorem setBlob_boot (i u : Nat) (v : List Byte) : (s.setBlob i u v).boot = s.boot := rfl
@[simp] theorem setBlob_pins (i u : Nat) (v : List Byte) : (s.setBlob i u v).pins = s.pins := rfl
@[simp] theorem setBlob_margin (i u : Nat) (v : List Byte) : (s.setBlob i u v).margin = s.margin := rfl
@[simp] theorem setBlob_txl (i u : Nat) (v : List Byte) : (s.setBlob i u v).txl = s.txl := rfl
@[simp] theorem setBlob_mgmt (i u : Nat) (v : List Byte) : (s.setBlob i u v).mgmt = s.mgmt := rfl
@[simp] theorem setBlob_smbus (i u : Nat) (v : List Byte) : (s.setBlob i u v).smbus = s.smbus := rfl
@[simp] theorem setBlob_tap (i u : Nat) (v : List Byte) : (s.setBlob i u v).tap = s.tap := rfl
@[simp] theorem setBlob_objs (i u : Nat) (v : List Byte) : (s.setBlob i u v).objs = s.objs := rfl

/-! ### took -/

@[simp] theorem took_pending : (s.took).pending = s.pending := rfl
@[simp] theorem took_nibs : (s.took).nibs = s.nibs := rfl
@[simp] theorem took_mesh : (s.took).mesh = s.mesh := rfl
@[simp] theorem took_desk : (s.took).desk = s.desk := rfl
@[simp] theorem took_time : (s.took).time = s.time := rfl
@[simp] theorem took_lines : (s.took).lines = s.lines := rfl
@[simp] theorem took_quires : (s.took).quires = s.quires := rfl
@[simp] theorem took_quills : (s.took).quills = s.quills := rfl
@[simp] theorem took_binding : (s.took).binding = s.binding := rfl
@[simp] theorem took_place : (s.took).place = s.place := rfl
@[simp] theorem took_agent : (s.took).agent = s.agent := rfl
@[simp] theorem took_recovery : (s.took).recovery = s.recovery := rfl
@[simp] theorem took_fuses : (s.took).fuses = s.fuses := rfl
@[simp] theorem took_flash : (s.took).flash = s.flash := rfl
@[simp] theorem took_boot : (s.took).boot = s.boot := rfl
@[simp] theorem took_pins : (s.took).pins = s.pins := rfl
@[simp] theorem took_margin : (s.took).margin = s.margin := rfl
@[simp] theorem took_txl : (s.took).txl = s.txl := rfl
@[simp] theorem took_mgmt : (s.took).mgmt = s.mgmt := rfl
@[simp] theorem took_smbus : (s.took).smbus = s.smbus := rfl
@[simp] theorem took_tap : (s.took).tap = s.tap := rfl
@[simp] theorem took_objs : (s.took).objs = s.objs := rfl
@[simp] theorem took_blobs : (s.took).blobs = s.blobs := rfl

/-! ### setNib -/

@[simp] theorem setNib_pending (n : Nat) (x : Nib) : (s.setNib n x).pending = s.pending := rfl
@[simp] theorem setNib_fresh (n : Nat) (x : Nib) : (s.setNib n x).fresh = s.fresh := rfl
@[simp] theorem setNib_mesh (n : Nat) (x : Nib) : (s.setNib n x).mesh = s.mesh := rfl
@[simp] theorem setNib_desk (n : Nat) (x : Nib) : (s.setNib n x).desk = s.desk := rfl
@[simp] theorem setNib_time (n : Nat) (x : Nib) : (s.setNib n x).time = s.time := rfl
@[simp] theorem setNib_lines (n : Nat) (x : Nib) : (s.setNib n x).lines = s.lines := rfl
@[simp] theorem setNib_quires (n : Nat) (x : Nib) : (s.setNib n x).quires = s.quires := rfl
@[simp] theorem setNib_quills (n : Nat) (x : Nib) : (s.setNib n x).quills = s.quills := rfl
@[simp] theorem setNib_binding (n : Nat) (x : Nib) : (s.setNib n x).binding = s.binding := rfl
@[simp] theorem setNib_place (n : Nat) (x : Nib) : (s.setNib n x).place = s.place := rfl
@[simp] theorem setNib_agent (n : Nat) (x : Nib) : (s.setNib n x).agent = s.agent := rfl
@[simp] theorem setNib_recovery (n : Nat) (x : Nib) : (s.setNib n x).recovery = s.recovery := rfl
@[simp] theorem setNib_fuses (n : Nat) (x : Nib) : (s.setNib n x).fuses = s.fuses := rfl
@[simp] theorem setNib_flash (n : Nat) (x : Nib) : (s.setNib n x).flash = s.flash := rfl
@[simp] theorem setNib_boot (n : Nat) (x : Nib) : (s.setNib n x).boot = s.boot := rfl
@[simp] theorem setNib_pins (n : Nat) (x : Nib) : (s.setNib n x).pins = s.pins := rfl
@[simp] theorem setNib_margin (n : Nat) (x : Nib) : (s.setNib n x).margin = s.margin := rfl
@[simp] theorem setNib_txl (n : Nat) (x : Nib) : (s.setNib n x).txl = s.txl := rfl
@[simp] theorem setNib_mgmt (n : Nat) (x : Nib) : (s.setNib n x).mgmt = s.mgmt := rfl
@[simp] theorem setNib_smbus (n : Nat) (x : Nib) : (s.setNib n x).smbus = s.smbus := rfl
@[simp] theorem setNib_tap (n : Nat) (x : Nib) : (s.setNib n x).tap = s.tap := rfl
@[simp] theorem setNib_objs (n : Nat) (x : Nib) : (s.setNib n x).objs = s.objs := rfl
@[simp] theorem setNib_blobs (n : Nat) (x : Nib) : (s.setNib n x).blobs = s.blobs := rfl

/-! ### updNib -/

@[simp] theorem updNib_pending (n : Nat) (f : Nib → Nib) : (s.updNib n f).pending = s.pending := rfl
@[simp] theorem updNib_fresh (n : Nat) (f : Nib → Nib) : (s.updNib n f).fresh = s.fresh := rfl
@[simp] theorem updNib_mesh (n : Nat) (f : Nib → Nib) : (s.updNib n f).mesh = s.mesh := rfl
@[simp] theorem updNib_desk (n : Nat) (f : Nib → Nib) : (s.updNib n f).desk = s.desk := rfl
@[simp] theorem updNib_time (n : Nat) (f : Nib → Nib) : (s.updNib n f).time = s.time := rfl
@[simp] theorem updNib_lines (n : Nat) (f : Nib → Nib) : (s.updNib n f).lines = s.lines := rfl
@[simp] theorem updNib_quires (n : Nat) (f : Nib → Nib) : (s.updNib n f).quires = s.quires := rfl
@[simp] theorem updNib_quills (n : Nat) (f : Nib → Nib) : (s.updNib n f).quills = s.quills := rfl
@[simp] theorem updNib_binding (n : Nat) (f : Nib → Nib) : (s.updNib n f).binding = s.binding := rfl
@[simp] theorem updNib_place (n : Nat) (f : Nib → Nib) : (s.updNib n f).place = s.place := rfl
@[simp] theorem updNib_agent (n : Nat) (f : Nib → Nib) : (s.updNib n f).agent = s.agent := rfl
@[simp] theorem updNib_recovery (n : Nat) (f : Nib → Nib) : (s.updNib n f).recovery = s.recovery := rfl
@[simp] theorem updNib_fuses (n : Nat) (f : Nib → Nib) : (s.updNib n f).fuses = s.fuses := rfl
@[simp] theorem updNib_flash (n : Nat) (f : Nib → Nib) : (s.updNib n f).flash = s.flash := rfl
@[simp] theorem updNib_boot (n : Nat) (f : Nib → Nib) : (s.updNib n f).boot = s.boot := rfl
@[simp] theorem updNib_pins (n : Nat) (f : Nib → Nib) : (s.updNib n f).pins = s.pins := rfl
@[simp] theorem updNib_margin (n : Nat) (f : Nib → Nib) : (s.updNib n f).margin = s.margin := rfl
@[simp] theorem updNib_txl (n : Nat) (f : Nib → Nib) : (s.updNib n f).txl = s.txl := rfl
@[simp] theorem updNib_mgmt (n : Nat) (f : Nib → Nib) : (s.updNib n f).mgmt = s.mgmt := rfl
@[simp] theorem updNib_smbus (n : Nat) (f : Nib → Nib) : (s.updNib n f).smbus = s.smbus := rfl
@[simp] theorem updNib_tap (n : Nat) (f : Nib → Nib) : (s.updNib n f).tap = s.tap := rfl
@[simp] theorem updNib_objs (n : Nat) (f : Nib → Nib) : (s.updNib n f).objs = s.objs := rfl
@[simp] theorem updNib_blobs (n : Nat) (f : Nib → Nib) : (s.updNib n f).blobs = s.blobs := rfl

/-! ### setQuill -/

@[simp] theorem setQuill_pending (q : Nat) (x : Quill) : (s.setQuill q x).pending = s.pending := rfl
@[simp] theorem setQuill_fresh (q : Nat) (x : Quill) : (s.setQuill q x).fresh = s.fresh := rfl
@[simp] theorem setQuill_nibs (q : Nat) (x : Quill) : (s.setQuill q x).nibs = s.nibs := rfl
@[simp] theorem setQuill_mesh (q : Nat) (x : Quill) : (s.setQuill q x).mesh = s.mesh := rfl
@[simp] theorem setQuill_desk (q : Nat) (x : Quill) : (s.setQuill q x).desk = s.desk := rfl
@[simp] theorem setQuill_time (q : Nat) (x : Quill) : (s.setQuill q x).time = s.time := rfl
@[simp] theorem setQuill_lines (q : Nat) (x : Quill) : (s.setQuill q x).lines = s.lines := rfl
@[simp] theorem setQuill_quires (q : Nat) (x : Quill) : (s.setQuill q x).quires = s.quires := rfl
@[simp] theorem setQuill_binding (q : Nat) (x : Quill) : (s.setQuill q x).binding = s.binding := rfl
@[simp] theorem setQuill_place (q : Nat) (x : Quill) : (s.setQuill q x).place = s.place := rfl
@[simp] theorem setQuill_agent (q : Nat) (x : Quill) : (s.setQuill q x).agent = s.agent := rfl
@[simp] theorem setQuill_recovery (q : Nat) (x : Quill) : (s.setQuill q x).recovery = s.recovery := rfl
@[simp] theorem setQuill_fuses (q : Nat) (x : Quill) : (s.setQuill q x).fuses = s.fuses := rfl
@[simp] theorem setQuill_flash (q : Nat) (x : Quill) : (s.setQuill q x).flash = s.flash := rfl
@[simp] theorem setQuill_boot (q : Nat) (x : Quill) : (s.setQuill q x).boot = s.boot := rfl
@[simp] theorem setQuill_pins (q : Nat) (x : Quill) : (s.setQuill q x).pins = s.pins := rfl
@[simp] theorem setQuill_margin (q : Nat) (x : Quill) : (s.setQuill q x).margin = s.margin := rfl
@[simp] theorem setQuill_txl (q : Nat) (x : Quill) : (s.setQuill q x).txl = s.txl := rfl
@[simp] theorem setQuill_mgmt (q : Nat) (x : Quill) : (s.setQuill q x).mgmt = s.mgmt := rfl
@[simp] theorem setQuill_smbus (q : Nat) (x : Quill) : (s.setQuill q x).smbus = s.smbus := rfl
@[simp] theorem setQuill_tap (q : Nat) (x : Quill) : (s.setQuill q x).tap = s.tap := rfl
@[simp] theorem setQuill_objs (q : Nat) (x : Quill) : (s.setQuill q x).objs = s.objs := rfl
@[simp] theorem setQuill_blobs (q : Nat) (x : Quill) : (s.setQuill q x).blobs = s.blobs := rfl

/-! ### updQuill -/

@[simp] theorem updQuill_pending (q : Nat) (f : Quill → Quill) : (s.updQuill q f).pending = s.pending := rfl
@[simp] theorem updQuill_fresh (q : Nat) (f : Quill → Quill) : (s.updQuill q f).fresh = s.fresh := rfl
@[simp] theorem updQuill_nibs (q : Nat) (f : Quill → Quill) : (s.updQuill q f).nibs = s.nibs := rfl
@[simp] theorem updQuill_mesh (q : Nat) (f : Quill → Quill) : (s.updQuill q f).mesh = s.mesh := rfl
@[simp] theorem updQuill_desk (q : Nat) (f : Quill → Quill) : (s.updQuill q f).desk = s.desk := rfl
@[simp] theorem updQuill_time (q : Nat) (f : Quill → Quill) : (s.updQuill q f).time = s.time := rfl
@[simp] theorem updQuill_lines (q : Nat) (f : Quill → Quill) : (s.updQuill q f).lines = s.lines := rfl
@[simp] theorem updQuill_quires (q : Nat) (f : Quill → Quill) : (s.updQuill q f).quires = s.quires := rfl
@[simp] theorem updQuill_binding (q : Nat) (f : Quill → Quill) : (s.updQuill q f).binding = s.binding := rfl
@[simp] theorem updQuill_place (q : Nat) (f : Quill → Quill) : (s.updQuill q f).place = s.place := rfl
@[simp] theorem updQuill_agent (q : Nat) (f : Quill → Quill) : (s.updQuill q f).agent = s.agent := rfl
@[simp] theorem updQuill_recovery (q : Nat) (f : Quill → Quill) : (s.updQuill q f).recovery = s.recovery := rfl
@[simp] theorem updQuill_fuses (q : Nat) (f : Quill → Quill) : (s.updQuill q f).fuses = s.fuses := rfl
@[simp] theorem updQuill_flash (q : Nat) (f : Quill → Quill) : (s.updQuill q f).flash = s.flash := rfl
@[simp] theorem updQuill_boot (q : Nat) (f : Quill → Quill) : (s.updQuill q f).boot = s.boot := rfl
@[simp] theorem updQuill_pins (q : Nat) (f : Quill → Quill) : (s.updQuill q f).pins = s.pins := rfl
@[simp] theorem updQuill_margin (q : Nat) (f : Quill → Quill) : (s.updQuill q f).margin = s.margin := rfl
@[simp] theorem updQuill_txl (q : Nat) (f : Quill → Quill) : (s.updQuill q f).txl = s.txl := rfl
@[simp] theorem updQuill_mgmt (q : Nat) (f : Quill → Quill) : (s.updQuill q f).mgmt = s.mgmt := rfl
@[simp] theorem updQuill_smbus (q : Nat) (f : Quill → Quill) : (s.updQuill q f).smbus = s.smbus := rfl
@[simp] theorem updQuill_tap (q : Nat) (f : Quill → Quill) : (s.updQuill q f).tap = s.tap := rfl
@[simp] theorem updQuill_objs (q : Nat) (f : Quill → Quill) : (s.updQuill q f).objs = s.objs := rfl
@[simp] theorem updQuill_blobs (q : Nat) (f : Quill → Quill) : (s.updQuill q f).blobs = s.blobs := rfl

/-! ### Reading back -/

/-- A nib reads as what was put there. -/
@[simp] theorem nib_setNib (n : Nat) (x : Nib) : (s.setNib n x).nib n = x := SMap.get_set_same _ _ _ _
/-- A nib changed reads as what it was changed to. -/
@[simp] theorem nib_updNib (n : Nat) (f : Nib → Nib) : (s.updNib n f).nib n = f (s.nib n) := SMap.get_set_same _ _ _ _
/-- Putting a nib leaves every other nib alone. -/
theorem nib_setNib_other (n m : Nat) (x : Nib) (h : m ≠ n) :
    (s.setNib n x).nib m = s.nib m := SMap.get_set_other _ _ _ _ _ h
/-- Putting a nib keeps the nibs in canonical form. -/
theorem wf_setNib (n : Nat) (x : Nib) (hs : SMap.wf Nib.fresh s.nibs = true) : SMap.wf Nib.fresh (s.setNib n x).nibs = true :=
  SMap.wf_set _ _ _ _ hs
/-- A quill reads as what was put there. -/
@[simp] theorem quill_setQuill (q : Nat) (x : Quill) : (s.setQuill q x).quill q = x := SMap.get_set_same _ _ _ _
/-- A quill changed reads as what it was changed to. -/
@[simp] theorem quill_updQuill (q : Nat) (f : Quill → Quill) : (s.updQuill q f).quill q = f (s.quill q) := SMap.get_set_same _ _ _ _
/-- An object written reads as its value. -/
@[simp] theorem obj_setObj (i u v : Nat) : (s.setObj i u v).obj i u = v := by
  unfold obj setObj
  simp only [SMap.get_set_same]
  split <;> simp_all
/-- Another object is left alone. -/
theorem obj_setObj_other (i u v j w : Nat) (h : objKey j w ≠ objKey i u) :
    (s.setObj i u v).obj j w = s.obj j w := by
  unfold obj setObj
  simp only
  rw [SMap.get_set_other _ _ _ _ _ h]
/-- A counter raised reads as its old value and what was added, modulo 2⁶⁴. -/
@[simp] theorem obj_bump (i u k : Nat) : (s.bump i u k).obj i u = (s.obj i u + k) % 2 ^ 64 := obj_setObj s i u _
@[simp] theorem setObj_nib (i u v : Nat) (k : Nat) : (s.setObj i u v).nib k = s.nib k := rfl
@[simp] theorem setObj_quill (i u v : Nat) (k : Nat) : (s.setObj i u v).quill k = s.quill k := rfl
@[simp] theorem setObj_now (i u v : Nat) : (s.setObj i u v).now = s.now := rfl
@[simp] theorem setObj_nibQuire (i u v : Nat) (k : Nat) : (s.setObj i u v).nibQuire k = s.nibQuire k := rfl
@[simp] theorem setObj_physNib (i u v : Nat) (k : Nat) : (s.setObj i u v).physNib k = s.physNib k := rfl
@[simp] theorem bump_nib (i u v : Nat) (k : Nat) : (s.bump i u v).nib k = s.nib k := rfl
@[simp] theorem bump_quill (i u v : Nat) (k : Nat) : (s.bump i u v).quill k = s.quill k := rfl
@[simp] theorem bump_now (i u v : Nat) : (s.bump i u v).now = s.now := rfl
@[simp] theorem bump_nibQuire (i u v : Nat) (k : Nat) : (s.bump i u v).nibQuire k = s.nibQuire k := rfl
@[simp] theorem bump_physNib (i u v : Nat) (k : Nat) : (s.bump i u v).physNib k = s.physNib k := rfl
@[simp] theorem setBlob_nib (i u : Nat) (v : List Byte) (k : Nat) : (s.setBlob i u v).nib k = s.nib k := rfl
@[simp] theorem setBlob_quill (i u : Nat) (v : List Byte) (k : Nat) : (s.setBlob i u v).quill k = s.quill k := rfl
@[simp] theorem setBlob_obj (i u : Nat) (v : List Byte) (j w : Nat) : (s.setBlob i u v).obj j w = s.obj j w := rfl
@[simp] theorem setBlob_now (i u : Nat) (v : List Byte) : (s.setBlob i u v).now = s.now := rfl
@[simp] theorem setBlob_nibQuire (i u : Nat) (v : List Byte) (k : Nat) : (s.setBlob i u v).nibQuire k = s.nibQuire k := rfl
@[simp] theorem setBlob_physNib (i u : Nat) (v : List Byte) (k : Nat) : (s.setBlob i u v).physNib k = s.physNib k := rfl
@[simp] theorem took_nib (k : Nat) : (s.took).nib k = s.nib k := rfl
@[simp] theorem took_quill (k : Nat) : (s.took).quill k = s.quill k := rfl
@[simp] theorem took_obj (j w : Nat) : (s.took).obj j w = s.obj j w := rfl
@[simp] theorem took_now : (s.took).now = s.now := rfl
@[simp] theorem took_nibQuire (k : Nat) : (s.took).nibQuire k = s.nibQuire k := rfl
@[simp] theorem took_physNib (k : Nat) : (s.took).physNib k = s.physNib k := rfl
@[simp] theorem setNib_quill (n : Nat) (x : Nib) (k : Nat) : (s.setNib n x).quill k = s.quill k := rfl
@[simp] theorem setNib_obj (n : Nat) (x : Nib) (j w : Nat) : (s.setNib n x).obj j w = s.obj j w := rfl
@[simp] theorem setNib_now (n : Nat) (x : Nib) : (s.setNib n x).now = s.now := rfl
@[simp] theorem setNib_nibQuire (n : Nat) (x : Nib) (k : Nat) : (s.setNib n x).nibQuire k = s.nibQuire k := rfl
@[simp] theorem setNib_physNib (n : Nat) (x : Nib) (k : Nat) : (s.setNib n x).physNib k = s.physNib k := rfl
@[simp] theorem updNib_quill (n : Nat) (f : Nib → Nib) (k : Nat) : (s.updNib n f).quill k = s.quill k := rfl
@[simp] theorem updNib_obj (n : Nat) (f : Nib → Nib) (j w : Nat) : (s.updNib n f).obj j w = s.obj j w := rfl
@[simp] theorem updNib_now (n : Nat) (f : Nib → Nib) : (s.updNib n f).now = s.now := rfl
@[simp] theorem updNib_nibQuire (n : Nat) (f : Nib → Nib) (k : Nat) : (s.updNib n f).nibQuire k = s.nibQuire k := rfl
@[simp] theorem updNib_physNib (n : Nat) (f : Nib → Nib) (k : Nat) : (s.updNib n f).physNib k = s.physNib k := rfl
@[simp] theorem setQuill_nib (q : Nat) (x : Quill) (k : Nat) : (s.setQuill q x).nib k = s.nib k := rfl
@[simp] theorem setQuill_obj (q : Nat) (x : Quill) (j w : Nat) : (s.setQuill q x).obj j w = s.obj j w := rfl
@[simp] theorem setQuill_now (q : Nat) (x : Quill) : (s.setQuill q x).now = s.now := rfl
@[simp] theorem setQuill_nibQuire (q : Nat) (x : Quill) (k : Nat) : (s.setQuill q x).nibQuire k = s.nibQuire k := rfl
@[simp] theorem setQuill_physNib (q : Nat) (x : Quill) (k : Nat) : (s.setQuill q x).physNib k = s.physNib k := rfl
@[simp] theorem updQuill_nib (q : Nat) (f : Quill → Quill) (k : Nat) : (s.updQuill q f).nib k = s.nib k := rfl
@[simp] theorem updQuill_obj (q : Nat) (f : Quill → Quill) (j w : Nat) : (s.updQuill q f).obj j w = s.obj j w := rfl
@[simp] theorem updQuill_now (q : Nat) (f : Quill → Quill) : (s.updQuill q f).now = s.now := rfl
@[simp] theorem updQuill_nibQuire (q : Nat) (f : Quill → Quill) (k : Nat) : (s.updQuill q f).nibQuire k = s.nibQuire k := rfl
@[simp] theorem updQuill_physNib (q : Nat) (f : Quill → Quill) (k : Nat) : (s.updQuill q f).physNib k = s.physNib k := rfl

end Sys2Proof.Machine.State
end

