-- ==== Sys2Proof/Laws/Fuses.lean ====
section
/-! SUPPORT. The fuses through the shared operations: none of them changes a fuse. -/

namespace Sys2Proof.Machine.State

/-- A fold of changes that leave the fuses leaves the fuses. -/
theorem foldl_fuses {α : Type} (f : State → α → State) (hf : ∀ s a, (f s a).fuses = s.fuses) (l : List α) (s : State) :
    (l.foldl f s).fuses = s.fuses := by
  induction l generalizing s with
  | nil => rfl
  | cons a l ih => rw [List.foldl_cons, ih, hf]

@[simp] theorem placeRsp_fuses (s : State) : s.placeRsp.fuses = s.fuses := by unfold placeRsp; split <;> rfl
@[simp] theorem placeEvt_fuses (s : State) : s.placeEvt.fuses = s.fuses := by unfold placeEvt; split <;> rfl

@[simp] theorem lapRespond_fuses (s : State) (d : Source) (m : List Byte) : (s.lapRespond d m).fuses = s.fuses := by
  cases d <;> simp [lapRespond]

@[simp] theorem lapEvent_fuses (s : State) (x : Session) (rs : List EventRec) (n : Nat) : (s.lapEvent x rs n).fuses = s.fuses := by
  unfold lapEvent; split <;> simp

@[simp] theorem event_fuses (s : State) (c p d : Nat) : (s.event c p d).fuses = s.fuses := by
  simp only [event]
  split
  · rfl
  · exact (foldl_fuses _ (fun _ _ => lapEvent_fuses ..) _ _).trans rfl

@[simp] theorem setBinding_fuses (s : State) (f : FnState) : (s.setBinding f).fuses = s.fuses := by
  simp only [setBinding]; split <;> simp

@[simp] theorem mapNibs_fuses (s : State) (f : Nib → Nib) : (s.mapNibs f).fuses = s.fuses := rfl
@[simp] theorem updNib_fuses' (s : State) (n : Nat) (f : Nib → Nib) : (s.updNib n f).fuses = s.fuses := rfl
@[simp] theorem vacate_fuses (s : State) : s.vacate.fuses = s.fuses := rfl
@[simp] theorem stopMirror_fuses (s : State) : s.stopMirror.fuses = s.fuses := rfl

@[simp] theorem relayBlot_fuses (s : State) (i : Nat) (k : Option Nat) : (s.relayBlot i k).fuses = s.fuses := by
  refine foldl_fuses _ (fun s q => ?_) _ _
  split <;> rfl

@[simp] theorem stopSend_fuses (s : State) (n : Nat) (o : InFlight) (k : Nat) : (s.stopSend n o k).fuses = s.fuses := by
  unfold stopSend; split <;> rfl

@[simp] theorem stopSends_fuses (s : State) : s.stopSends.fuses = s.fuses := by
  refine foldl_fuses _ (fun s x => ?_) _ _
  dsimp only
  split <;> simp

/-- An event that may not happen leaves the fuses. -/
@[simp] theorem eventIf_fuses (p : Bool) (s : State) (c i d : Nat) : (if p then s.event c i d else s).fuses = s.fuses := by
  cases p <;> simp

@[simp] theorem beginAbort_fuses (s : State) (r o b : Nat) : (s.beginAbort r o b).fuses = s.fuses := by
  simp only [beginAbort, stopMirror_fuses, vacate_fuses, mapNibs_fuses, stopSends_fuses, eventIf_fuses, setBinding_fuses, bump_fuses]

@[simp] theorem blot_fuses (s : State) (r : Nat) : (s.blot r).fuses = s.fuses := by
  simp only [blot]
  split
  · rfl
  · simp only [beginAbort_fuses, event_fuses]
    split <;> simp

@[simp] theorem firstFault_fuses (s : State) (i u q r : Nat) : (s.firstFault i u q r).fuses = s.fuses := by
  simp only [firstFault]; split <;> simp

@[simp] theorem nibFault_fuses (s : State) (n : Nat) (f : FaultInfo) : (s.nibFault n f).fuses = s.fuses := by
  simp only [nibFault, blot_fuses]
  split <;> simp

@[simp] theorem issueFault_fuses (s : State) (n c d : Nat) (h : Option Nat) : (s.issueFault n c h d).fuses = s.fuses := nibFault_fuses ..

@[simp] theorem moveIssue_fuses (s : State) (n a : Nat) : (s.moveIssue n a).fuses = s.fuses := by
  simp only [moveIssue]; split <;> simp

@[simp] theorem progress_fuses' (s : State) (n u : Nat) : (s.progress n u).fuses = s.fuses := rfl

@[simp] theorem advance_fuses (s : State) (n : Nat) : (s.advance n).fuses = s.fuses := by simp [advance]

@[simp] theorem issued_fuses (s : State) (n : Nat) : (s.issued n).fuses = s.fuses := by simp [issued]

/-- Issuing an instruction leaves the fuses where its effect does. -/
theorem issue_fuses (s t : State) (n op w : Nat) (resv : Bool) (eff : State → Issued)
    (h : match eff s with
      | .fault _ _ _ => True
      | .wait _ => True
      | .go u => u.fuses = s.fuses
      | .jump u _ => u.fuses = s.fuses
      | .stop u => u.fuses = s.fuses) (ht : s.issue n op w resv eff = .next t) : t.fuses = s.fuses := by
  unfold issue at ht
  split at ht
  · exact nomatch ht
  split at ht
  · injection ht with ht; rw [← ht]
  split at ht
  · injection ht with ht; rw [← ht]; simp
  split at ht
  · injection ht with ht; rw [← ht]; simp
  split at ht <;> rename_i e <;> rw [e] at h <;> injection ht with ht <;> subst ht <;>
    first | exact h | (simp; done) | (simp; exact h)

@[simp] theorem meetBlock_fuses (s : State) (b k : Nat) : (s.meetBlock b k).1.fuses = s.fuses := by
  simp only [meetBlock]
  split
  · simp
  split
  · simp
  split <;> simp

@[simp] theorem meetBlocks_fuses (l : List (Nat × Nat)) (s : State) : (s.meetBlocks l).1.fuses = s.fuses := by
  induction l generalizing s with
  | nil => rfl
  | cons e l ih => simp only [meetBlocks]; rw [ih, meetBlock_fuses]

@[simp] theorem meetLinks_fuses (l : List (Nat × Option LinkEcc)) (s : State) : (s.meetLinks l).1.fuses = s.fuses := by
  induction l generalizing s with
  | nil => rfl
  | cons e l ih =>
    simp only [meetLinks]
    rw [ih]
    split
    · simp
    · split <;> simp
    · simp
    · rfl

@[simp] theorem readBlocks_fuses (s : State) (p : Nat → Bool) : (s.readBlocks p).1.fuses = s.fuses := by
  simp only [readBlocks, meetBlocks_fuses]
  exact (foldl_fuses _ (fun s _ => bump_fuses s _ _ _) _ _).trans (meetLinks_fuses ..)

@[simp] theorem deskRead_fuses (s : State) (a n : Nat) : (s.deskRead a n).1.fuses = s.fuses := readBlocks_fuses ..
@[simp] theorem deskMerge_fuses (s : State) (a n : Nat) : (s.deskMerge a n).1.fuses = s.fuses := readBlocks_fuses ..
@[simp] theorem deskPut_fuses' (s : State) (a : Nat) (bs : List Byte) : (s.deskPut a bs).fuses = s.fuses := rfl

@[simp] theorem walk_fuses (s : State) (va : Nat) (k : Access) : (s.walk va k).1.fuses = s.fuses := by
  simp only [walk]
  split
  · simp
  split
  · simp
  split
  · simp
  split
  · simp
  split
  · simp
  split <;> simp

@[simp] theorem translateFor_fuses (s : State) (va : Nat) (k : Access) : (s.translateFor va k).1.fuses = s.fuses := by
  have w : ∀ u : State, u.fuses = s.fuses → ((match (u.walk va k).2.2 with
      | some e =>
        if (u.walk va k).1.desk.tlb.length < 8192 then
          ({ (u.walk va k).1 with desk := { (u.walk va k).1.desk with tlb := SMap.set 0 (u.walk va k).1.desk.tlb (va / 2 ^ 21) e } },
            (u.walk va k).2.1)
        else ((u.walk va k).1, (u.walk va k).2.1)
      | none => ((u.walk va k).1, (u.walk va k).2.1)) : State × Trans).1.fuses = s.fuses := by
    intro u hu
    split
    · split <;> simp [hu]
    · simp [hu]
  simp only [translateFor]
  split
  · exact w s rfl
  split
  · rfl
  split
  · rfl
  · exact w s.took rfl

@[simp] theorem meetWord_fuses (s : State) (n w b : Nat) : (s.meetWord n w b).1.fuses = s.fuses := by
  simp only [meetWord]
  split
  · simp
  split
  · simp [countUe]
  split <;> simp [countUe]

@[simp] theorem meetWords_fuses (n : Nat) (l : List (Nat × Nat)) (s : State) : (s.meetWords n l).1.fuses = s.fuses := by
  induction l generalizing s with
  | nil => rfl
  | cons e l ih =>
    simp only [meetWords]
    split
    · simp
    · rw [ih, meetWord_fuses]

@[simp] theorem readStores_fuses (s : State) (n : Nat) (rs : List (Nat × Nat)) : (s.readStores n rs).1.fuses = s.fuses := meetWords_fuses ..
@[simp] theorem mergePart_fuses (s : State) (n : Nat) (rs whole : List (Nat × Nat)) : (s.mergePart n rs whole).1.fuses = s.fuses := by
  simp only [mergePart]; split <;> simp
@[simp] theorem mergeStores_fuses (s : State) (n : Nat) (rs : List (Nat × Nat)) : (s.mergeStores n rs).1.fuses = s.fuses :=
  mergePart_fuses ..

end Sys2Proof.Machine.State
end

