-- ==== Sys2Proof/Laws/Issue.lean ====
section
/-! SUPPORT. What offering a word to the issue unit comes to, so that no later proof unfolds it. -/

namespace Sys2Proof.Machine

/-- What the issue unit makes of an instruction's effect. -/
def Issued.outcome (s : State) (n : Nat) : Issued → Out
  | .fault code h d => .next (s.issueFault n code h d)
  | .wait h => .next (s.updNib n fun x => { x with issue := { x.issue with hold := h } })
  | .go t => .next (t.issued n)
  | .jump t a => .next ((t.progress n 0).moveIssue n a)
  | .stop t => .next t

/-- A ready word with its reserved bits in order takes its effect. -/
theorem State.issue_ready {s : State} {n op : Nat} {w : BitVec 64} (h : s.ready n op w) {resv : Bool} (hr : resv = true)
    (eff : State → Issued) : s.issue n op w.toNat resv eff = (eff s).outcome s n := by
  obtain ⟨h1, h2, h3, h4⟩ := h
  subst hr
  unfold State.issue
  simp only [h2, ne_eq, not_true_eq_false, decide_false, Bool.false_and, Bool.false_eq_true, if_false, h1, Bool.not_true, h3, h4,
    Bool.or_self]
  cases eff s <;> rfl

/-- A word of another row's opcode is no command of the row. -/
theorem State.issue_illFormed (s : State) (n op : Nat) (w : Nat) (resv : Bool) (eff : State → Issued)
    (h : wordOp w ≠ op) (ho : opcodes.contains (wordOp w) = true) : s.issue n op w resv eff = .fault .illFormed := by
  unfold State.issue
  rw [if_pos (by simp [h]; simpa using ho)]

/-- A reserved OP, PRED, bit or code raises the encoding fault. -/
theorem State.issue_encoding (s : State) (n op : Nat) (w : Nat) (resv : Bool) (eff : State → Issued)
    (hi : s.issues n = true) (h : ¬(wordOp w ≠ op ∧ opcodes.contains (wordOp w) = true))
    (hb : wordOp w ≠ op ∨ predOk (wordPred w) = false ∨ resv = false) :
    s.issue n op w resv eff = .next (s.issueFault n 0x01 none 0) := by
  unfold State.issue
  rw [if_neg (by simpa using h), if_neg (by simp [hi]), if_pos]
  rcases hb with hb | hb | hb <;> simp [hb]

/-- A false predicate lets the instruction take its issue cycle and nothing else. -/
theorem State.issue_skip (s : State) (n op : Nat) (w : Nat) (resv : Bool) (eff : State → Issued)
    (hi : s.issues n = true) (h : wordOp w = op) (hr : resv = true) (hp : predOk (wordPred w) = true)
    (hf : (s.nib n).predTrue (wordPred w) = false) : s.issue n op w resv eff = .next (s.issued n) := by
  subst hr
  unfold State.issue
  simp only [h, ne_eq, not_true_eq_false, decide_false, Bool.false_and, Bool.false_eq_true, if_false, hi, Bool.not_true, hp, hf,
    Bool.or_self, Bool.not_false, if_true]
  rfl

/-- The loop unit moves on where no active body ends. -/
theorem loopNext_plain (x : Nib) (a t : Nat) (ls : List LoopLevel) (h : ∀ l, ls.head? = some l → l.last ≠ a) :
    loopNext x a t ls = (ls, t) := by
  cases ls with
  | nil => rfl
  | cons l ls =>
    have := h l rfl
    simp only [loopNext]
    rw [if_pos (fun h' => this h'.symm)]

end Sys2Proof.Machine
end

