-- ==== Sys2Proof/Laws/Nibs.lean ====
section
/-! SUPPORT. What a change of every nib leaves at one nib. -/

namespace Sys2Proof.Machine.State

variable (s : State)

/-- A change of every nib that keeps a fresh one reads, at each nib, as that change. -/
theorem nib_mapNibs (f : Nib → Nib) (n : Nat) (h : f Nib.fresh = Nib.fresh) : (s.mapNibs f).nib n = f (s.nib n) :=
  SMap.get_mapVals _ _ _ _ h

/-- A change of the nibs of the declared grid reads there as that change, and leaves every other nib alone. -/
theorem nib_mapGrid (f : Nib → Nib) (n : Nat) (h : f Nib.fresh = Nib.fresh) :
    (s.mapGrid f).nib n = if s.inGrid (n / 64) (n % 64) = true then f (s.nib n) else s.nib n := by
  refine SMap.get_mapVals _ _ _ _ ?_
  split
  · exact h
  · rfl

/-- Starting keeps a nib that was not placed. -/
theorem startNib_fresh : startNib Nib.fresh = Nib.fresh := rfl

/-- Nibs that take tags are those that hold nothing; all else that a nib holds reads as before. -/
theorem get_fillTags {α : Type} (g : Nib → α) (t : Tags) (hg : g { tags := t } = g Nib.fresh) (n k : Nat) (m : SMap Nib) (j : Nat) :
    g (SMap.get Nib.fresh (fillTags t n k m) j) = g (SMap.get Nib.fresh m j) := by
  induction n generalizing k with
  | zero => rfl
  | succ n ih =>
    simp only [fillTags]
    split
    · exact ih (k + 1)
    · rename_i hk
      by_cases hj : j = k
      · subst hj
        rw [SMap.get_insert_same, hg, SMap.get_unlisted _ _ _ fun e he h => hk (List.any_eq_true.2 ⟨e, he, by simp [h]⟩)]
      · rw [SMap.get_insert_other _ _ _ _ _ hj]; exact ih (k + 1)

end Sys2Proof.Machine.State
end

