-- ==== Sys2Proof/WellFormed.lean ====
section
/-! DEFINITION. Well-formed commands: words of their own row's opcode, and operands of the sizes the spec gives. -/

namespace Sys2Proof

/-- The word is one that the row with opcode `op` may carry: its own, or one whose OP no row lists, which faults at issue (04 R101,
log entry 1). -/
def wordFor (op : Nat) (w : BitVec 64) : Bool :=
  Machine.wordOp w.toNat = op || !Machine.opcodes.contains (Machine.wordOp w.toNat)

/-- A report names codewords of a stroke, and corrects at most seven symbols of one (09 R271). -/
def fecOk (f : Machine.FecReport) : Bool :=
  f.bad.all (fun k => k < 15) && f.framing.all (fun k => k < 15) && f.corrected.all fun c => c.1 < 15 && 1 ≤ c.2 && c.2 ≤ 7

/-- A desk block stands below the end of the largest data space, and a stray read differs in one of the address bits 39 to 6
(06 R178, R181). -/
def deskErrorOk (e : Machine.DeskError) : Bool :=
  match e with
  | .bits b k => b < 2 ^ 34 && 1 ≤ k && k ≤ 528
  | .link b _ => b < 2 ^ 34
  | .astray b k => b < 2 ^ 34 && 6 ≤ k && k ≤ 39

/-- Addresses have their sizes, and LAP comes from a UDP source (14 R427, 12 R362). -/
def Machine.MgmtFrame.wf : Machine.MgmtFrame → Bool
  | .tagged => true
  | .arp ip => ip.length = 4
  | .neighbour ip => ip.length = 16
  | .echo4 ip _ => ip.length = 4
  | .echo6 ip _ => ip.length = 16
  | .lap src dst port _ _ => src ≠ .mailbox && port < 65536 && (dst.length = 4 || dst.length = 16)
  | .ptp _ => true
  | .other => true

/-- A command that a sender can send. -/
def Instr.wf (i : Instr) : Bool :=
  match i with
  | .nop _ w => wordFor 0x00 w
  | .fence _ w => wordFor 0x01 w
  | .halt _ w => wordFor 0x02 w
  | .halted _ => true
  | .overlay _ w => wordFor 0x03 w
  | .dload _ w => wordFor 0x04 w
  | .esc _ w => wordFor 0x05 w
  | .loop _ w => wordFor 0x08 w
  | .ct _ w => wordFor 0x09 w
  | .cmp _ w => wordFor 0x0A w
  | .twait _ w => wordFor 0x10 w
  | .signal _ w => wordFor 0x11 w
  | .tbind _ w => wordFor 0x12 w
  | .mma _ w => wordFor 0x18 w
  | .mmaComplete _ => true
  | .vop _ w => wordFor 0x19 w
  | .vopComplete _ => true
  | .cvt _ w => wordFor 0x1B w
  | .cvtComplete _ => true
  | .send _ w => wordFor 0x20 w
  | .sendComplete _ => true
  | .recv _ w => wordFor 0x21 w
  | .recvComplete _ => true
  | .streamPacketArrival _ _ => true
  | .remoteSignalArrival _ _ => true
  | .rbase _ w => wordFor 0x28 w
  | .rfetch _ w => wordFor 0x29 w
  | .rstore _ w => wordFor 0x2A w
  | .rwait _ w => wordFor 0x2B w
  | .kappend _ w => wordFor 0x30 w
  | .kappendComplete _ => true
  | .kcommit _ w => wordFor 0x31 w
  | .kerase _ w => wordFor 0x32 w
  | .kmask _ w => wordFor 0x33 w
  | .kmaskComplete _ => true
  | .ktag _ w => wordFor 0x34 w
  | .nibFaulted _ => true
  | .patrolScrub _ us => us.all (fun u => 1 ≤ u.bits && (Machine.inOpstore (8 * u.word) || Machine.inWell (8 * u.word))) && (us.map fun u => u.word).Nodup
  | .chunkStart _ _ => true
  | .chunkComplete _ _ _ _ => true
  | .chunkFault _ _ _ _ => true
  | .chunkTimeout _ _ _ => true
  | .transferRetire _ _ => true
  | .resumeTransfer _ _ => true
  | .abortTransfer _ _ => true
  | .holdLimitExpiry _ => true
  | .translationFlush _ => true
  | .translationFlushComplete => true
  | .perBankRefresh _ found => found.mr4 < 256 && found.errors.all deskErrorOk
  | .refreshManagement _ => true
  | .wck2dqOscillatorRead _ _ => true
  | .writeLinkEccPoll _ => true
  | .drainDeadline begun => (begun.map fun b => b.1.val).Nodup
  | .preemptionComplete => true
  | .refLoss _ => true
  | .refReturn => true
  | .stretchStart _ _ => true
  | .stretchEnd _ _ => true
  | .stretchOverrun _ _ => true
  | .clockMargin _ _ => true
  | .marginLow _ _ => true
  | .timeClockTick => true
  | .lineBoundary cycles => (cycles.map fun c => c.1.val).Nodup
  | .stepRequest order => (order.cycles.map fun c => c.1.val).Nodup
  | .timeBlockReceive _ _ _ _ => true
  | .timeParentLoss => true
  | .holdoverLimitExpiry => true
  | .ptpMessageReceive _ => true
  | .ptpLoss => true
  | .ppsMissing => true
  | .strokeDecision _ => true
  | .rxFrameArrival _ _ f fec => f.payload.length ≤ 4096 && fecOk fec
  | .arrivalWindowClose _ => true
  | .quillPacketArrival _ _ => true
  | .penliftBlockReceive _ _ => true
  | .controlFieldSend _ => true
  | .controlFieldReceive _ ctl fec => ctl.length = 80 && fecOk fec
  | .linkFrameReceive _ ctl slot fec => ctl.length = 80 && slot.length = 576 && fecOk fec
  | .aseqAdvance _ => true
  | .linkReplay _ => true
  | .quillDown _ _ => true
  | .quillEnable _ _ => true
  | .quillDisable _ _ => true
  | .quillTrainingComplete _ => true
  | .identReceive _ ctl slot => ctl.length = 80 && slot.length = 576
  | .checkTimeout _ => true
  | .marginPacketForward _ _ => true
  | .marginRequestExecute _ => true
  | .marginResponseReceive _ => true
  | .requestTimeout _ => true
  | .parkLimitExpiry _ => true
  | .filterEntryExpiry => true
  | .mirrorWrite _ => true
  | .mirrorMark _ => true
  | .stageOpen _ => true
  | .stageCheck _ => true
  | .stageApply _ => true
  | .stageCancel _ => true
  | .stageDiscard _ => true
  | .stageApplyInstant => true
  | .openingEnd => true
  | .holdInNDrain => true
  | .placeStart _ => true
  | .placePut => true
  | .placeGet => true
  | .placeFill => true
  | .placeStartNib => true
  | .placeNop => true
  | .placeListComplete => true
  | .faultRecordClear _ => true
  | .lapOpen => true
  | .lapClose => true
  | .lapRead => true
  | .lapWrite => true
  | .lapKeepalive => true
  | .lapNonce => true
  | .lapEventAck => true
  | .ledgerRegisterWrite _ _ _ _ => true
  | .eventRepeat => true
  | .sessionIdleTimeout _ => true
  | .blobAssemblyTimeout _ => true
  | .nonceExpiry => true
  | .progressCheck => true
  | .hostBlot _ => true
  | .blotItemReceive _ _ => true
  | .blotKeyExpiry => true
  | .abortEnd => true
  | .blotterRecordComplete => true
  | .nibResetRequest _ _ => true
  | .computeResetRequest _ => true
  | .partResetRequest _ => true
  | .resetEscalation => true
  | .computeHeldLimit => true
  | .serviceTimeSave => true
  | .retirementClear _ => true
  | .blotterRegionMove _ _ => true
  | .rdu _ => true
  | .rds _ => true
  | .rdx _ => true
  | .wr _ => true
  | .wb _ => true
  | .cln _ => true
  | .birsp _ => true
  | .binvTimeout => true
  | .txlFlitReceive f => f.length = 256
  | .txlAckAdvance => true
  | .txlReplay => true
  | .txlFlitTimeout => true
  | .txlLinkDown => true
  | .txlLinkUp _ _ _ => true
  | .mailboxSubmit => true
  | .mailboxRspClear => true
  | .mailboxEvtClear => true
  | .mgmtFrameReceive f => f.wf
  | .mgmtAutonegotiation _ => true
  | .gradeAndStepping _ => true
  | .recoveryState _ => true
  | .dieTemperature _ sensors => sensors.length = 16
  | .coolantInletTemperature _ _ => true
  | .environmentFlags _ _ _ _ => true
  | .serialNumber _ => true
  | .macAndIpv4Address _ => true
  | .readVin _ _ => true
  | .readIin _ _ => true
  | .readPout _ _ => true
  | .readTemperature1 _ _ => true
  | .readTemperature2 _ _ => true
  | .statusWord _ => true
  | .statusInput _ => true
  | .statusTemperature _ => true
  | .clearFaults _ => true
  | .pmbusUnsupportedCommand _ => true
  | .powerUp => true
  | .bootSequence => true
  | .fwConfirm _ => true
  | .fwRaiseFloor _ => true
  | .fwInstall _ => true
  | .fwRevoke _ _ => true
  | .firmwareCommandComplete _ => true
  | .meas2Extend _ _ => true
  | .quoteRequest _ _ => true
  | .restoreDefaults _ => true
  | .blotInN => true
  | .holdInN => true
  | .ppsIn _ => true
  | .modRstNAssert => true
  | .modRstNRelease => true
  | .sidebandRearm _ => true
  | .sidebandStuck _ => true
  | .sidebandRearmWrite _ _ => true
  | .inputUndervoltage => true
  | .inputOvervoltage => true
  | .powerStageOvertemperature => true
  | .linkTestOff _ _ v => Machine.field v.toNat 1 0 = 0
  | .linkTestLane _ _ v => Machine.field v.toNat 1 0 = 1
  | .linkTestFramed _ _ v => Machine.field v.toNat 1 0 = 2
  | .checkerLock _ _ symbols => symbols.length = 64
  | .checkerLockLoss _ _ errors => errors ≤ 2048
  | .jtagBypass => true
  | .jtagIdcode => true
  | .jtagSamplePreload _ _ => true
  | .jtagExtest => true
  | .jtagExtestPulse => true
  | .jtagExtestTrain => true
  | .jtagClamp => true
  | .jtagHighz => true
  | .jtagManufacturing _ => true
  | .jtagTapReset => true
  | .resetStepComplete => true
  | .transactionIdRelease _ => true
  | .txlRequestCompletion _ => true

end Sys2Proof
end

