-- ==== Sys2Proof/Tests/Slice0.lean ====
section
/-! SUPPORT. Tests: ill-formed terms that the checks refuse, worked examples of the spec, and for each statement states and operands that
meet its hypotheses. -/

namespace Sys2Proof.Tests

open Sys2Proof.Machine

set_option Elab.async false

/-! ### Small states -/

/-- A nib that runs. -/
def runner : Nib := { issue := { run := .running } }

/-- A declaration of a grid of 128 rows and 64 columns. -/
def decl128 : List Byte := [128, 0, 64, 0] ++ List.replicate 60 0

/-- The state after reset with nib 0 as given and a declared grid. -/
def withNib (x : Nib) : State := { nibs := [(0, x)], blobs := [(0x2B00 * 256, decl128)] }

/-- The state after reset with nib 0 running. -/
def on0 : State := withNib runner

/-- An instruction word: opcode, predicate and the rest. -/
def word (op pred low : Nat) : BitVec 64 := BitVec.ofNat 64 (op * 2 ^ 58 + pred * 2 ^ 54 + low)

/-- `on0` with its job ON. -/
def onJob : State := { on0 with binding := { fn := { code := .on } } }

/-- An outcome that is `v`. -/
def okIs {ε α : Type} [DecidableEq α] (r : Except ε α) (v : α) : Bool :=
  match r with
  | .ok x => x = v
  | .error _ => false

/-! ### Witnesses: the queue and the issue of instructions -/

theorem witness_StepRunsFrontCommand :
    ({ on0 with pending := [.timeClockTick] } : State).pending = .timeClockTick :: [] ∧ State.reset.pending = [] := by decide +kernel

theorem witness_WordsOfEachRow : ∀ r ∈ instructionRows,
    (wordOp (word (if r.op = 0 then 1 else 0) 0 0).toNat ≠ r.op ∧
      opcodes.contains (wordOp (word (if r.op = 0 then 1 else 0) 0 0).toNat) = true) ∧
    (on0.issues 0 = true ∧ opcodes.contains (wordOp (word 0x3F 0 0).toNat) = false) ∧
    (on0.issues 0 = true ∧ wordOp (word r.op 7 0).toNat = r.op ∧ predOk (wordPred (word r.op 7 0).toNat) = false) ∧
    (wordOp (word r.op 0 (2 ^ 54 - 1)).toNat = r.op ∧ r.layout (word r.op 0 (2 ^ 54 - 1)).toNat = false) := by decide +kernel

theorem witness_FalsePredicateSkips : ∀ r ∈ instructionRows, r.op ≠ 0x08 →
    on0.issues 0 = true ∧ wordOp (word r.op 8 0).toNat = r.op ∧ (r.op ≠ 0x19 → r.layout (word r.op 8 0).toNat = true) ∧
    predOk (wordPred (word r.op 8 0).toNat) = true ∧ (on0.nib 0).predTrue (wordPred (word r.op 8 0).toNat) = false := by decide +kernel

/-- A nib in a loop body of addresses 5 and 6, at address `a`, in the iteration `i` of 3. -/
def looping (a i : Nat) : State :=
  withNib { issue := { run := .running, addr := a, loops := [⟨5, 6, 3, i, none⟩] } }

theorem witness_IssueMovesToNextAddress : on0.plain 0 ∧ (looping 5 1).plain 0 ∧ 0 ≠ 1 := by
  simp only [State.plain]; refine ⟨⟨by decide +kernel, by decide +kernel⟩, ⟨by decide +kernel, ?_⟩, by decide +kernel⟩
  intro l h; cases h; decide +kernel

/-- A nib with a matrix operation in flight. -/
def withOp : State := withNib { runner with slots := [⟨0, .mma, 0, 0, 0, 0, [], [], [], [], 0, 0, [], false, {}, 0, 0, none⟩] }

theorem witness_NopAndFence :
    (on0.ready 0 0x00 (word 0 0 0) ∧ field (word 0 0 0).toNat 53 0 = 0) ∧
    (on0.ready 0 0x01 (word 1 0 (3 * 2 ^ 52)) ∧ field (word 1 0 (3 * 2 ^ 52)).toNat 51 0 = 0 ∧
      (bit (word 1 0 (3 * 2 ^ 52)).toNat 53 = true → (on0.nib 0).slots = []) ∧
      (bit (word 1 0 (3 * 2 ^ 52)).toNat 52 = true → (on0.nib 0).resIdle = true)) ∧
    (withOp.ready 0 0x01 (word 1 0 (2 ^ 53)) ∧
      ¬((bit (word 1 0 (2 ^ 53)).toNat 53 = true → (withOp.nib 0).slots = []) ∧
        (bit (word 1 0 (2 ^ 53)).toNat 52 = true → (withOp.nib 0).resIdle = true))) := by
  simp only [State.ready]; decide +kernel

theorem witness_NibsComeToRest :
    (on0.ready 0 0x02 (word 2 0 (0xFFFF * 2 ^ 38)) ∧ field (word 2 0 (0xFFFF * 2 ^ 38)).toNat 37 0 = 0) ∧
    (((withNib { issue := { run := .halting } }).nib 0).issue.run = .halting ∧ (on0.nib 0).slots = [] ∧ (on0.nib 0).resIdle = true ∧
      on0.binding.halted = 0) ∧
    (((withNib { issue := { run := .faulting } }).nib 0).issue.run = .faulting) := by
  simp only [State.ready]; decide +kernel

theorem witness_FaultAtIssue : on0.mayBlot = false ∧ onJob.mayBlot = true := by decide +kernel

theorem witness_OverlayDloadEsc :
    (on0.ready 0 0x03 (word 3 0 (0x80000 * 2 ^ 34 + 512 * 2 ^ 15)) ∧
      field (word 3 0 (0x80000 * 2 ^ 34 + 512 * 2 ^ 15)).toNat 2 0 = 0 ∧
      (field (word 3 0 (0x80000 * 2 ^ 34 + 512 * 2 ^ 15)).toNat 53 34 * 8) % 64 = 0 ∧
      inWell (field (word 3 0 (0x80000 * 2 ^ 34 + 512 * 2 ^ 15)).toNat 53 34 * 8) = true ∧
      rangeFault (0x80000 * 8, 8 * (512 * 8)) = none ∧ 0 * 8 + 512 * 8 ≤ 4096 ∧ (on0.nib 0).issue.loops = [] ∧
      (on0.nib 0).rangeBusy [(0x80000 * 8, 8 * (512 * 8))] [] = false ∧ (on0.nib 0).ecc = [] ∧
      on0.fetching 0 [(0x80000 * 8, 8 * (512 * 8))] = []) ∧
    (on0.ready 0 0x04 (word 4 0 (511 * 2 ^ 45)) ∧ field (word 4 0 (511 * 2 ^ 45)).toNat 24 0 = 0 ∧ rangeFault (0, 40) = none ∧
      ((on0.nib 0).slots.any fun o => o.writesHandle 511) = false ∧ (on0.nib 0).rangeBusy [(0, 40)] [] = false ∧
      on0.fetching 0 [(0, 40)] = []) ∧
    (on0.ready 0 0x05 (word 5 0 (3 * 2 ^ 23)) ∧ field (word 5 0 (3 * 2 ^ 23)).toNat 22 0 = 0 ∧ rangeFault (0, 8) = none ∧
      (on0.nib 0).rangeBusy [] [(0, 8)] = false) := by
  simp only [State.ready]; decide +kernel

/-- A nib with four loop levels active. -/
def nested : State :=
  withNib { issue := { run := .running, addr := 1, loops := List.replicate 4 ⟨0, 9, 2, 0, none⟩ } }

/-- Nib 0 at the end of the body of `looping`, with the comparator CMP0 always true as its exit. -/
def exiting : State :=
  withNib { issue := { run := .running, addr := 6, loops := [⟨5, 6, 3, 0, some 0⟩] }, cmps := [(0, { rel := 7 })] }

/-- Nib 0 may issue the loop word `w`, whose body ends after it. -/
def loopReady (s : State) (w : BitVec 64) : Bool :=
  s.issues 0 && wordOp w.toNat = 0x08 && wordPred w.toNat = 0 && field w.toNat 21 0 = 0 &&
    (!bit w.toNat 41 || field w.toNat 40 28 = 0) && (s.nib 0).issue.addr < field w.toNat 53 42

theorem witness_LoopEntry :
    ([on0, looping 5 0, nested].all fun s => loopReady s (word 8 0 (9 * 2 ^ 42)) &&
      loopReady s (word 8 0 (9 * 2 ^ 42 + 0xFFFF * 2 ^ 25))) = true ∧
    (field (word 8 0 (9 * 2 ^ 42)).toNat 40 25 = 0 ∧ (on0.nib 0).issue.loops.head? = none) ∧
    (field (word 8 0 (9 * 2 ^ 42 + 0xFFFF * 2 ^ 25)).toNat 40 25 = 65535 ∧ (on0.nib 0).issue.loops.length < 4) ∧
    4 ≤ (nested.nib 0).issue.loops.length ∧
    ((looping 5 0).nib 0).issue.loops.head? = some ⟨5, 6, 3, 0, none⟩ ∧ 6 < 9 := by decide +kernel

theorem witness_LoopEnd :
    (((looping 6 1).nib 0).issue.loops = [⟨5, 6, 3, 1, none⟩] ∧ ((looping 6 1).nib 0).issue.addr = 6 ∧ 1 + 1 ≠ 3) ∧
    (((looping 6 2).nib 0).issue.loops = [⟨5, 6, 3, 2, none⟩] ∧ 2 + 1 = 3) ∧
    ((exiting.nib 0).issue.loops = [⟨5, 6, 3, 0, some 0⟩] ∧ (exiting.nib 0).cmpOut 0 = true) := by decide +kernel

theorem witness_CtFunctions : ∀ fn < 8,
    on0.ready 0 0x09 (word 9 0 (7 * 2 ^ 51 + fn * 2 ^ 48 + 0xFFFFFFFF * 2 ^ 11)) ∧
    field (word 9 0 (7 * 2 ^ 51 + fn * 2 ^ 48 + 0xFFFFFFFF * 2 ^ 11)).toNat 10 0 = 0 ∧
    field (word 9 0 (7 * 2 ^ 51 + fn * 2 ^ 48 + 0xFFFFFFFF * 2 ^ 11)).toNat 50 48 = fn := by
  simp only [State.ready]; decide +kernel

theorem witness_CounterWritten : (0 : Nat) ≠ 7 := by decide +kernel

theorem witness_CmpKtagRbase :
    (on0.ready 0 0x0A (word 0x0A 0 0) ∧ field (word 0x0A 0 0).toNat 9 0 = 0) ∧
    (on0.ready 0 0x34 (word 0x34 0 (2 ^ 54 - 2 ^ 40)) ∧ field (word 0x34 0 (2 ^ 54 - 2 ^ 40)).toNat 39 0 = 0 ∧
      (on0.nib 0).inbox = [] ∧ (∀ o ∈ (on0.nib 0).slots, o.kind ≠ .recv)) ∧
    (on0.ready 0 0x28 (word 0x28 0 (2 ^ 54 - 2 ^ 11)) ∧ field (word 0x28 0 (2 ^ 54 - 2 ^ 11)).toNat 10 0 = 0) := by
  simp only [State.ready]; decide +kernel

/-! ### Witnesses: tokens, engines, streams and reservoirs -/

/-- A descriptor of one dimension: format code, extent field and base. -/
def vec (f e base : Nat) : Nat := base + f * 2 ^ 23 + 2 ^ 42 + e * 2 ^ 128

/-- A descriptor of two dimensions, rows 64 B apart: format code, extent fields and base. -/
def mat (f e0 e1 base : Nat) : Nat := base + f * 2 ^ 23 + 2 * 2 ^ 42 + e0 * 2 ^ 128 + e1 * 2 ^ 144 + 64 * 2 ^ 208

/-- A nib that runs, with FP32 operands of one element at handles 0 (a matrix), 1 and 2, a vector of 64 bytes in the well at handle 3,
and the same number of bytes in the operand store at handle 4. -/
def equipped : Nib := { runner with descs :=
  [(0, mat 0 0 0 0), (1, vec 0 0 0x40), (2, vec 0 0 0x80), (3, vec 8 63 0x400000), (4, vec 8 63 0x100)] }

/-- Nib 0 with a DATA token and a DONE token of KIND 0 in queue 0, and three words of a twait. -/
def queued : State := withNib { runner with queues := [(0, [0x2000007, 9])] }
def twaitStore : BitVec 64 := word 0x10 0 (4 * 2 ^ 40 + 2 ^ 39)
def twaitEvent : BitVec 64 := word 0x10 0 (8 * 2 ^ 40)
def twaitMany : BitVec 64 := word 0x10 0 (63 * 2 ^ 44 + 5 * 2 ^ 40)

theorem witness_TwaitDequeues :
    (queued.ready 0 0x10 twaitStore ∧ field twaitStore.toNat 35 0 = 0 ∧ (queued.nib 0).issue.hold = .none ∧
      bit (field twaitStore.toNat 43 40) (field 0x2000007 25 24) = true ∧ 0 = field twaitStore.toNat 49 44 ∧
      (queued.nib 0).queue 0 = [] ++ 0x2000007 :: [9]) ∧
    (queued.ready 0 0x10 twaitEvent ∧ bit (field twaitEvent.toNat 43 40) (field 0x2000007 25 24) = false) ∧
    (queued.ready 0 0x10 twaitMany ∧
      (([0x2000007, 9] : List Nat).all fun u => bit (field twaitMany.toNat 43 40) (field u 25 24)) = true ∧
      2 ≤ field twaitMany.toNat 49 44 ∧ (queued.nib 0).queue 0 = [0x2000007, 9]) := by
  simp only [State.ready]; decide +kernel

/-- Nib 0 with queue 0 full. -/
def fullQueue : State := withNib { runner with queues := [(0, List.replicate 64 1)] }

theorem witness_SignalSends :
    (([on0, fullQueue] : List State).all fun s => [word 0x11 0 (2 ^ 34), word 0x11 0 (2 ^ 52 + 127 * 2 ^ 45 + 63 * 2 ^ 39)].all fun w =>
      (s.issues 0 && wordOp w.toNat = 0x11 && predOk (wordPred w.toNat) && (s.nib 0).predTrue (wordPred w.toNat) &&
        field w.toNat 9 0 = 0 && field w.toNat 53 52 ≤ 1 && (!bit w.toNat 34 || field w.toNat 30 10 = 0))) = true ∧
    (on0.nib 0).room 0 = true ∧ (fullQueue.nib 0).room 0 = false ∧ on0.inGrid 127 63 = true ∧
    ({ on0 with blobs := [] } : State).inGrid 127 63 = false := by decide +kernel

theorem witness_TbindBindsDoorbell : ∀ b < 2, on0.ready 0 0x12 (word 0x12 0 (b * 2 ^ 49)) ∧
    field (word 0x12 0 (b * 2 ^ 49)).toNat 48 0 = 0 ∧ bit (word 0x12 0 (b * 2 ^ 49)).toNat 49 = (b = 1) := by
  simp only [State.ready]; decide +kernel

/-- Nib 0 with its operands. -/
def ready0 : State := withNib equipped

/-- The words of an mma of handles 0 and 1 into 2, of a vop of fn 0 and of a cvt, of 1 into 2. -/
def mmaWord : BitVec 64 := word 0x18 0 (2 * 2 ^ 45 + 0 * 2 ^ 36 + 1 * 2 ^ 27)
def vopWord : BitVec 64 := word 0x19 0 (2 * 2 ^ 45 + 1 * 2 ^ 36 + 1 * 2 ^ 27)
def cvtWord : BitVec 64 := word 0x1B 0 (2 * 2 ^ 45 + 1 * 2 ^ 36)

/-- The operands of handles 0, 1 and 2. -/
def opA : Tensor := ⟨0, mat 0 0 0 0, 0, 0⟩
def opB : Tensor := ⟨1, vec 0 0 0x40, 0x40, 0⟩
def opD : Tensor := ⟨2, vec 0 0 0x80, 0x80, 0⟩

theorem witness_EngineOperationsIssue :
    (ready0.nib 0).freeSlotNo = some 0 ∧
    (ready0.ready 0 0x18 mmaWord ∧ field mmaWord.toNat 20 0 = 0 ∧
      okIs ((ready0.nib 0).operands [(0, false), (1, false), (2, true)]) ([opA, opB, opD]) = true ∧ mmaFault opD opA opB = none ∧
      (ready0.nib 0).rangeBusy (opA.ranges ++ opB.ranges) opD.ranges = false ∧
      mmaFault opD opB opB = some (.fault 4 (some 1) 1)) ∧
    (ready0.ready 0 0x19 vopWord ∧ vopReserved vopWord.toNat = true ∧
      okIs ((ready0.nib 0).operands ((2, true) :: (vopHandles vopWord.toNat).map fun h => (h, false))) (opD :: [opB, opB]) = true ∧
      vopFault 0 false opD [opB, opB] = none ∧
      vopFault 0 false opD [⟨3, vec 8 63 0x400000, 0x400000, 0⟩] ≠ none) ∧
    (ready0.ready 0 0x1B cvtWord ∧ field cvtWord.toNat 30 0 = 0 ∧ okIs ((ready0.nib 0).operands [(1, false), (2, true)]) ([opB, opD]) = true ∧
      opB.scaleFault = false ∧ opD.scaleFault = false ∧ (∀ i < 5, opB.ext i = opD.ext i)) := by
  simp only [State.ready]; decide +kernel

/-- An operation of kind `k`, word `w` and operands `ts` in slot 0. -/
def op (k : OpKind) (w : Nat) (ts : List Tensor) : InFlight := ⟨0, k, w, 7, 1, 1, ts, [], [], [0x7F], 0, 0, [], false, {}, 0, 0, none⟩

/-- Nib 0 with one operation in flight. -/
def flying (o : InFlight) : State := withNib { equipped with slots := [o] }

theorem witness_EngineOperationsComplete :
    ((flying (op .mma 0 [opD, opA, opB])).engineOp 0 .mma = some (op .mma 0 [opD, opA, opB]) ∧
      ((op .mma 0 [opD, opA, opB]).mmaWork.map fun k => (flying (op .mma 0 [opD, opA, opB])).fetching 0 k.srcs) = some []) ∧
    ((flying (op .vop 0 [opD, opB, opB])).engineOp 0 .vop = some (op .vop 0 [opD, opB, opB]) ∧
      ((op .vop 0 [opD, opB, opB]).vopWork.map fun k => (flying (op .vop 0 [opD, opB, opB])).fetching 0 k.srcs) = some []) ∧
    ((flying (op .cvt 0 [opD, opB])).engineOp 0 .cvt = some (op .cvt 0 [opD, opB]) ∧
      ((op .cvt 0 [opD, opB]).cvtWork.map fun k => (flying (op .cvt 0 [opD, opB])).fetching 0 k.srcs) = some []) ∧
    ((flying { op .kappend 0 [opA, opB] with writes := [(0x400000, 8), (0x410000, 8)] }).engineOp 0 .kappend =
        some { op .kappend 0 [opA, opB] with writes := [(0x400000, 8), (0x410000, 8)] } ∧
      (({ op .kappend 0 [opA, opB] with writes := [(0x400000, 8), (0x410000, 8)] } : InFlight).kappendWork.map fun k =>
        (flying { op .kappend 0 [opA, opB] with writes := [(0x400000, 8), (0x410000, 8)] }).fetching 0 k.srcs) = some []) ∧
    ((flying (op .kmask 0 [opD])).engineOp 0 .kmask = some (op .kmask 0 [opD]) ∧
      ((op .kmask 0 [opD]).kmaskWork.map fun k => (flying (op .kmask 0 [opD])).fetching 0 k.srcs) = some []) ∧ ((flying (op .kmask 0 [opD])).nib 0).ecc = [] ∧
    (op .mma 0 []).den.1 = false ∧ (op .mma (2 ^ 25) []).den.1 = true ∧ (on0.nib 0).room 0 = true ∧
    (fullQueue.nib 0).room 0 = false := by decide +kernel

/-- The words of a send of handle 3 to nib 0 and of a recv into it from queue 0. -/
def sendWord : BitVec 64 := word 0x20 0 (3 * 2 ^ 45)
def recvWord : BitVec 64 := word 0x21 0 (3 * 2 ^ 45)

/-- The vector of handle 3. -/
def opW : Tensor := ⟨3, vec 8 63 0x400000, 0x400000, 0⟩

/-- Nib 0 with a send in flight. -/
def sending : State := flying (op .send 0 [opW])

/-- The send stopped before its end, and at its end, by a pre-emption, and one of an aborted job. -/
def stoppedSend (k : Nat) : InFlight := { op .send 0 [opW] with stop := some k }
def endedJob : State := { sending with recovery := { ended := true } }

/-- A send to quill 1's landing buffer, and one to the margin engine, of handle 3. -/
def sendQuill : BitVec 64 := word 0x20 0 (3 * 2 ^ 45 + 2 ^ 43 + 2 ^ 39)
def sendMargin : BitVec 64 := word 0x20 0 (3 * 2 ^ 45 + 2 * 2 ^ 43)

theorem witness_SendMessages :
    ((([sendWord, sendQuill, sendMargin] : List (BitVec 64)).all fun w => decide (wordOp w.toNat = 0x20 ∧
        predOk (wordPred w.toNat) = true ∧ (ready0.nib 0).predTrue (wordPred w.toNat) = true ∧ sendReserved w.toNat = true ∧
        field w.toNat 53 45 = 3)) = true ∧ ready0.issues 0 = true ∧
      field sendWord.toNat 44 43 = 0 ∧ okIs ((ready0.nib 0).operands [(3, false)]) ([opW]) = true ∧ opW.scaleFault = false ∧
      ready0.inGrid (field sendWord.toNat 42 36) (field sendWord.toNat 35 30) = true ∧ (ready0.nib 0).streamBusy .sender = false ∧
      (ready0.nib 0).freeSlotNo = some 0 ∧ (ready0.nib 0).rangeBusy opW.ranges [] = false ∧ (ready0.nib 0).ecc = [] ∧
      ready0.fetching 0 opW.rowRanges = [] ∧ field sendQuill.toNat 44 43 = 1 ∧
      64 * field sendQuill.toNat 29 14 + opW.denseSize ≤ 65536 ∧ ready0.landTouched (field sendQuill.toNat 42 39) 0 opW.denseSize = false ∧
      field sendMargin.toNat 44 43 = 2 ∧ opW.denseSize - 64 ≤ 2048 ∧ ready0.marginRoom = true) ∧
    ((([sending, flying (stoppedSend 64), flying (stoppedSend 0), endedJob] : List State).all fun s => decide (
        s.engineOp 0 .send ≠ none ∧ s.flitsUnderway 0 (.nib 0) ≤ s.pathRoom 0 (.nib 0))) = true ∧
      sendDest (op .send 0 [opW]).word = some (.nib 0) ∧ sending.recovery.ended = false ∧ endedJob.recovery.ended = true ∧
      sending.engineOp 0 .send = some (op .send 0 [opW]) ∧ (op .send 0 [opW]).stop = none ∧
      (flying (stoppedSend 64)).engineOp 0 .send = some (stoppedSend 64) ∧ (stoppedSend 64).total ≤ 64 ∧
      (flying (stoppedSend 0)).engineOp 0 .send = some (stoppedSend 0) ∧ 0 < (stoppedSend 0).total) := by decide +kernel

/-- A recv of a landing buffer's first 64 bytes, and a quill 0 whose bytes there have landed. -/
def landRecv : InFlight := op .recv (2 ^ 23) [opW]
def landedState : State := { flying landRecv with quills := [(0, { ruled := { landed := (List.range 8).map fun i => (i, true) } })] }

theorem witness_RecvMessages :
    (ready0.ready 0 0x21 recvWord ∧ recvReserved recvWord.toNat = true ∧
      okIs ((ready0.nib 0).operands [(field recvWord.toNat 53 45, true)]) ([opW]) = true ∧ opW.scaleFault = false ∧
      field recvWord.toNat 24 23 = 0 ∧ (ready0.nib 0).streamBusy .receiver = false ∧ (ready0.nib 0).freeSlotNo = some 0 ∧
      (ready0.nib 0).rangeBusy [] opW.ranges = false) ∧
    ((flying (op .recv 0 [opW])).engineOp 0 .recv = some (op .recv 0 [opW]) ∧ field (op .recv 0 [opW]).word 24 23 = 0 ∧
      (op .recv 0 [opW]).left = 0) ∧
    (landedState.engineOp 0 .recv = some landRecv ∧ field landRecv.word 24 23 = 1 ∧ landedState.landed 0 0 opW.denseSize = true ∧
      landedState.landStampOk 0 0 0 opW.denseSize = true ∧ ((landedState.takeLanded 0 0 opW.denseSize).1.nib 0).ecc = []) := by
  simp only [State.ready]; decide +kernel

/-- A packet from nib 1 to nib 0, and the state in which it is under way. -/
def pkt (gen : Nat) (b : PacketBody) : Packet := ⟨1, .nib 0, gen, 0, b⟩
def underWay (gen gmask : Nat) (b : PacketBody) : State :=
  { withNib { runner with tags := { gmask := gmask } } with mesh := [pkt gen b] }

/-- A packet from nib 1 that waits at nib 3 fills the router inputs of its way, which a signal to nib 2 would pass too. -/
def blockedRoute : State := { nibs := [(3, { inbox := [⟨1, ⟨1, .nib 3, 0, 0, .data 0 0 1024 0 (List.replicate 1024 1) true⟩⟩] })]
                              mesh := [⟨1, .nib 2, 0, 0, .signal 0 1⟩], blobs := [(0x2B00 * 256, decl128)] }

theorem witness_PacketsArrive : ([PacketBody.signal 0 5, .data 0 0 64 0 (List.replicate 64 1) true].all fun b => decide (
    takePacket 1 (.nib 0) (underWay 7 0xFF b).mesh = some (pkt 7 b, []) ∧ ((underWay 7 0xFF b).nib 0).inbox = [] ∧
    (underWay 7 0xFF b).heldBack 1 (.nib 0) = false ∧ (underWay 7 0xFF b).recovery.ended = false ∧
    ((underWay 7 0xFF b).nib 0).issue.run = .running ∧ ((underWay 7 0xFF b).nib 0).accepts (pkt 7 b) = true ∧
    ((underWay 7 0xFF b).nib 0).room 0 = true ∧ ((underWay 7 0xFF b).nib 0).recvFor 0 = none ∧
    takePacket 1 (.nib 0) (underWay 7 0x7F b).mesh = some (pkt 7 b, []) ∧ (underWay 7 0x7F b).heldBack 1 (.nib 0) = false ∧
    ((underWay 7 0x7F b).nib 0).accepts (pkt 7 b) = false ∧
    (underWay 7 0x7F b).slowCrossings ((underWay 7 0x7F b).routeOf 1 (.nib 0)) = [])) = true ∧
    takePacket 1 (.nib 2) blockedRoute.mesh = some (⟨1, .nib 2, 0, 0, .signal 0 1⟩, []) ∧
    blockedRoute.heldBack 1 (.nib 2) = true := by decide +kernel

/-- A recv that waits for one message. -/
def oneRecv : InFlight := { op .recv 0 [opW] with left := 1 }

theorem witness_RecvTakesPackets :
    (oneRecv.admitted < oneRecv.left ∨ oneRecv.partials.contains 1 = true) ∧
    ((flying oneRecv).nib 0).recvFor 0 = some oneRecv ∧ oneRecv.tensors = opW :: [] ∧ oneRecv.admitted < oneRecv.left ∧ opW.denseSize < 1 + 64 ∧
    0 + 64 ≤ opW.denseSize ∧ ((flying oneRecv).nib 0).ecc = [] ∧ ((flying oneRecv).nib 0).room 0 = true := by decide +kernel

/-- A transfer of handle 3. -/
def moving (st : TransferState) : Transfer := ⟨0, 0, opW, 0, [], [], st⟩
def withTransfer (t : Transfer) : State := withNib { equipped with resq := [(0, [t])] }

theorem witness_ReservoirInstructions :
    ((ready0.ready 0 0x29 (word 0x29 0 (3 * 2 ^ 45)) ∧ ready0.ready 0 0x2A (word 0x2A 0 (3 * 2 ^ 45)) ∧
      field (word 0x29 0 (3 * 2 ^ 45)).toNat 6 0 = 0 ∧ field (word 0x29 0 (3 * 2 ^ 45)).toNat 53 45 = 3 ∧
      okIs ((ready0.nib 0).operands [(3, true)]) ([opW]) = true ∧ okIs ((ready0.nib 0).operands [(3, false)]) ([opW]) = true ∧ inWell opW.base = true ∧
      opW.scaled = false ∧ transferVa (ready0.nib 0) (word 0x29 0 (3 * 2 ^ 45)).toNat + opW.denseSize ≤ 2 ^ 47 ∧
      ((ready0.nib 0).resQueue 0).length < 64 ∧ ready0.ready 0 0x2B (word 0x2B 0 0) ∧ field (word 0x2B 0 0).toNat 45 0 = 0 ∧
      ((ready0.nib 0).resQueue (field (word 0x2B 0 0).toNat 53 52)).length ≤ field (word 0x2B 0 0).toNat 51 46)) ∧
    ((withTransfer (moving .active)).nib 0).resQueue 0 = [moving .active] ∧
    ((withTransfer (moving (.error 1))).nib 0).resQueue 0 = [moving (.error 1)] ∧
    (moving (.error 1)).isError = true ∧ (moving (.error 1)).flight = [] ∧ (moving .active).isError = false := by
  simp only [State.ready]; decide +kernel

/-! ### Witnesses: sequences, and the desk memory's side -/

/-- A binding of 64 B entries, keys at 0x400000, values at 0x500000, `cap` positions. -/
def bindingOf (cap : Nat) : Nat := 2 ^ 127 + 0x400000 * 2 ^ 103 + 0x500000 * 2 ^ 80 + 7 * 2 ^ 71 + 7 * 2 ^ 62 + cap * 2 ^ 42

/-- Nib 0 with operands and context 0 as given. -/
def withCtx (c : Context) : State := withNib { equipped with ctxs := SMap.set {} [] 0 c }

/-- A context with two drafts in a chain. -/
def chain : Context := ⟨bindingOf 8, 1, 2, [0x7F, 0], []⟩

/-- The words of a kappend of handle 4 twice, below the newest node, and of a kmask into handle 4. -/
def kappendWord : BitVec 64 := word 0x30 0 (4 * 2 ^ 39 + 4 * 2 ^ 22 + 1 * 2 ^ 15)
def kmaskWord : BitVec 64 := word 0x33 0 (5 * 2 ^ 39)

/-- The vector of handle 4, and a 64 by 64 mask of INT8. -/
def opK : Tensor := ⟨4, vec 8 63 0x100, 0x100, 0⟩
def maskD : Tensor := ⟨5, mat 8 63 63 0x1000, 0x1000, 0⟩

/-- Nib 0 with the chain and a mask's descriptor at handle 5. -/
def masking : State := withNib { equipped with ctxs := [(0, chain)], descs := equipped.descs ++ [(5, mat 8 63 63 0x1000)] }

theorem witness_KappendAndKmaskIssue :
    ((withCtx {}).ready 0 0x30 kappendWord ∧ (Context.bound {}) = false) ∧
    ((withCtx chain).ready 0 0x30 kappendWord ∧ field kappendWord.toNat 38 31 = 0 ∧ field kappendWord.toNat 9 0 = 0 ∧
      ((withCtx chain).nib 0).ctx (field kappendWord.toNat 53 48) = chain ∧ ((withCtx chain).nib 0).freeSlotNo = some 0 ∧
      chain.bound = true ∧ okIs (((withCtx chain).nib 0).operands [(4, false), (4, false)]) [opK, opK] = true ∧
      chain.drafts ≠ 64 ∧ chain.committed + chain.drafts < chain.cap ∧ field kappendWord.toNat 21 15 < chain.drafts ∧
      opK.denseSize = chain.ek ∧ opK.denseSize = chain.ev ∧ opK.scaled = false ∧
      ((withCtx chain).nib 0).rangeBusy (opK.ranges ++ opK.ranges) [chain.keyAt 3, chain.valAt 3] = false) ∧
    (({ chain with committed := 6 } : Context).bound = true ∧ ({ chain with committed := 6 } : Context).cap ≤ 6 + 2) ∧
    (masking.ready 0 0x33 kmaskWord ∧ field kmaskWord.toNat 33 0 = 0 ∧ okIs ((masking.nib 0).operands [(5, true)]) [maskD] = true ∧
      maskShape maskD = true ∧ (masking.nib 0).rangeBusy [] maskD.ranges = false ∧ maskShape opK = false) ∧
    (op .kmask 0 [maskD]).tensors = [maskD] := by
  simp only [State.ready]; decide +kernel

theorem witness_MaskShowsAncestors :
    (List.range chain.parents.length).all (fun k => chain.parents[k]? = some 0x7F || (chain.parents[k]?.getD 0x7F) < k) = true ∧
    1 < chain.parents.length ∧ (ancestry chain.parents 64 1).contains 0 = true ∧ (ancestry chain.parents 64 0).contains 1 = false := by
  decide +kernel

/-- Nib 0 with the chain and a kappend of its context in flight. -/
def appending : State := withNib { equipped with ctxs := [(0, chain)], slots := [op .kappend 0 []] }

theorem witness_KeraseDropsDrafts :
    ((withCtx chain).ready 0 0x32 (word 0x32 0 0) ∧ field (word 0x32 0 0).toNat 47 0 = 0 ∧ ((withCtx chain).nib 0).ctx 0 = chain ∧
      chain.bound = true ∧ ((withCtx chain).nib 0).kvBusy 0 = false) ∧
    (appending.ready 0 0x32 (word 0x32 0 0) ∧ (appending.nib 0).kvBusy 0 = true) := by
  simp only [State.ready]; decide +kernel

/-- The word of a kcommit of `n` nodes of context 0. -/
def kcommitWord (n : Nat) : BitVec 64 := word 0x31 0 (n * 2 ^ 41)

theorem witness_KcommitCommitsPath : ∀ n < 3,
    (withCtx chain).ready 0 0x31 (kcommitWord n) ∧ field (kcommitWord n).toNat 33 0 = 0 ∧ field (kcommitWord n).toNat 47 41 = n ∧
    bit (kcommitWord n).toNat 34 = false ∧ field (kcommitWord n).toNat 40 35 = 0 ∧ ((withCtx chain).nib 0).kvBusy 0 = false ∧
    n ≤ chain.drafts ∧ (∀ i, i < n → chain.parents[i]? = some (if i = 0 then 0x7F else i - 1)) := by
  simp only [State.ready]; decide +kernel

theorem witness_ScrubberCorrects : on0.obj 0x4011 0 ≠ 0 ∧ on0.clocked 0 = true ∧ (on0.nib 0).ecc = [] ∧
    (on0.nib 0).scrubRow < 24576 := by decide +kernel

/-- Page tables in desk memory that map virtual page 0 to frame 5, with all rights. -/
def tables : Memory := [(2, 2), (7, 0x80), (0x20000, 5), (0x20007, 0xE0)]

/-- Nib 0 with a fetch, or a store, of one chunk in queue 0, page 0 mapped. -/
def transferring (t : Transfer) : State := { withTransfer t with desk := { mem := tables } }
def fetch : Transfer := { moving .active with word := 0x29 * 2 ^ 58 }
def store : Transfer := { moving .active with word := 0x2A * 2 ^ 58 }
def chunk0 : Chunk := ⟨0, 0xA00000, 0, 0, 0, []⟩
def chunkBad : Chunk := ⟨0, 0, 1, 0, 0, []⟩
def started : Transfer := { fetch with next := 1, flight := [chunk0] }
def failing : Transfer := { fetch with next := 1, flight := [chunkBad] }
def finished : Transfer := { fetch with next := 1, done := [0] }

theorem witness_ChunksMoveTransfers :
    (nextStarter 0 (((transferring fetch).nib 0).resQueue 0) = some 0 ∧ ((transferring fetch).nib 0).resQueue 0 = [fetch] ∧
      (transferring fetch).chunksStart = true ∧ queueFlight [fetch] < 8 ∧ fetch.flight = [] ∧
      ((transferring fetch).translate (fetch.chunkVa 0) fetch.store).2 = .ok 0xA00000 false ∧
      ((withTransfer fetch).translate (fetch.chunkVa 0) fetch.store).2 = .cause 1) ∧
    (findFlight 0 0 (((transferring started).nib 0).resQueue 0) = some (0, started, chunk0) ∧
      (transferring started).olderMeets [started] 0 started chunk0 = false ∧
      (transferring started).linesHeld 0xA00000 (started.chunkLen 0) started.store = false ∧
      ((transferring started).moveChunk 0 started chunk0 []).1.recovery.ended = false ∧
      ((transferring started).moveChunk 0 started chunk0 []).2 = 0) ∧
    (findFlight 0 0 (((transferring failing).nib 0).resQueue 0) = some (0, failing, chunkBad) ∧
      (transferring failing).olderMeets [failing] 0 failing chunkBad = false ∧
      ((transferring failing).moveChunk 0 failing chunkBad []).1.recovery.ended = false ∧
      ((transferring failing).moveChunk 0 failing chunkBad []).2 ≠ 0) ∧
    (((transferring finished).nib 0).resQueue 0 = [finished] ∧ finished.complete = true ∧ finished.flight = [] ∧
      finished.st = .active) ∧
    (store.store = true ∧ fetch.store = false ∧ (transferring store).desk.ecc = [] ∧ (transferring store).desk.link = [] ∧
      (transferring store).desk.astray = [] ∧ ((transferring store).nib 0).issue.run = .running) := by decide +kernel

/-- The time of `s` set to `ns`. -/
def atTime (ns : Nat) (s : State) : State := { s with time := { s.time with clock := ns * 2 ^ 32, ticks := 2 * ns } }

/-- A transfer whose one chunk waits behind an older one held for a fault handler. -/
def blockedBehind : State := withNib { equipped with resq := [(0, [{ store with st := .held 1 63 }, started])] }

theorem witness_ChunkFaultsAreHeldOrAborted :
    (∀ v < 2, findFlight 0 0 ((((atTime 20001 (transferring started)).setObj 0x4620 3 v).nib 0).resQueue 0) =
        some (0, started, chunk0) ∧
      0 + 20000 < ((atTime 20001 (transferring started)).setObj 0x4620 3 v).now ∧
      ((atTime 20001 (transferring started)).setObj 0x4620 3 v).obj 0x4620 3 = v ∧
      ((atTime 20001 (transferring started)).setObj 0x4620 3 v).recovery.ended = false ∧ started.st = .active ∧
      ((atTime 20001 (transferring started)).setObj 0x4620 3 v).freeEntry = some 0) ∧
    (findFlight 0 0 ((blockedBehind.nib 0).resQueue 0) = some (1, started, chunk0) ∧
      (((blockedBehind.nib 0).resQueue 0).take 1).any (fun u => u.isStopped && blockedBehind.meets u started chunk0) = true) ∧
    ({ transferring started with desk := { entries := (List.range 64).map fun i => (i, some
      { nib := 0, rq := 0, cause := 1, store := false, pos := 0, st := 1, chunk := 0, va := 0, time := 0 }) } } : State).freeEntry =
        none := by decide +kernel

/-- A fault entry HELD since time 0. -/
def heldEntry : FaultEntry := { nib := 0, rq := 0, cause := 1, store := false, pos := 0, st := 1, chunk := 0, va := 0, time := 0 }
def holding (ns : Nat) : State := atTime ns { transferring { started with st := .held 1 63 } with
  desk := { mem := tables, entries := [(63, some heldEntry)] } }

theorem witness_HoldLimitAborts :
    SMap.get none (holding 10000000).desk.entries 63 = some heldEntry ∧ heldEntry.st = 1 ∧
    heldEntry.time + (holding 10000000).obj 0x4621 0 * 1000 ≤ (holding 10000000).now ∧
    (holding 9999999).now < heldEntry.time + (holding 9999999).obj 0x4621 0 * 1000 := by decide +kernel

theorem witness_DeskControllerRecords :
    (∀ b < 2, ({ on0 with desk := { selfRefresh := b = 1 } } : State).desk.selfRefresh = (b = 1)) ∧
    (∀ g < 2, ({ transferring started with desk := { flushing := some g } } : State).desk.flushing = some g ∧
      ({ transferring started with desk := { flushing := some g } } : State).oldChunks g = (g = 1)) := by decide +kernel
/-! ### Witnesses: clocks and ruling time -/

/-- A calendar with one entry, of TX stroke 0, and one of RX stroke 0. -/
def plan (tx rx reg : Nat) : Calendar := { tx := SMap.set 0 [] 0 tx, rx := SMap.set 0 [] 0 rx, bufs := SMap.set 0 [] 0 reg }

/-- Quill 0 UP with the calendar `c` in force. -/
def quillUp (c : Calendar) : Quill := { fn := { code := .on }, link := .up, ruled := { plan0 := c } }

/-- A job ON with an applied plan whose quill 0 is UP. -/
def planned (tx rx reg : Nat) : State := { onJob with quills := [(0, quillUp (plan tx rx reg))] }

/-- Twelve slacks of a value. -/
def slacks (m : Int) : Slacks := Vector.replicate 12 m

/-- The reference lost, with and without an abort in progress. -/
def noRef (a : Option Abort) : State := { onJob with time := { refOk := false, st := 4 }, recovery := { abort := a } }

theorem witness_ReferenceAndClockFailures :
    (onJob.time.refOk = true ∧ onJob.mayBlot = true ∧ on0.mayBlot = false) ∧
    (∀ s : State, s = noRef (some ⟨0, 2, 0, 1⟩) → s.time.refOk = false ∧ s.recovery.abort.isSome = true) ∧
    (∀ s : State, s = noRef none → s.time.refOk = false ∧ s.recovery.abort = none ∧ s.recovery.record = none ∧ s.recovery.retired = none ∧
      s.recovery.wanted = [] ∧ s.recentRecord = false ∧ s.blotWritable s.blotBase = true) ∧
    ((onJob.quire 15).running = true ∧ (onJob.clockFails 15 .lock = true) ∧
      onJob.clockFails 15 (.margin (slacks (-1))) = true ∧ onJob.clockFails 15 (.margin (slacks 0)) = false) := by
  refine ⟨by decide +kernel, ?_, ?_, by decide +kernel⟩ <;> (rintro s rfl; decide +kernel)

/-- A job of an applied plan whose quire 0 stretches, `n` cycles counted. -/
def stretching (n : Nat) : State := { planned 0 0 0 with quires := [(0, { stretching := true, count := n })] }

theorem witness_QuiresStretch :
    (marginOf (slacks 15) = 15 ∧ lowestMargin [slacks 15, slacks 14] = some 14 ∧ eightGood (List.replicate 8 (slacks 15)) = true ∧
      eightGood (slacks 14 :: List.replicate 7 (slacks 15)) = false) ∧
    ((onJob.quire 0).running = true ∧ (({ onJob with quires := [(0, { running := false })] } : State).quire 0).running = false ∧
      (onJob.quire 0).stretching = false) ∧
    (∀ s : State, s = stretching 2949 →
      (s.quire 0).stretching = true ∧ (s.quire 0).overrun = false ∧ (s.quire 0).count + 0 < 2950 ∧ 2950 ≤ (s.quire 0).count + 1 ∧
      s.recovery.abort = none ∧ (∀ j, j < 16 → (s.quire j).overrun = false) ∧ s.lines.announced = [] ∧ s.planApplied = false) ∧
    (planned (2 ^ 61) 0 0).planApplied = true ∧ signed 32 (onJob.obj 0x4704 0) ≤ 100 ∧ (onJob.quire 0).marginSeen = false ∧
    (lowestMargin [slacks (-101)] = some (-101) ∧ -101 < signed 32 (onJob.obj 0x4704 0) ∧ (onJob.quire 0).marginTold = none ∧
      lowestMargin [] = none) := by
  refine ⟨by decide +kernel, by decide +kernel, ?_, by decide +kernel, by decide +kernel, by decide +kernel, by decide +kernel⟩
  rintro s rfl; decide +kernel

/-- A time root at the start of line 1. -/
def rootLine : State := atTime 24576 (on0.setObj 0x2A00 0 0)

theorem witness_TimeGoesOn :
    (on0.time.refOk = true ∧ on0.time.adj = {} ∧ on0.time.carry = {} ∧ on0.line ≤ on0.time.lineDone) ∧
    (State.reset.line ≤ State.reset.time.lineDone) ∧
    (rootLine.time.lineDone < rootLine.line ∧ rootLine.isRoot = true ∧
      rootLine.obj 0x2707 0 = 0 ∧ rootLine.lifted rootLine.line = false) := by decide +kernel

/-- A module whose time parent, quill 0, has sent nothing for 1,537 ns. -/
def orphan : State := atTime 1537 (({ planned 0 0 0 with time := { st := 2, parent := some 0 } } : State).setObj 0x2A00 0 1)

/-- A time root whose PTP master was heard at time 0, `mode` of 0x2707:00. -/
def anchor (mode ns : Nat) (p : PtpState) : State :=
  atTime ns (({ on0 with time := { st := 2, ptp := p } } : State).setObj 0x2A00 0 0 |>.setObj 0x2707 0 mode)

theorem witness_TimeIsHeldAndLost :
    (((planned 0 0 0).quill 0).link = .up ∧ ((planned 0 0 0).quill 0).time.heard = false) ∧
    (orphan.parentLost = true ∧ orphan.isRoot = false ∧ orphan.time.st = 2) ∧
    (∀ s : State, s = atTime 9000000001 { planned (2 ^ 61) 0 0 with time := { st := 3 } } →
      s.time.st = 3 ∧ s.time.holdStart + s.obj 0x4700 0 * 1000 < s.now ∧ s.planApplied = true ∧ s.mayBlot = true) ∧
    (on0.obj 0x2707 0 = 0 ∧ (anchor 1 0 {}).obj 0x2707 0 ≠ 0 ∧ (anchor 1 0 {}).obj 0x4702 0 = 0 ∧
      ({ ipv6 := false, addr := [], domain := 0, msg := .announceTimeout 1 } : PtpFrame).ipv6 = false) ∧
    (∀ m < 3, m ≠ 0 → (anchor m 2000000000 { status := 1, edge := some 0 }).isRoot = true ∧
      (anchor m 2000000000 { status := 1, edge := some 0 }).time.ptp.status = 1 ∧
      (anchor m 2000000000 { status := 1, edge := some 0 }).ptpLost = true ∧
      (anchor m 2000000000 { status := 1, edge := some 0 }).obj 0x2707 0 = m ∧
      (anchor m 2000000000 { status := 1, edge := some 0 }).time.ptp.fallen = false) ∧
    (anchor 2 2000000000 { status := 1 }).isRoot = true ∧ (anchor 2 2000000000 { status := 1 }).obj 0x2707 0 = 2 ∧
      (anchor 2 2000000000 { status := 1 }).time.ptp.edgeSeen + 2000000000 ≤ (anchor 2 2000000000 { status := 1 }).real ∧
      (anchor 2 2000000000 { status := 2 }).time.ptp.status = 2 := by
  refine ⟨by decide +kernel, by decide +kernel, ?_, by decide +kernel, by decide +kernel, by decide +kernel, by decide +kernel,
    by decide +kernel⟩; rintro s rfl; decide +kernel

/-! ### Witnesses: ruled traffic and the links -/

/-- FEC reports: nothing wrong, and codewords 0, 12 and 14 lost. -/
def noFec : FecReport := ⟨[], [], []⟩
def badFec : FecReport := ⟨[(1, 2)], [0, 14], [12]⟩

/-- Just before stroke 0 of line 1, with the TX entry `tx` on quill 0 and the SEND or COMBINE region `reg`, whose words are FULL or not. -/
def deciding (tx reg : Nat) (full : Bool) : State :=
  atTime 24560 { onJob with quills := [(0, { quillUp (plan tx 0 reg) with ruled :=
    { plan0 := plan tx 0 reg, full := if full then (List.range 8).map fun i => (i, true) else [],
      got := [(1024, some ⟨sealFrame (2 ^ 186 + 8 * 2 ^ 187) (List.replicate 64 0) 0, false, 0, 1⟩)] } })] }

/-- A SEND and a COMBINE region of 64 bytes. -/
def sendReg : Nat := 8 * 2 ^ 108 + 2 ^ 106
def combReg : Nat := 8 * 2 ^ 108 + 3 * 2 ^ 106 + 2 ^ 94

/-- The turn of that stroke. -/
def turn (tx reg : Nat) : Turn := ⟨0, 1024, 1, 0, tx, reg⟩

theorem witness_StrokesSend :
    (1024 = ((deciding 0 0 false).now + 16) / 24 ∧ ((deciding 0 0 false).ruled 0).decided < 1024 ∧ 0 ≤ (on0.ruled 0).decided ∧
      (deciding 0 0 false).planOf 1 = 0 ∧ (deciding (2 ^ 61) sendReg true).planAhead 1 = false) ∧
    ((deciding 0 0 false).lifted 1 = false ∧ entCu 0 = false ∧ entOp 0 = 0) ∧
    ((([0, 2 * 2 ^ 61] : List Nat).all fun e => ({ deciding e 0 false with lines := { announced := [⟨1, 0, 0, 0⟩] } } : State).lifted 1) = true) ∧
    (SMap.get 0 (((deciding (2 ^ 61) sendReg true).quill 0).plan 0).tx 0 = 2 ^ 61 ∧ entOp (2 ^ 61) = 1 ∧
      entCu (2 ^ 61) = false ∧ entHasCu (2 ^ 61) = false ∧ entHasCu (2 ^ 61 + 2 ^ 59) = true ∧
      (deciding (2 ^ 61) sendReg true).ownRuns 1 = true ∧ ((deciding (2 ^ 61) sendReg true).ruled 0).ready sendReg = true ∧
      ((deciding (2 ^ 61) sendReg true).ruled 0).edge = [] ∧ ((deciding (2 ^ 61) sendReg false).ruled 0).ready sendReg = false ∧
      (deciding (2 ^ 61) sendReg false).recovery.abort = none ∧ (deciding (2 ^ 61) sendReg false).lines.announced = []) ∧
    (entOp (2 * 2 ^ 61) = 2 ∧ ((deciding (2 * 2 ^ 61) 0 false).input (turn (2 * 2 ^ 61) 0)).2.1.isSome = true) ∧
    (entOp (4 * 2 ^ 61) = 4 ∧ ((deciding (4 * 2 ^ 61) combReg true).combineInput (turn (4 * 2 ^ 61) combReg)).2.1.isSome = true ∧
      ((deciding (4 * 2 ^ 61) combReg true).combineInput (turn (4 * 2 ^ 61) combReg)).2.2 = 0 ∧
      ((deciding (4 * 2 ^ 61) combReg true).ruled 0).ready combReg = true ∧
      ((deciding (4 * 2 ^ 61) combReg true).ruled 0).isHolding 0 = false) := by decide +kernel

/-- A job ON whose quill 0 has handled the strokes up to 1,023, with a TERMINATE entry at RX stroke 0 and its LAND region. -/
def receiving (ns : Nat) : State :=
  atTime ns { onJob with quills := [(0, { quillUp (plan 0 (3 * 2 ^ 61) (8 * 2 ^ 108 + 2 * 2 ^ 106)) with ruled :=
    { plan0 := plan 0 (3 * 2 ^ 61) (8 * 2 ^ 108 + 2 * 2 ^ 106), rxDone := 1023 } })] }

/-- An intact DATA frame of 64 bytes to the module at (0, 0), of INSTANCE 0, and the same with a byte wrong. -/
def goodFrame : Frame := sealFrame (2 ^ 96 + 2 ^ 64 + 8 * 2 ^ 187) (List.replicate 64 5) 0
def badFrame : Frame := { goodFrame with payload := List.replicate 64 6 }

set_option maxRecDepth 100000 in
theorem witness_StrokesArrive :
    (((receiving 24576).quill 0).link = .up ∧ windowOf 0 (384 * 1024 + 97) = none ∧
      windowOf (signed 32 ((receiving 24576).obj 0x6021 0)) (384 * 1024 + 96) = some (1024, 96) ∧
      1024 = ((receiving 24576).ruled 0).rxDone + 1) ∧
    (goodFrame.intact = true ∧ badFrame.intact = false ∧ goodFrame.kind = 0 ∧ goodFrame.why = 0 ∧ (List.range 13).any noFec.lost = false ∧
      (List.range 13).any badFec.lost = true ∧ ({ goodFrame with hdr := goodFrame.hdr + BitVec.ofNat 256 (5 * 2 ^ 248) } : Frame).known = false ∧ entOp (3 * 2 ^ 61) = 3 ∧ entCu (3 * 2 ^ 61) = false ∧
      (receiving 24576).planOf 1 = 0 ∧ (receiving 24576).lifted 1 = false ∧ (receiving 24576).ownRuns 1 = true ∧
      (receiving 24576).lines.applyLine ≤ 1 ∧ (receiving 24576).addressed goodFrame = true ∧
      goodFrame.inst = SMap.get 0 ((receiving 24576).ruled 0).expect 0 ∧
      (wordsOf 0 64).any ((receiving 24576).ruled 0).isLanded = false) ∧
    (16 * ((receiving 24582).now : Int) ≤ 384 * 1024 + 0 + 96 ∧ 384 * 1024 + 0 + 96 < 16 * ((receiving 24583).now : Int)) := by
  decide +kernel

/-- A packet of nib 0 for the landing buffer of quill 0, and the state in which it is under way; `full` makes the word it would
overwrite still FULL in a SEND region. -/
def quillPkt : Packet := ⟨0, .quill 0, 0, 0, .quill 0 (List.replicate 64 1) [0]⟩
def toQuill (full : Bool) : State := { onJob with
  mesh := [quillPkt]
  quills := [(0, { quillUp (plan (2 ^ 61) 0 sendReg) with ruled :=
    { plan0 := plan (2 ^ 61) 0 sendReg, full := if full then [(0, true)] else [] } })] }

/-- A packet for quill 0, while one for nib 576 holds links of its way. -/
def edgeHeld : State :=
  { toQuill true with
    mesh := [⟨0, .quill 0, 0, 0, .quill 0 (List.replicate 64 1) [0]⟩]
    nibs := [(576, { inbox := [⟨4, ⟨0, .nib 576, 0, 0, .data 0 0 1024 0 (List.replicate 1024 1) true⟩⟩] })] }

theorem witness_QuillTrafficArrives :
    (takePacket 0 (.quill 0) (toQuill true).mesh = some (quillPkt, []) ∧ ((toQuill true).ruled 0).edge = [] ∧
      (toQuill true).heldBack 0 (.quill 0) = false ∧ (toQuill true).recovery.ended = false ∧
      ((toQuill true).ruled 0).waits ((toQuill true).regions 0) 0 64 = true ∧
      ((toQuill false).ruled 0).waits ((toQuill false).regions 0) 0 64 = false) ∧
    edgeHeld.heldBack 0 (.quill 0) = true ∧ takePacket 0 (.quill 0) edgeHeld.mesh = some (quillPkt, []) ∧
    (((toQuill false).quill 0).link = .up ∧ signed 16 (field 0 63 48 + 2 ^ 16 - (toQuill false).line % 2 ^ 16) ≤ 0 ∧
      0 < signed 16 (field (2 ^ 48) 63 48 + 2 ^ 16 - (toQuill false).line % 2 ^ 16) ∧ (toQuill false).lines.announced = [] ∧
      (({ toQuill false with lines := { announced := [⟨1, 0, 3, 0⟩] } } : State).lines.announced.any fun x =>
        x.line = 0 + 1 && x.tag = 0) = true) := by decide +kernel

/-- Quill 0 UP with a link side, at `ns`. -/
def linked (ns : Nat) (p : LinkPort) : State := atTime ns { onJob with quills := [(0, { quillUp {} with port := p })] }

/-- A link frame of no flits, a control field that carries one of sequence number 0, and one that fails. -/
def sentFrame : LinkFrame := ⟨0, 1, 1, 0, List.replicate 32 1, 0⟩
def goodCtl : List Byte := sealControl (2 ^ 319 + crc32 [] <<< 32) (List.replicate 40 0)
def badCtl : List Byte := List.replicate 80 1

set_option maxRecDepth 100000 in
theorem witness_LinkControl :
    (((linked 45 {}).quill 0).port.ctlSent < ((linked 45 {}).now - 21) / 24 ∧ ((linked 45 {}).quill 0).link = .up ∧
      ((List.range 13).any fun k => k = 12 ∧ badFec.lost k ∧ !noFec.lost k) = true ∧ noFec.lost 13 = false ∧ noFec.lost 14 = false ∧
      ((linked 44 {}).quill 0).port.ctlSent = ((linked 44 {}).now - 21) / 24 ∧
      ((linked 45 { replay := [sentFrame] }).quill 0).port.replay = sentFrame :: []) ∧
    (controlOk goodCtl = true ∧ controlOk badCtl = false ∧ ((linked 45 {}).quill 0).port.nakf = false ∧
      bit (natBE (goodCtl.take 40)) 319 = true ∧ field (natBE (goodCtl.take 40)) 274 270 ≤ 18 ∧
      field (natBE (goodCtl.take 40)) 63 32 = crc32 (slice [] 0 (32 * field (natBE (goodCtl.take 40)) 274 270)) ∧
      field (natBE (goodCtl.take 40)) 318 307 = ((linked 45 {}).quill 0).port.expected) ∧
    (8 ≤ ((linked 0 { fresh := 8 }).quill 0).port.fresh ∧ ((linked 96 { fresh := 1 }).quill 0).port.fresh ≠ 0 ∧
      ((linked 96 { fresh := 1 }).quill 0).port.oldest + 96 ≤ (linked 96 { fresh := 1 }).now) ∧
    (((linked 0 { unacked := [sentFrame], nakRose := true }).quill 0).port.replayDue 0 = true ∧
      ((linked 0 { unacked := [sentFrame], nakRose := true }).quill 0).port.unacked ≠ []) := by decide +kernel

/-- The IDENT that chip 1, quill 8 sends, its own check passed, its slot and control field, and the state whose cable plan expects it. -/
def ident : Nat := 1 * 2 ^ 498 + 8 * 2 ^ 494 + 2 ^ 449
def identSlot (r : Nat) : List Byte := padTo 576 (bytesBE 64 r)
def identCtl (r : Nat) : List Byte := sealControl (2 * 2 ^ 270 + crc32 (bytesBE 64 r) <<< 32) (List.replicate 40 0)
def checking : State :=
  (({ on0 with quills := [(0, { link := .check, fn := { code := .opening }, check := { ident := some ident, same := 3 } })] } : State).setObj 0x6050 0
    (2 ^ 63 + 1 * 2 ^ 49 + 8 * 2 ^ 45)).setObj 0x4902 0 0

set_option maxRecDepth 100000 in
theorem witness_QuillStates :
    (([.missingFields, .unacknowledged, .framing, .laneLock, .goingDown] : List DownCause).all fun c =>
      (linked (24 * 64) { missing := 64, unacked := [sentFrame], framing := 16, farewellSeen := true }).downHolds 0 c) = true ∧
    (on0.setLink 0 .closing).downHolds 0 .disabled = true ∧ ((linked 0 {}).quill 0).fn.code = .on ∧
    (((linked 0 {}).setObj 0x6041 0 1).setObj 0x4902 0 1).obj 0x6041 0 = 1 ∧
    (((linked 0 {}).setObj 0x6041 0 1).setObj 0x4902 0 1).obj 0x4902 0 = 1 ∧
    (((on0.setLink 0 .training).quill 0).link = .training ∧ on0.time.refOk = true ∧ (on0.quill 0).link = .down ∧
      (linked 0 {}).downHolds 0 .goingDown = false) ∧
    ((({ on0 with quills := [(0, { link := .closing, fn := { code := .closing, pending := true } })] } : State).quill 0).fn.pending = true ∧
      ({ on0 with quills := [(0, { link := .closing, fn := { code := .closing, pending := true } })] } : State).downHolds 0 .laneLock = true) ∧
    ((checking.quill 0).link = .check ∧ identOk (identCtl ident) (identSlot ident) = true ∧
      ident = natBE ((identSlot ident).take 64) ∧ identOk (identCtl ident) (identSlot 0) = false ∧
      identOk (identCtl 0) (identSlot 0) = true ∧
      checking.checkIdent 0 ident = 1 ∧ (checking.quill 0).check.ident = some ident ∧
      3 ≤ (checking.quill 0).check.same ∧ bit ident 449 = true ∧ (checking.quill 0).fn.code = .opening ∧
      (checking.quill 0).fn.pending = false ∧ checking.checkIdent 0 0 ≠ 1) ∧
    ((checking.quill 0).check.since + 25000000 ≤ (atTime 25000000 checking).now ∧ checking.obj 0x4902 0 = 0) := by decide +kernel
/-! ### Witnesses: margin traffic -/

/-- A header: fields by place. -/
def hdrOf (fs : List (Nat × Nat)) : Nat := fs.foldl (fun h f => h + f.1 * 2 ^ f.2) 0

/-- A job ON, chip 0, with a packet at the head of the module's own queue. -/
def ownPacket (p : List Byte) : State := { onJob.setObj 0x2A00 0 0 with margin := { own := [p] } }

/-- A packet with two hops east to go, in VC 0 of quill 0, and quill 8, which leads there, UP or not, its credits used. -/
def transit : List Byte := sealMargin (hdrOf [(2, 391)]) []
def transiting (up : Bool) (used : Nat) : State := { onJob with quills :=
  [(0, { quillUp {} with port := { rxBuf := [(0, [transit])] } }),
   (8, { quillUp {} with link := if up then .up else .down, port := { used := SMap.set 0 [] 0 used } })] }

theorem witness_MarginPacketsForward :
    (transiting true 0).headAt (.quill 0 0) = some transit ∧
    nextHop (mDx (packetHdr transit)) (mDy (packetHdr transit)) = some (2, 1, 0) ∧
    (transiting false 0).hopQuill 2 (mTxid (packetHdr transit)) = none ∧
    (transiting true 0).hopQuill 2 (mTxid (packetHdr transit)) = some 8 ∧ (transiting true 128).creditsLeft 8 0 < transit.length / 32 ∧
    transit.length / 32 ≤ (transiting true 126).creditsLeft 8 0 ∧ (transiting true 0).outVc 8 false false false = 0 := by
  decide +kernel

/-- A READ of 8 bytes of nib 0, a WRITE of 8, the READ with another job's tag, and an ATOMIC whose filter entry is kept. -/
def readReq : List Byte := sealMargin (hdrOf [(1, 494), (8, 397)]) []
def writeReq : List Byte := sealMargin (hdrOf [(1, 494), (1, 504), (8, 397)]) (List.replicate 8 7)
def strangeReq : List Byte := sealMargin (hdrOf [(1, 494), (1, 473), (8, 397)]) []
def atomicReq : List Byte := sealMargin (hdrOf [(2, 504), (8, 397)]) []
def spoiled : List Byte := 1 :: readReq.tail

set_option maxRecDepth 100000 in
theorem witness_MarginRequestsExecute :
    (([readReq, writeReq, strangeReq, atomicReq].all fun p => (ownPacket p).headAt .own = some p &&
      nextHop (mDx (packetHdr p)) (mDy (packetHdr p)) = none && mType (packetHdr p) = 0 && hcrcOk p && (ownPacket p).firstAt .own && mOp (packetHdr p) ≤ 4 &&
      mDst (packetHdr p) = (ownPacket p).chip && crcOk p && (ownPacket p).responseFits ((ownPacket p).responseTo (packetHdr p) 6 []) &&
      (ownPacket p).responseFits ((ownPacket p).responseTo (packetHdr p) 0 (List.replicate 8 0)))) = true ∧
    (ownPacket spoiled).headAt .own = some spoiled ∧ mType (packetHdr spoiled) = 0 ∧ (ownPacket spoiled).firstAt .own = true ∧
    ({ ownPacket readReq with margin := { own := [readReq], order := [0] } } : State).firstAt .own = false ∧
    hcrcOk spoiled = false ∧ (ownPacket strangeReq).jobOk (packetHdr strangeReq) = false ∧
    ((ownPacket atomicReq).jobOk (packetHdr atomicReq) = true ∧ mIdemp (packetHdr atomicReq) = false ∧
      ({ ownPacket atomicReq with margin := { own := [atomicReq], filter := [⟨0, 0, 0, List.replicate 8 0, 0⟩] } } :
        State).filterEntry (packetHdr atomicReq) = some ⟨0, 0, 0, List.replicate 8 0, 0⟩) ∧
    ((ownPacket readReq).jobOk (packetHdr readReq) = true ∧ mIdemp (packetHdr readReq) = true ∧ (ownPacket readReq).margin.lost = [] ∧
      mOp (packetHdr readReq) = 0 ∧ mNotify (packetHdr readReq) = false ∧
      ((ownPacket readReq).target (mAddr (packetHdr readReq)) (mLen (packetHdr readReq)) false).2 = .nib 0 0) ∧
    (mOp (packetHdr writeReq) = 1 ∧
      ((ownPacket writeReq).target (mAddr (packetHdr writeReq)) (packetData writeReq).length true).2 = .nib 0 0) := by decide +kernel

/-- A response of status OK to transaction 7, and a request outstanding under it, parked since `t` or not. -/
def response : List Byte := sealMargin (hdrOf [(1, 508), (7, 409), (8, 397)]) (List.replicate 8 7)
def waitingReq (idemp : Nat) (parked : Option Nat) : Request := ⟨hdrOf [(idemp, 494), (7, 409)], [], 0, none, parked, .send, 0, 0, 0, 0⟩
def outstanding (ns : Nat) (r : Request) : State := atTime ns { onJob with margin := { own := [response], requests := [(7, some r)] } }

set_option maxRecDepth 100000 in
theorem witness_MarginRequestsComplete :
    ((ownPacket response).headAt .own = some response ∧ nextHop (mDx (packetHdr response)) (mDy (packetHdr response)) = none ∧
      mType (packetHdr response) = 1 ∧ hcrcOk response = true ∧ crcOk response = true ∧ mStatus (packetHdr response) = 0 ∧
      SMap.get none (ownPacket response).margin.requests (mTxid (packetHdr response)) = none ∧
      SMap.get none (outstanding 0 (waitingReq 1 none)).margin.requests (mTxid (packetHdr response)) = some (waitingReq 1 none) ∧
      (waitingReq 1 none).who = .send ∧ ((outstanding 0 (waitingReq 1 none)).nib (mRnib (waitingReq 1 none).hdr)).ecc = []) ∧
    (∀ k, k = on0.obj 0x4900 0 * 1000 → 0 < k ∧ (outstanding (k - 1) (waitingReq 1 none)).now < k ∧
      k ≤ (outstanding k (waitingReq 1 none)).now) ∧
    (mIdemp (waitingReq 1 none).hdr = true ∧ mRetry (waitingReq 1 none).hdr < 3 ∧ mIdemp (waitingReq 0 none).hdr = false) ∧
    (0 + on0.obj 0x4901 0 * 1000 ≤ (outstanding (on0.obj 0x4901 0 * 1000) (waitingReq 1 (some 0))).now) ∧
    (SMap.get none ({ onJob with margin := { ended := [(7, some 0)] } } : State).margin.ended 7 = some 0 ∧
      0 + 2000000 ≤ (atTime 2000000 onJob).now ∧ (atTime 1999999 onJob).now < 0 + 2000000) := by
  refine ⟨by decide +kernel, ?_, by decide +kernel, by decide +kernel, by decide +kernel⟩; rintro k rfl; decide +kernel

/-- A nib with one commit of one position in its mirror queue, the mirror enabled. -/
def mirroring (written acked : Nat) : State :=
  (withNib { equipped with ctxs := [(0, chain)], mirror := { queue := [⟨0, 0, 1, written, acked⟩] } }).setObj 0x2A20 0 1

theorem witness_MirrorSends :
    (mirroring 0 0).mirrorRoom = true ∧ ((mirroring 0 0).nib 0).mirror.queue = [⟨0, 0, 1, 0, 0⟩] ∧ ((mirroring 0 0).nib 0).ctx 0 = chain ∧
    0 < chain.pieceCount ⟨0, 0, 1, 0, 0⟩ ∧ ((mirroring 0 0).nib 0).ecc = [] ∧ 2 = chain.pieceCount ⟨0, 0, 1, 2, 2⟩ ∧
    ((mirroring 2 2).nib 0).mirror.queue = [⟨0, 0, 1, 2, 2⟩] := by decide +kernel

/-! ### Witnesses: the job binding and the place engine -/

/-- A transaction SCHEDULED for line 1 that stages an enable of the binding, at time `ns`. -/
def scheduled (ns : Nat) : State := atTime ns { on0 with agent := { staging :=
  { st := .scheduled, owner := 1, vals := [(objKey 0x2A10 0, [1])], instant := 24576 } } }

/-- The same in COMPUTE_HELD, where the check fails. -/
def barred : State := { scheduled 24576 with recovery := { held := some 0 } }

theorem witness_StagedApply :
    ((scheduled 24575).now < (scheduled 24575).agent.staging.instant ∧ on0.agent.staging.st ≠ .scheduled) ∧
    (barred.agent.staging.st = .scheduled ∧ barred.agent.staging.instant ≤ barred.now ∧ barred.pins.holdAt = none ∧
      barred.checkStaged.2 ≠ 0) ∧
    ((scheduled 24576).agent.staging.st = .scheduled ∧ (scheduled 24576).agent.staging.instant ≤ (scheduled 24576).now ∧
      (scheduled 24576).pins.holdAt = none ∧ (scheduled 24576).agent.staging.vals = [(objKey 0x2A10 0, [1])] ∧
      (scheduled 24576).binding.fn.code = .off ∧ (scheduled 24576).recovery.held = none ∧
      (scheduled 24576).recovery.retired = none ∧ (scheduled 24576).checkStaged.2 = 0 ∧
      ((scheduled 24576).nibs.all fun e => e.2.inbox.isEmpty) = true) := by decide +kernel

/-- A binding in OPENING that ends at line 1, on a declared grid of one nib, placed or not. -/
def opening (ns : Nat) (placed pending : Bool) : State := atTime ns
  { nibs := [(0, { issue := if placed then { run := .placed, placed := true } else {} })]
    blobs := [(0x2B00 * 256, [1, 0, 1, 0] ++ List.replicate 60 0)]
    binding := { fn := { code := .opening, pending := pending }, openLine := some 1 } }

/-- A job ON with HOLD_IN_N low since time 5, at `ns`. -/
def heldJob (ns : Nat) : State := atTime ns { onJob with pins := { holdAt := some 5 } }

/-- A pre-emption whose deadline is 100 ns, with a send of a scalar vector in flight. -/
def sendOp : InFlight := op .send 0 [opA]
def preempting (ns : Nat) : State := atTime ns { flying sendOp with
  mesh := [⟨0, .nib 0, 1, 1, .data 0 0 4 0 [0, 0, 0, 0] true⟩]
  binding := { fn := { code := .closing }, drainAt := some 100 }, desk := { preempt := { status := 1 } } }

/-- The same with the sends stopped and, of the operations, none left. -/
def drainedJob : State := { on0 with binding := { fn := { code := .closing } }, desk := { preempt := { status := 1, drained := true } } }

theorem witness_BindingOpensAndCloses :
    ((opening 0 true false).binding.fn.code = .opening ∧ (opening 0 true false).binding.openLine = some 1 ∧
      (opening 24575 true false).line < 1 ∧ 1 ≤ (opening 24576 true false).line ∧ (opening 24576 false false).openingCode ≠ 0 ∧
      (opening 24576 true true).openingCode = 0 ∧ (opening 24576 true true).binding.fn.pending = true ∧
      (opening 24576 true false).openingCode = 0 ∧ (opening 24576 true false).binding.fn.pending = false ∧
      ((opening 24576 true false).nibs.all fun e => !e.2.issue.resume) = true ∧
      ((opening 24576 true false).nib 0).issue.run = .placed ∧ (opening 24576 true false).inGrid 0 0 = true ∧
      (opening 24576 true false).inGrid 0 1 = false) ∧
    ((heldJob 24575).pins.holdAt = some 5 ∧ (heldJob 24575).binding.fn.code = .on ∧ (heldJob 24575).line * 24576 < 5 ∧
      5 ≤ (heldJob 24576).line * 24576) ∧
    ((preempting 99).desk.preempt.status = 1 ∧ (preempting 99).desk.preempt.drained = false ∧
      (preempting 99).binding.drainAt = some 100 ∧ (preempting 99).now < 100 ∧ 100 ≤ (preempting 100).now ∧
      ((preempting 100).nib 0).slots = [sendOp] ∧ (preempting 100).liveSends = [(0, sendOp)] ∧ sendDest sendOp.word = some (.nib 0) ∧
      (0 : Nat) = ceilDiv sendOp.total 1024 - ((preempting 100).ownPackets 0 sendOp).length ∧ sendOp.total = 4 ∧
      min sendOp.total (1024 * 0) ≤ 4 ∧ 4 ≤ 1024 * (0 + (preempting 100).mayHaveBegun 0 sendOp) ∧
      ({ preempting 100 with nibs := [] } : State).liveSends = []) ∧
    (drainedJob.desk.preempt.status = 1 ∧ drainedJob.desk.preempt.drained = true ∧ drainedJob.draining = false ∧
      drainedJob.binding.fn.pending = false ∧ drainedJob.finishStreams.writeRecords.2 = false ∧ drainedJob.resetComing = false ∧
      ({ drainedJob with recovery := { wanted := [⟨3, 0xFFFF, 0, 2, 0⟩] } } : State).resetComing = true) := by decide +kernel

/-- A place engine at an entry of the given bits, at desk address 0 of mapped page 0, and data at 64. -/
def placing (e : Nat) : State := { on0 with
  desk := { mem := Memory.writeBytes [] 0xA00000 (bytesLE 32 e ++ List.replicate 32 0 ++ List.replicate 8 7) |>.writeBytes 0 (tables.readBytes 0 16)
              |>.writeBytes 0x20000 (tables.readBytes 0x20000 8) }
  place := { running := true, next := 0, base := 0, count := 1, status := 1 } }

def noEntry : Nat := 0
def badEntry : Nat := 5 * 2 ^ 252
def farEntry : Nat := 4 * 2 ^ 252 + 8191 * 2 ^ 233
def startEntry : Nat := 4 * 2 ^ 252 + 0x123 * 2 ^ 220
def fillEntry : Nat := 3 * 2 ^ 252 + 8 * 2 ^ 128
def putEntry : Nat := 2 ^ 252 + 8 * 2 ^ 128 + 64
def getEntry : Nat := 2 * 2 ^ 252 + 8 * 2 ^ 128 + 64

theorem witness_PlaceEntries :
    (({ placing 0 with desk := {} } : State).place.running = true ∧
      (({ placing 0 with desk := {} } : State).placeRead 0 32).2.2 ≠ 0) ∧
    (([noEntry, badEntry, startEntry, fillEntry, putEntry, getEntry].all fun e =>
      (placing e).place.running && (placing e).place.next < (placing e).place.count && (placing e).place.failed = none &&
        (placing e).place.done = [] && (placing e).binding.fn.code = .off && ((placing e).placeRead 0 32).2.2 = 0 &&
        natLE (((placing e).placeRead 0 32).2.1.map Prod.fst) = e) = true) ∧
    (placeEntryOk badEntry = false ∧ placeEntryOk noEntry = true ∧ placeOp noEntry = 0 ∧ (placing noEntry).placeNibs noEntry ≠ none ∧
      ({ placing farEntry with fuses := { grade := 1 } } : State).placeNibs farEntry = none ∧ (placing noEntry).place.count = (placing noEntry).place.next + 1) ∧
    (([startEntry, fillEntry, putEntry, getEntry].all fun e => placeEntryOk e && !bit e 248 &&
      field e 245 233 < (placing e).gridRows * 64) = true) ∧
    (placeOp startEntry = 4 ∧ field startEntry 232 220 < 0x1000) ∧ (placeOp fillEntry = 3 ∧ placeSpace fillEntry = 0) ∧
    (placeOp putEntry = 1 ∧ placeSpace putEntry = 0 ∧ ((placing putEntry).placeRead 64 8).2.2 = 0) ∧
    (placeOp getEntry = 2 ∧ placeSpace getEntry = 0 ∧ ((placing getEntry).nib 0).ecc = [] ∧ (placing getEntry).desk.ecc = [] ∧
      (placing getEntry).desk.link = [] ∧ (placing getEntry).desk.astray = [] ∧
      (State.placePages 2 (placing getEntry) 64 8 true).2.2 = 0) ∧
    ({ on0 with place := { running := true, next := 3, count := 3 } } : State).place.count ≤ 3 ∧ on0.binding.fn.code = .off ∧
    onJob.binding.fn.code ≠ .off := by decide +kernel

/-! ### Witnesses: the Ledger agent -/

/-- A LAP request: TYPE, SESSION, SEQ, COUNT and its payload. -/
def request (type sess seq count : Nat) (p : List Byte) : List Byte := lapHeader type 0 sess seq count p.length 0 0 ++ p

/-- The module's own port of one open session, identifier 3, from the mailbox, and the state in which a message waits; `kept` holds
the answer to SEQ 4. -/
def session3 (kept : Bool) : Session :=
  { id := 3, expert := false, source := .mailbox, evmask := 0, lastUse := 0, highSeq := if kept then some 4 else none,
    kept := if kept then [(4, [1])] else [] }
def asking (kept : Bool) (m : List Byte) : State := { on0 with agent := { sessions := [session3 kept], waiting := [⟨.mailbox, m⟩] } }

/-- A write of 0x2622:00 and a read of 0x1000:00. -/
def writeItem1 : List Byte := bytesLE 2 0x2622 ++ [0, 0] ++ bytesLE 4 0 ++ bytesLE 4 8 ++ bytesLE 2 8 ++ [0, 0] ++ List.replicate 8 0
def readItem1 : List Byte := bytesLE 2 0x1000 ++ List.replicate 10 0

/-- An expert OPEN whose credential names a slot. -/
def expertOpen (slot : Nat) : List Byte := request 1 0 1 0 ([1, BitVec.ofNat 8 slot] ++ List.replicate 6 0)

/-- A message from the network that waits. -/
def askedByNet (m : List Byte) : State := { on0 with agent := { waiting := [⟨.udp [10, 0, 0, 2] 5000, m⟩] } }

theorem witness_LapRequests :
    (([2, 4, 5, 0x11].all fun t => lapType (request t 7 5 0 []) = t && lapSession (request t 7 5 0 []) = 7 &&
      (asking false (request t 7 5 0 [])).session 7 = none) = true) ∧
    ((asking true (request 5 3 4 0 [])).session (lapSession (request 5 3 4 0 [])) = some (session3 true) ∧
      (session3 true).source = .mailbox ∧ lapType (request 5 3 4 0 []) = 5 ∧
      (session3 true).kept.find? (fun p => p.1 = lapSeq (request 5 3 4 0 [])) = some (4, [1])) ∧
    (([request 2 3 5 0 [], request 5 3 5 0 [], request 0x11 3 5 0 (bytesLE 4 9), request 4 3 5 1 writeItem1,
        request 3 3 5 1 readItem1].all fun m => (asking true m).session (lapSession m) = some (session3 true) && lapSession m ≠ 0 &&
      (session3 true).kept.find? (fun p => p.1 = lapSeq m) = none && 4 ≤ lapSeq m) = true) ∧
    (writeItems (lapCount (request 4 3 5 1 writeItem1)) (lapPayload (request 4 3 5 1 writeItem1))).isSome = true ∧
    (lapType (request 3 0 5 1 readItem1) = 3 ∧ lapSession (request 3 0 5 1 readItem1) = 0) ∧
    (lapType (request 1 0 1 0 (List.replicate 8 0)) = 1 ∧ natLE ((lapPayload (request 1 0 1 0 (List.replicate 8 0))).take 1) = 0 ∧
      (asking false (request 1 0 1 0 (List.replicate 8 0))).agent.sessions.length < 8 ∧ 8 ≤ (List.replicate 8 (session3 false)).length) ∧
    ([0, 0xFF].all fun k => lapType (expertOpen k) = 1 && natLE ((lapPayload (expertOpen k)).take 1) = 1 &&
      natLE (slice (lapPayload (expertOpen k)) 1 1) = k && (askedByNet (expertOpen k)).agent.sessions.length < 8 &&
      !(askedByNet (expertOpen k)).credentialOk (.udp [10, 0, 0, 2] 5000) (lapPayload (expertOpen k))) = true ∧
    lapType (request 6 0 1 0 []) = 6 := by decide +kernel

/-- Session 3 with an event repeated `k` times and last sent at time 0, at `ns`. -/
def pendingEvent (k : Nat) : PendingEvent := ⟨⟨1, 6, 0, 0, 0⟩, k, 0⟩
/-- The agent with that event. -/
def withEvent (k ns : Nat) : State := atTime ns { on0 with agent := { sessions := [{ session3 false with events := [pendingEvent k] }] } }

theorem witness_LedgerTimers :
    ((withEvent 0 999999).agent.sessions = [{ session3 false with events := [pendingEvent 0] }] ∧
      (withEvent 0 999999).now < (pendingEvent 0).last + 1000000 ∧ (pendingEvent 7).last + 1000000 ≤ (withEvent 7 1000000).now ∧
      (pendingEvent 7).repeats < 8 ∧ 8 ≤ (pendingEvent 8).repeats) ∧
    ((withEvent 0 0).session ((3 : SessionId).toNat) = some { session3 false with events := [pendingEvent 0] } ∧
      (withEvent 0 29999999999).now < 0 + (withEvent 0 29999999999).obj 0x1001 5 * 1000000 ∧
      0 + (withEvent 0 30000000000).obj 0x1001 5 * 1000000 ≤ (withEvent 0 30000000000).now) := by decide +kernel

/-! ### Witnesses: recovery -/

/-- A job ON with quill 0 UP, at `ns`. -/
def upJob (ns : Nat) : State := atTime ns { onJob with quills := [(0, quillUp {})] }

/-- A job ON whose nib 0 was and is held at a fence with the same count, at the end of the first progress window. -/
def stuckJob : State := atTime 50000000
  { binding := { fn := { code := .on } }
    nibs := [(0, { issue := { run := .running, hold := .fence } })]
    recovery := { samples := [(0, some 0)] } }

/-- An abort since time 0, at rest or with a nib that runs, with an enable pending or not. -/
def aborting (ns : Nat) (rest pending : Bool) : State := atTime ns
  { nibs := [(0, if rest then {} else runner)]
    binding := { fn := { code := .closing, pending := pending } }
    recovery := { abort := some ⟨0, 7, 0, 1⟩ } }

/-- A module in a compute-domain reset, with its job ON and quill 0 UP. -/
def computeReset : State := { upJob 5 with recovery := { steps := [⟨3, 0xFFFF, 0, 2, 0⟩] } }

theorem witness_BlotsAndAborts :
    ((onJob.pin 0).armed = true ∧ (onJob.pin 0).stuck = false ∧ onJob.binding.fn.code = .on ∧ onJob.recovery.abort = none ∧
      on0.binding.fn.code ≠ .on ∧ (on0.pin 0).armed = true) ∧
    (((upJob 5).quill 0).link = .up ∧ (upJob 5).recovery.keys = [] ∧ field (0 : BitVec 64).toNat 63 52 = (upJob 5).jobTag ∧
      (upJob 5).mayBlot = true ∧ field ((1 <<< 52 : BitVec 64)).toNat 63 52 ≠ (upJob 5).jobTag) ∧
    ((⟨0, 0, 0, 0⟩ : BlotKey) ∈ [(⟨0, 0, 0, 0⟩ : BlotKey)] ∧ (upJob 999999).now < 0 + 1000000) ∧
    (stuckJob.now / (stuckJob.obj 0x4C00 0 * 1000) * (stuckJob.obj 0x4C00 0 * 1000) = 50000000 ∧ stuckJob.recovery.lastBoundary < 50000000 ∧
      stuckJob.binding.fn.code = .on ∧ stuckJob.recovery.abort = none ∧ stuckJob.obj 0x4C06 0 = 1 ∧
      (stuckJob.checkedNibs.any fun x => SMap.get none stuckJob.recovery.samples x.1 = some x.2.count) = true ∧
      onJob.now / (onJob.obj 0x4C00 0 * 1000) * (onJob.obj 0x4C00 0 * 1000) ≤ onJob.recovery.lastBoundary) ∧
    ((aborting 0 false false).recovery.abort = some ⟨0, 7, 0, 1⟩ ∧ (aborting 0 false false).atRest = false ∧
      (aborting 99999 false false).now < 0 + 100000 ∧ (aborting 0 true false).atRest = true ∧
      0 + 100000 ≤ (aborting 100000 false false).now ∧
      (aborting 0 true false).blotWritable (aborting 0 true false).blotBase = true ∧
      (aborting 0 true false).binding.fn.pending = false ∧ (aborting 0 true true).binding.fn.pending = true ∧
      (aborting 0 true true).blotWritable (aborting 0 true true).blotBase = true ∧
      ((aborting 0 true true).nibs.all fun e => e.2.inbox.isEmpty) = true ∧ (SMap.get Nib.fresh [] 0).inbox = []) ∧
    (computeReset.computeDown = true ∧ computeReset.binding.fn.code = .on ∧ (computeReset.pin 0).armed = true ∧
      (computeReset.pin 0).stuck = false ∧ computeReset.mayBlot = false ∧ computeReset.recovery.keys = [] ∧
      (computeReset.quill 0).link = .up ∧ field (0 : BitVec 64).toNat 63 52 = computeReset.jobTag ∧ onJob.computeDown = false ∧
      stuckJob.computeDown = false) := by
  decide +kernel

/-- A module in one reset step that began at time 0, at `ns`. -/
def stepping (k nib ns : Nat) : State := atTime ns { on0 with recovery := { steps := [⟨k, nib, 1, 1, 0⟩] } }

/-- The same with 0x4C02:00 one minute or 0. -/
def steppingWith (v ns : Nat) : State := { stepping 3 0xFFFF ns with objs := [(objKey 0x4C02 0, v)] }

/-- A part reset with quill 0 in CLOSING that has `k` strokes of GOING_DOWN left. -/
def goingDown (k : Nat) : State :=
  { stepping 4 0xFFFF 0 with quills := [(0, { link := .closing, port := { farewell := k } })] }

/-- A module in COMPUTE_HELD since time 0. -/
def computeHeld (ns : Nat) : State := atTime ns { on0 with recovery := { held := some 0 } }
/-- One that writes a record to slot 0. -/
def recording : State := { on0 with recovery := { record := some ⟨on0.blotBase, 0, 1, 0, 7, 0⟩ } }

theorem witness_ResetsFollow :
    (recording.recovery.record = some ⟨on0.blotBase, 0, 1, 0, 7, 0⟩ ∧ recording.recovery.wanted = []) ∧
    ((stepping 2 0 0).recovery.steps = [⟨2, 0, 1, 1, 0⟩] ∧ (stepping 2 0 0).virtNib 0 = some 0 ∧ ((stepping 2 0 0).nib 0).slots = [] ∧
      (stepping 3 0 0).recovery.steps = [⟨3, 0, 1, 1, 0⟩] ∧ (stepping 2 0 0).recovery.wanted = [] ∧
      (stepping 1 0 99999).now < 0 + stepTimer 1 ∧ (stepping 1 0 99999).boot.phase = .running ∧ 0 + stepTimer 1 ≤ (stepping 1 0 100000).now ∧
      (stepping 1 0 100000).recovery.abort = none ∧ (stepping 1 0 100000).recovery.record = none ∧
      (stepping 1 0 100000).recovery.retired = none) ∧
    ((steppingWith 60000 2000000).recovery.steps = [⟨3, 0xFFFF, 1, 1, 0⟩] ∧ 0 + stepTimer 3 ≤ (steppingWith 60000 2000000).now ∧
      (steppingWith 60000 2000000).recovery.wanted = [] ∧ (steppingWith 60000 2000000).obj 0x4C02 0 ≠ 0) ∧
    ((stepping 4 0xFFFF 0).recovery.steps = [⟨4, 0xFFFF, 1, 1, 0⟩] ∧ (stepping 4 0xFFFF 0).recovery.wanted = [] ∧
      ((List.range 16).all fun q => (stepping 4 0xFFFF 0).quill q |>.link |> (· ≠ .closing)) = true ∧
      ((List.range 16).all fun q => ((goingDown 0).quill q).port.farewell = 0) = true ∧ ((goingDown 0).quill 0).link = .closing ∧
      ((goingDown 3).quill 0).link = .closing ∧ ((goingDown 3).quill 0).port.farewell ≠ 0) ∧
    ((computeHeld 0).recovery.held = some 0 ∧ (computeHeld 0).recovery.wanted = [] ∧
      (computeHeld 59999999999).now < 0 + (computeHeld 59999999999).obj 0x4C02 0 * 1000000 ∧
      0 + (computeHeld 60000000000).obj 0x4C02 0 * 1000000 ≤ (computeHeld 60000000000).now ∧
      (computeHeld 60000000000).recentRecord = false ∧
      (computeHeld 60000000000).blotWritable (computeHeld 60000000000).blotBase = true ∧
      (computeHeld 60000000000).recovery.abort = none) ∧
    (on0.inPartReset = false ∧ (∀ s : State, s = { on0 with time := { ticks := 2000000000 } } →
      s.inPartReset = false ∧ s.recovery.savedMs + 1000 ≤ s.serviceTime)) := by
  refine ⟨by decide +kernel, by decide +kernel, by decide +kernel, by decide +kernel, by decide +kernel, by decide +kernel, ?_⟩
  rintro s rfl; decide +kernel
/-! ### Witnesses: the Tamyx Link -/

/-- Window 1 over desk page 0 at TXL address 2^28, readable and writable, page 0 mapped to frame 5 with COH or not, and a message
waiting; the link is UP with credits. -/
def windowWord (rights : Nat) : Nat := 2 ^ 63 + rights * 2 ^ 61 + 2 ^ 37
def companion (coh : Nat) (rights : Nat) (m : TxlMsg) : State := State.setObj
  { desk := { mem := tables.writeBytes 0x20007 [BitVec.ofNat 8 (0xE0 + 16 * coh)] }
    txl := { link := .up, rspCr := 64, dataCr := 256, reqCr := 8, rx := [m] } } 0x2E10 1 (windowWord rights)

/-- Messages of tag 7 to a window line, to the Prompt Window, to MBCTRL and to nowhere. -/
def toWindow (opc : Nat) (data : List Byte) : TxlMsg := txlMsg opc 7 (2 ^ 28) (2 ^ 64 - 1) data
def toPrompt (opc : Nat) : TxlMsg := txlMsg opc 7 0 1 (List.replicate 64 0)
def toMbctrl : TxlMsg := txlMsg 4 7 0x7000 1 (1 :: List.replicate 63 0)
def nowhere (opc : Nat) : TxlMsg := txlMsg opc 7 (2 ^ 40) 0 []
def line64 : List Byte := List.replicate 64 3

/-- The companion holds the line behind the window's start; a BINV for it is out; a request of tag 7 is in progress. -/
def holdingLine (m : TxlMsg) : State := { companion 1 3 m with desk := { directory := [⟨0x28000, .exclusive, 2 ^ 28⟩] } }
def invalidating (m : TxlMsg) : State := { holdingLine m with txl := { rx := [m], binvs := [{ line := 0x28000, tag := 7, sent := 0 }] } }
def serving (opc : Nat) (coh : Bool) (dir : List DirEntry) : State :=
  { companion 1 3 (nowhere 1) with
    txl := { link := .up, reqs := [{ msg := toWindow opc line64, pa := 0xA00000, coh := coh }] }
    desk := { directory := dir } }

/-- Sixteen lines of the set of line 0x28000, and the line itself held. -/
def fullSet : List DirEntry := (List.range 16).map fun k => ⟨0x28000 + 65536 * (k + 1), .shared, 64 * k⟩
def heldLine : List DirEntry := [⟨0x28000, .exclusive, 2 ^ 28⟩]

/-- The state once its message is taken, and the same with its address translated. -/
def popped (s : State) (m : TxlMsg) : State := { s with txl := { s.txl with rx := [] }.freed m }
def translated (s : State) (m : TxlMsg) : State × Trans := (popped s m).translateFor 0 .forWindow

theorem witness_TxlRequests :
    (([1, 2, 3, 4, 5, 6, 7].all fun o => (takeTxl [o] 7 (companion 1 3 (nowhere o)).txl.rx = some (nowhere o, [])) &&
      (companion 1 3 (nowhere o)).decodeTxl (nowhere o).addr = .nomap && ((companion 1 3 (nowhere o)).dirByTxl (nowhere o).addr).isNone) = true) ∧
    (([1, 2, 4].all fun o => (companion 1 3 (toPrompt o)).decodeTxl (toPrompt o).addr = .control 0) = true ∧
      (companion 1 3 (toPrompt 4)).linesHeld ((companion 1 3 (toPrompt 4)).obj 0x2E01 0 + 0) 64 true = false) ∧
    ((companion 1 3 toMbctrl).decodeTxl toMbctrl.addr = .control 0x7000 ∧ toMbctrl.arg.testBit 0 = true) ∧
    ((companion 1 3 (toWindow 1 [])).decodeTxl (toWindow 1 []).addr = .window (windowWord 3) 0 ∧
      (([1, 2, 3, 4].all fun o => winRight (windowWord 3) o) = true) ∧ winRight (windowWord 2) 3 = false ∧
      (companion 1 2 (toWindow 3 [])).decodeTxl (toWindow 3 []).addr = .window (windowWord 2) 0 ∧
      (([1, 2, 3, 4, 5, 6].all fun o => takeTxl [o] 7 (companion 1 3 (toWindow o [])).txl.rx = some (toWindow o [], []) &&
        (translated (companion 1 3 (toWindow o [])) (toWindow o [])).2 = .ok 0xA00000 true &&
        (translated (companion 0 3 (toWindow o [])) (toWindow o [])).2 = .ok 0xA00000 false &&
        !(translated (companion 1 3 (toWindow o [])) (toWindow o [])).1.setFull (0xA00000 / 64) &&
        ((translated (companion 1 3 (toWindow o [])) (toWindow o [])).1.lineOf (toWindow o []).addr (.ok 0xA00000 true)).isNone) = true)) ∧
    (([5, 6].all fun o => takeTxl [o] 7 (holdingLine (toWindow o line64)).txl.rx = some (toWindow o line64, []) &&
      (holdingLine (toWindow o line64)).decodeTxl (toWindow o line64).addr = .window (windowWord 3) 0 &&
      (translated (holdingLine (toWindow o line64)) (toWindow o line64)).1.lineOf (toWindow o line64).addr
        (translated (holdingLine (toWindow o line64)) (toWindow o line64)).2 = some ⟨0x28000, .exclusive, 2 ^ 28⟩ &&
      (translated (holdingLine (toWindow o line64)) (toWindow o line64)).1.txl.binvs.isEmpty) = true) ∧
    (takeTxl [7, 8] 7 (invalidating (toWindow 8 line64)).txl.rx = some (toWindow 8 line64, []) ∧
      (invalidating (toWindow 8 line64)).txl.binvs.find? (fun b => b.tag = (toWindow 8 line64).tag) =
        some { line := 0x28000, tag := 7, sent := 0 } ∧
      (invalidating (toWindow 8 line64)).txl.binvs = [{ line := 0x28000, tag := 7, sent := 0, evictFor := none }] ∧
      (invalidating (toWindow 8 line64)).dirEntry 0x28000 = some ⟨0x28000, .exclusive, 2 ^ 28⟩) ∧
    (([1, 2, 3, 4].all fun o => ((serving o false []).txl.reqs.find? (fun q => q.msg.tag = 7) =
        some { msg := toWindow o line64, pa := 0xA00000, coh := false }) &&
      (toWindow o line64).opc = o && (serving o false []).desk.ecc.isEmpty && (serving o false []).desk.link.isEmpty &&
      (serving o false []).desk.astray.isEmpty && !(serving o false []).setFull (0xA00000 / 64) &&
      ((serving o false []).dirEntry (0xA00000 / 64)).isNone &&
      (serving o false []).decodeTxl (toWindow o line64).addr = .window (windowWord 3) 0) = true) ∧
    (([2, 3].all fun o => (serving o true fullSet).txl.reqs.find? (fun q => q.msg.tag = 7) =
        some { msg := toWindow o line64, pa := 0xA00000, coh := true } && (serving o true fullSet).setFull (0xA00000 / 64) &&
      (serving o true fullSet).desk.ecc.isEmpty && (serving o true fullSet).desk.link.isEmpty &&
      (serving o true fullSet).desk.astray.isEmpty) = true) ∧
    ((serving 4 true heldLine).txl.reqs.find? (fun q => q.msg.tag = 7) =
        some { msg := toWindow 4 line64, pa := 0xA00000, coh := true } ∧ (serving 4 true heldLine).linesHeld 0xA00000 64 true = true ∧
      (serving 4 true heldLine).desk.ecc = [] ∧ (serving 4 true heldLine).desk.link = [] ∧
      (serving 4 true heldLine).desk.astray = []) := by decide +kernel

/-- A flit of FTYPE `t`, FSEQ 0 and empty slots; the same with byte 40 in error, and with bytes 40 and 42. -/
def flit (t : Nat) : List Byte := flitBytes ⟨t * 2 ^ 30, []⟩
def hurtFlit : List Byte := (flit 1).set 40 9
def badFlit : List Byte := hurtFlit.set 42 9

set_option maxRecDepth 100000 in
/-- R408: a flit is 256 bytes, and reads as it was sent where no more than one byte of a codeword is in error. -/
theorem test_flit_reads : (flit 1).length = 256 ∧ readFlit (flit 1) = ⟨0, some ⟨2 ^ 30, List.replicate 240 0⟩⟩ ∧
    readFlit hurtFlit = ⟨1, some ⟨2 ^ 30, List.replicate 240 0⟩⟩ ∧ (readFlit badFlit).good = none ∧
    (readFlit (flit 3)).good = none := by decide +kernel

/-- The TXL UP with the given state, at `ns`. -/
def txlUpAt (ns : Nat) (x : Txl) : State := atTime ns { txl := { x with link := .up } }
def keptFlit : TxlKept := ⟨0, ⟨2 ^ 30, []⟩, 0⟩

set_option maxRecDepth 100000 in
theorem witness_TxlLink :
    ((txlUpAt 0 {}).txl.link = .up ∧ (readFlit hurtFlit).corrected ≠ 0 ∧ (readFlit badFlit).good = none ∧
      (readFlit (flit 1)).good = some ⟨2 ^ 30, List.replicate 240 0⟩ ∧ field (2 ^ 30) 31 30 = 1 ∧
      field (2 ^ 30) 29 20 = (txlUpAt 0 {}).txl.expect ∧ field (2 ^ 30) 29 20 ≠ (txlUpAt 0 { expect := 1 }).txl.expect ∧
      (readFlit (flit 0)).good = some ⟨0, List.replicate 240 0⟩ ∧ field 0 31 30 ≠ 1 ∧ (txlUpAt 0 {}).txl.nak = false) ∧
    (16 ≤ (txlUpAt 0 { fresh := 16 }).txl.fresh ∧ (txlUpAt 32 { fresh := 1 }).txl.freshAt + 32 ≤ (txlUpAt 32 { fresh := 1 }).now ∧
      (txlUpAt 32 { fresh := 1 }).txl.fresh ≠ 0) ∧
    ((txlUpAt 0 { nakSeen := true, kept := [keptFlit] }).txl.nakSeen = true ∧
      (txlUpAt 0 { nakSeen := true, kept := [keptFlit] }).txl.kept ≠ [] ∧ on0.txl.nakSeen = false ∧ on0.txl.link = .down) ∧
    (keptFlit.sent + 10000 ≤ (txlUpAt 10000 { kept := [keptFlit] }).now ∧
      (∀ b : Binv, b = { line := 0, tag := 0, sent := 0 } → b.done = false ∧
        b.sent + (txlUpAt 8000 { binvs := [b] }).obj 0x4E00 0 ≤ (txlUpAt 8000 { binvs := [b] }).now)) ∧
    (on0.boot.phase = .running ∧ on0.txl.link ≠ .up ∧ (63 : Nat) < 64 ∧ (64 : Nat) ≤ 64 ∧ (256 : Nat) ≤ 256) ∧
    ((txlUpAt 0 { rsp := true, rspWait := [line64] }).txl.rspWait = line64 :: [] ∧ (txlUpAt 0 {}).boot.phase = .running ∧
      (txlUpAt 0 { evt := true, evtWait := [line64] }).txl.evtWait = line64 :: [] ∧ (txlUpAt 0 {}).txl.rspWait = [] ∧
      (txlUpAt 0 {}).txl.evtWait = []) := by
  refine ⟨by decide +kernel, by decide +kernel, by decide +kernel, ⟨by decide +kernel, ?_⟩, by decide +kernel, by decide +kernel⟩
  rintro b rfl; decide +kernel

/-! ### Witnesses: the management ports, boot, pins and test ports -/

/-- A module whose boot failed with code 0x12. -/
def bootFailed : State := { boot := { phase := .failed 0x12 } }

theorem witness_ManagementPorts :
    (on0.boot.phase = .running ∧ on0.blob 0x1001 2 4 = [0, 0, 0, 0] ∧ [1, 2, 3, 4] ≠ on0.blob 0x1001 2 4 ∧ 6100 = on0.obj 0x1001 1 ∧
      on0.ownAddress [0, 0, 0, 0] = true ∧ on0.ownAddress (List.replicate 16 0) = true ∧ on0.ownAddress [1, 2, 3, 4] = false) ∧
    (((true : Bool) = true ↔ ({ on0 with objs := [(objKey 0x4702 0, some 1)] } : State).obj 0x4702 0 = 1) ∧
      ((false : Bool) = true ↔ ({ on0 with objs := [(objKey 0x4702 0, some 0)] } : State).obj 0x4702 0 = 1) ∧
      ¬((true : Bool) = true ↔ ({ on0 with objs := [(objKey 0x4702 0, some 0)] } : State).obj 0x4702 0 = 1) ∧
      ¬((false : Bool) = true ↔ ({ on0 with objs := [(objKey 0x4702 0, some 1)] } : State).obj 0x4702 0 = 1)) ∧
    bootFailed.boot.phase = .failed 0x12 := by decide +kernel

/-- A module whose power is off, one in reset with MOD_RST_N high, one that boots, and one with a firmware command. -/
def powerOff : State := { boot := { phase := .off } }
def inReset : State := { boot := { phase := .held } }
def bootingUp : State := { boot := { phase := .booting } }
def commanded (c arg : Nat) : State := { boot := { job := some (c, arg) } }

/-- Power, a boot that no image survives, each firmware command, and an INSTALL whose image is rejected for its format. -/
theorem witness_BootAndFirmware :
    (powerOff.boot.phase = .off ∧ inReset.boot.phase = .held ∧ (inReset.pin 3).level = false ∧ inReset.tap.instr = .idcode) ∧
    (on0.boot.phase ≠ .booting ∧ bootingUp.boot.phase = .booting ∧
      (chooseSlot bootingUp.fuses bootingUp.flash).2 = (none, 0x11) ∧ bootingUp.obj 0x6041 15 = 1) ∧
    (on0.boot.job = none ∧ (commanded 1 0).boot.job = some (1, 0) ∧ (commanded 2 0).boot.job = some (2, 0) ∧
      (commanded 4 1).boot.job = some (4, 1) ∧ (commanded 3 0).boot.job = some (3, 0) ∧
      imageCode (commanded 3 0).fuses (commanded 3 0).newImage ((commanded 3 0).obj 0x4D01 0) ≠ 0) := by decide +kernel

/-- SHA3-256 of nothing, as FIPS 202's test vectors give it. -/
def sha3Empty : List Byte :=
  [0xA7, 0xFF, 0xC6, 0xF8, 0xBF, 0x1E, 0xD7, 0x66, 0x51, 0xC1, 0x47, 0x56, 0xA0, 0x61, 0xD6, 0x62,
   0xF5, 0x80, 0xFF, 0x4D, 0xE4, 0x3B, 0x49, 0xFA, 0x82, 0xD8, 0x0A, 0x4B, 0x80, 0xF8, 0x43, 0x4A]

theorem test_sha3 : sha3 [] = sha3Empty := by decide +kernel

/-- The header of an image of 16 KiB of version 0 whose stages are empty, the image, and fuses that hold the hash of its key. -/
def imageStart : List Byte := ascii "VZFW" ++ [1, 0, 0, 0] ++ List.replicate 8 0 ++ [0, 0x20, 0, 0, 0, 0, 0, 0, 0, 0x30, 0, 0, 0, 0, 0, 0] ++
  sha3Empty ++ sha3Empty
def imageHeader : List Byte := imageStart ++ List.replicate 8096 0
def image : Memory := Memory.writeBytes [] 0 imageStart
def fused : Fuses := { keys := [sha3 (List.replicate 1952 0)] }

/-- A module that boots from that image in slot A. -/
def bootable : State := { boot := { phase := .booting }, fuses := fused, flash := { slotA := { st := 1, pref := true, len := 16384 }, imageA := image } }

/-- R436, check by check, of an image whose signature verifies. -/
theorem imageCode_verified (f : Fuses) (m : Memory) (len : Nat) (hd : List Byte) (hh : m.readBytes 0 8192 = hd)
    (h1 : (hd.take 4 = ascii "VZFW" && hdrNat hd 4 2 = 1 && hdrNat hd 6 1 ≤ 3 && zeros (slice hd 7 1) && zeros (slice hd 0x60 160) &&
      zeros (hd.drop 0x158D) && stageOk hd 0x10 0x14 1048576 len && stageOk hd 0x18 0x1C 117440512 len) = true)
    (h2 : f.keys.getD (hdrNat hd 6 1) [] = sha3 (slice hd 0x100 1952)) (h3 : f.revoked.contains (hdrNat hd 6 1) = false)
    (h4 : f.floor ≤ hdrNat hd 0xC 4 ∧ hdrNat hd 0xC 4 ≤ 64)
    (h5 : sha3 (m.readBytes (hdrNat hd 0x10 4) (hdrNat hd 0x14 4)) = slice hd 0x20 32)
    (h6 : sha3 (m.readBytes (hdrNat hd 0x18 4) (hdrNat hd 0x1C 4)) = slice hd 0x40 32)
    (h : Config.mldsaVerify 65 (slice hd 0x100 1952) fwContext (hd.take 0x8A0) (slice hd 0x8A0 3309) = true) :
    imageCode f m len = 0 := by
  simp only [imageCode, hh]
  rw [if_neg (by rw [h1]; simp), if_neg (by rw [h3, h2]; simp), if_neg (by rw [h]; simp), if_neg (by simp; omega),
    if_neg (by rw [h5, h6]; simp)]

/-- A slot that is VALID and preferred boots where its image passes. -/
theorem chooseSlot_passes (fu : Fuses) (fl : Flash) (h0 : fl.slotA.pref = true) (h1 : fl.slotA.st = 1)
    (h : imageCode fu fl.imageA fl.slotA.len = 0) : chooseSlot fu fl = (fl, some 0, 0) := by
  simp [chooseSlot, trySlot, Flash.slot, Flash.image, h0, h1, h]

/-- Bytes past the last listed one read as zero. -/
theorem getRange_past {α : Type} (d : α) (m : SMap α) (n k : Nat) (h : (m.all fun e => e.1 < k) = true) :
    SMap.getRange d m k n = List.replicate n d := by
  have g : ∀ (m : SMap α) (k : Nat), (m.all fun e => e.1 < k) = true → SMap.get d m k = d := by
    intro m k h
    induction m with
    | nil => rfl
    | cons e m ih =>
      simp only [List.all_cons, Bool.and_eq_true, decide_eq_true_eq] at h
      simp only [SMap.get]
      rw [if_neg (by omega), ih h.2]
  induction n generalizing k with
  | zero => rfl
  | succ n ih =>
    rw [SMap.getRange, g m k h, ih (k + 1), List.replicate_succ]
    simp only [List.all_eq_true, decide_eq_true_eq] at h ⊢
    exact fun e he => Nat.lt_succ_of_lt (h e he)

/-- A range read in two parts. -/
theorem getRange_add {α : Type} (d : α) (m : SMap α) (a b k : Nat) :
    SMap.getRange d m k (a + b) = SMap.getRange d m k a ++ SMap.getRange d m (k + a) b := by
  induction a generalizing k with
  | zero => simp [SMap.getRange]
  | succ a ih => rw [Nat.succ_add, SMap.getRange, SMap.getRange, ih, Nat.succ_add_eq_add_succ]; rfl

/-- The header reads from the image as it was written. -/
theorem imageHeader_reads : image.readBytes 0 8192 = imageHeader := by
  have e : image.readBytes 0 8192 = image.readBytes 0 96 ++ image.readBytes 96 8096 := getRange_add 0 image 96 8096 0
  have h1 : image.readBytes 0 96 = imageStart := by decide +kernel
  have h2 : image.readBytes 96 8096 = List.replicate 8096 0 := getRange_past 0 image 8096 96 (by decide +kernel)
  rw [e, h1, h2]; rfl

set_option maxRecDepth 100000 in
/-- The signature check is a free value of Config: where it accepts the image's signature, slot A is chosen. -/
theorem witness_BootAndFirmware_signed (h : Config.mldsaVerify 65 (slice imageHeader 0x100 1952) fwContext (imageHeader.take 0x8A0)
    (slice imageHeader 0x8A0 3309) = true) : chooseSlot bootable.fuses bootable.flash = (bootable.flash, some 0, 0) := by
  have k : slice imageHeader 0x100 1952 = List.replicate 1952 0 := by decide +kernel
  have n : hdrNat imageHeader 6 1 = 0 := by decide +kernel
  refine chooseSlot_passes _ _ rfl rfl (imageCode_verified fused image 16384 imageHeader imageHeader_reads ?_ ?_ ?_ ?_ ?_ ?_ h)
  · decide +kernel
  · rw [n, k]; rfl
  · rw [n]; rfl
  · decide +kernel
  · rw [show hdrNat imageHeader 0x14 4 = 0 by decide +kernel]
    exact test_sha3.trans (by decide +kernel)
  · rw [show hdrNat imageHeader 0x1C 4 = 0 by decide +kernel]
    exact test_sha3.trans (by decide +kernel)

/-- A module with input `p` as given, at `ns`, its job ON. -/
def pinned (p ns : Nat) (x : Pin) : State := atTime ns { onJob with pins := { inputs := [(p, x)] } }

theorem witness_PinsAndPower :
    (([1, 2, 3].all fun p => ((pinned p 0 {}).pin p).armed && !((pinned p 0 {}).pin p).stuck) = true) ∧
    ((pinned 1 0 {}).binding.fn.code = .on ∧ ((pinned 1 0 {}).setObj 0x4F11 0 1).obj 0x4F11 0 = 1) ∧
    (∀ s : State, s = { on0 with pins := { lastPps := some 5 } } → s.pins.lastPps = some 5 ∧ 6 < 5 + 500000000) ∧
    (on0.pins.lastPps = none ∧ on0.boot.phase ≠ .off) ∧
    (on0.time.refOk = true ∧ (upJob 5).time.refOk = true ∧ ((upJob 5).quill 0).link = .up ∧ (upJob 5).boot.phase ≠ .off ∧
      ((upJob 5).pin 3).armed = true ∧ ((upJob 5).pin 3).stuck = false ∧
      ((List.range 16).all fun q => decide ((on0.quill q).link ≠ .up)) = true ∧
      ({ upJob 5 with time := { refOk := false } } : State).time.refOk = false) ∧
    (inReset.boot.phase = .held ∧ inReset.pins.pwrGood = true ∧ inReset.tap.instr = .idcode ∧ on0.boot.phase = .running) ∧
    (((0 : PinId) ≠ 3 ∧ ((pinned 0 1000000001 { level := true }).pin 0).level = true ∧
      ((pinned 0 1000000001 { level := true }).pin 0).stuck = false ∧
      ((pinned 0 1000000001 { level := true }).pin 0).since + 1000000000 < (pinned 0 1000000001 { level := true }).now) ∧
      (pinned 0 1000000000 { level := true }).now ≤ ((pinned 0 1000000000 { level := true }).pin 0).since + 1000000000) := by
  refine ⟨by decide +kernel, by decide +kernel, ?_, by decide +kernel, by decide +kernel, by decide +kernel, by decide +kernel⟩
  rintro s rfl; decide +kernel

/-- Quill 0 in a lane test of PRBS7 with its checkers on, lane 0 locked or not. -/
def testing (lock : Bool) (pattern : Nat := 0) : State :=
  State.setObj { quills := [(0, { lanes := SMap.set {} [] 0 { locked := lock } })] } 0x6060 0 (1 + 16 * pattern + 2 ^ 9 + 2 ^ 12)

/-- 64 symbols of PRBS7 from a register of ones, Gray coded, and 64 symbols of zeros. -/
def prbs7 : Nat → List Bool → List Bool
  | 0, _ => []
  | n + 1, r =>
    let b := r.getD 6 false ^^ r.getD 5 false
    b :: prbs7 n ((b :: r).take 7)
def symbolsOf : List Bool → List (BitVec 2)
  | a :: b :: bs => (if a then (if b then 2 else 3) else if b then 1 else 0) :: symbolsOf bs
  | _ => []
def goodSymbols : List (BitVec 2) := symbolsOf (prbs7 128 (List.replicate 7 true))

theorem witness_TestPorts :
    ((testing false).checking 0 0 = true ∧ 64 ≤ goodSymbols.length ∧
      (SMap.get ({} : LaneTest) ((testing false).quill 0).lanes 0).locked = false ∧ field ((testing false).obj 0x6060 0) 6 4 ≠ 6 ∧
      followsPattern (patternTaps (field ((testing false).obj 0x6060 0) 6 4)) (goodSymbols.flatMap grayBits) = true ∧
      followsPattern (patternTaps (field ((testing false).obj 0x6060 0) 6 4)) ((List.replicate 64 (0 : BitVec 2)).flatMap grayBits) = false) ∧
    ((testing false 6).checking 0 0 = true ∧ field ((testing false 6).obj 0x6060 0) 6 4 = 6 ∧
      (SMap.get ({} : LaneTest) ((testing false 6).quill 0).lanes 0).locked = false) ∧
    ((testing true).checking 0 0 = true ∧ (SMap.get ({} : LaneTest) ((testing true).quill 0).lanes 0).locked = true) ∧
    (∀ s : State, s = { onJob with pins := { inputs := [(3, { level := true })] } } → ((s.pin 3).level = true ∧ s.pins.pwrGood = true)) := by
  refine ⟨by decide +kernel, by decide +kernel, by decide +kernel, ?_⟩; rintro s rfl; decide +kernel

/-! ### Witnesses: writes of one object by a session -/

/-- A module with one expert session, identifier 3. -/
def expert : State := { on0 with agent := { sessions := [{ session3 false with expert := true }] } }

/-- The same with a fetch whose chunk 0 is HELD at entry 63, a quill that is OFF, or a job ON. -/
def expertHeld : State := { holding 0 with agent := expert.agent }
def expertOff : State := { expert with quills := [(0, { fn := {}, link := .down })] }
def expertJob : State := { onJob with agent := expert.agent }

theorem witness_SessionWrites :
    ((8447 : BitVec 14).toNat < 8448 ∧ (3 : Byte).toNat ≤ 3 ∧ 1 ≤ (4 : Byte).toNat ∧ (4 : Byte).toNat ≤ 4 ∧ (List.replicate 32 (0 : Byte)).length = 32 ∧
      testWordOk (0 : BitVec 32).toNat = true ∧ testWordOk (1 : BitVec 32).toNat = true ∧ testWordOk (0xF002 : BitVec 32).toNat = true ∧
      field (0 : BitVec 32).toNat 1 0 = 0 ∧ field (1 : BitVec 32).toNat 1 0 = 1 ∧ field (0xF002 : BitVec 32).toNat 1 0 = 2) ∧
    (([(0x9000, 1, 1), (0x4622, 0, 1), (0x4623, 0, 1), (0x4705, 0, 1), (0x6041, 15, 1), (0x2B12, 0, 1), (0x2B15, 0, 1), (0x4C04, 0, 1),
        (0x4C03, 0, 4), (0x4C05, 0, 1), (0x4C01, 0, 8), (0x2D20, 0, 2), (0x2D04, 0, 32), (0x2D10, 0, 32), (0x1001, 0x20, 1), (0x4F10, 0, 1),
        (0x6060, 15, 4)].all fun p => expert.writeBar 3 p.1 p.2.1 p.2.2 = .ok && on0.writeBar 3 p.1 p.2.1 p.2.2 ≠ .ok) = true) ∧
    ((expert.countCycles [(0, 30000)]).writeBar 3 0x4705 0 1 = .ok ∧ (on0.countCycles [(0, 30000)]).writeBar 3 0x4705 0 1 ≠ .ok) := by
  decide +kernel

theorem witness_SessionWriteEffects :
    (expert.writeBar 3 0x9000 1 1 = .ok ∧ expert.agent.staging.st = .idle) ∧
    (expertHeld.writeBar 3 0x4622 0 1 = .ok ∧ SMap.get none expertHeld.desk.entries (63 : BitVec 6).toNat = some heldEntry ∧ heldEntry.st = 1 ∧
      expertHeld.entryTransfer 63 heldEntry = some 0 ∧
      ((expertHeld.nib heldEntry.virt).resQueue heldEntry.rq)[0]? = some { started with st := .held 1 63 }) ∧
    expert.writeBar 3 0x4623 0 1 = .ok ∧ (expertOff.writeBar 3 0x6041 0 1 = .ok ∧ (expertOff.quill 0).fn.code = .off) ∧
    (expert.writeBar 3 0x2B12 0 1 = .ok ∧ expert.binding.fn.code = .off ∧ expert.place.running = false ∧
      expertJob.writeBar 3 0x2B12 0 1 = .ok ∧ expertJob.binding.fn.code ≠ .off) ∧
    (expertJob.writeBar 3 0x4C04 0 1 = .ok ∧ expertJob.mayBlot = true) ∧
    (expert.writeBar 3 0x2D20 0 2 = .ok ∧ expert.fwRefused 4 1 = false ∧ expert.fwRefused 4 0 = true) ∧
    expert.writeBar 3 0x2D04 0 32 = .ok := by decide +kernel

/-! ### Witness: fuses -/

theorem witness_StepKeepsFuses :
    State.reset.keepsFuses State.reset.fuses ∧ (match step { State.reset with pending := [.nibFaulted 0] } with
      | .next t => t.pending = []
      | _ => False) := by
  refine ⟨⟨rfl, rfl, rfl, rfl, rfl, rfl, rfl, rfl, Nat.le_refl _, fun _ h => h⟩, ?_⟩
  rfl

/-! ### Ill-formed commands, each refused by the check -/

def illFec : FecReport := ⟨[], [15], []⟩
def frame (n : Nat) : Frame := ⟨0, List.replicate n 0, 0⟩

/-- A word of another row, for each row of an instruction. -/
theorem test_wf_words : (instructionRows.all fun r => !(r.make 0 (word (if r.op = 0 then 1 else 0) 0 0)).wf && (r.make 0 (word r.op 0 0)).wf &&
    (r.make 0 (word 0x3F 0 0)).wf) = true := by decide +kernel

theorem test_wf_lists : Instr.wf (.patrolScrub 0 [⟨0, 0⟩]) = false ∧ Instr.wf (.patrolScrub 0 [⟨3, 1⟩, ⟨3, 1⟩]) = false ∧
    Instr.wf (.drainDeadline [(0, 0), (0, 4)]) = false ∧ Instr.wf (.lineBoundary [(2, 0), (2, 1)]) = false ∧
    Instr.wf (.perBankRefresh 0 ⟨256, []⟩) = false ∧
    Instr.wf (.perBankRefresh 0 ⟨0, [.bits 0 0]⟩) = false ∧ Instr.wf (.perBankRefresh 0 ⟨0, [.bits (2 ^ 34) 1]⟩) = false ∧
    Instr.wf (.perBankRefresh 0 ⟨0, [.link (2 ^ 34) .failed]⟩) = false ∧ Instr.wf (.perBankRefresh 0 ⟨0, [.astray 0 5]⟩) = false := by decide +kernel

theorem test_wf_links : Instr.wf (.rxFrameArrival 0 0 (frame 4097) noFec) = false ∧ Instr.wf (.rxFrameArrival 0 0 (frame 64) illFec) = false ∧
    Instr.wf (.controlFieldReceive 0 (List.replicate 79 0) noFec) = false ∧ Instr.wf (.controlFieldReceive 0 (List.replicate 80 0) illFec) = false ∧
    Instr.wf (.linkFrameReceive 0 (List.replicate 79 0) (List.replicate 576 0) noFec) = false ∧
    Instr.wf (.linkFrameReceive 0 (List.replicate 80 0) (List.replicate 575 0) noFec) = false ∧
    Instr.wf (.linkFrameReceive 0 (List.replicate 80 0) (List.replicate 576 0) illFec) = false ∧
    Instr.wf (.identReceive 0 (List.replicate 79 0) (List.replicate 576 0)) = false ∧
    Instr.wf (.identReceive 0 (List.replicate 80 0) (List.replicate 575 0)) = false := by decide +kernel

theorem test_wf_ports : Instr.wf (.txlFlitReceive (List.replicate 255 0)) = false ∧
    Instr.wf (.mgmtFrameReceive (.arp [1, 2, 3])) = false ∧ Instr.wf (.mgmtFrameReceive (.neighbour [1, 2, 3, 4])) = false ∧
    Instr.wf (.mgmtFrameReceive (.echo4 [1] [])) = false ∧ Instr.wf (.mgmtFrameReceive (.echo6 [1] [])) = false ∧
    Instr.wf (.mgmtFrameReceive (.lap .mailbox [1, 2, 3, 4] 6100 false [])) = false ∧
    Instr.wf (.mgmtFrameReceive (.lap (.udp [1, 2, 3, 4] 9) [1, 2, 3, 4] 65536 false [])) = false ∧
    Instr.wf (.mgmtFrameReceive (.lap (.udp [1, 2, 3, 4] 9) [1, 2] 6100 false [])) = false ∧
    Instr.wf (.dieTemperature true (List.replicate 15 0)) = false := by decide +kernel

theorem test_wf_link_tests : Instr.wf (.linkTestOff 3 0 1) = false ∧ Instr.wf (.linkTestLane 3 0 2) = false ∧
    Instr.wf (.linkTestFramed 3 0 0) = false ∧ Instr.wf (.checkerLock 0 0 (List.replicate 63 0)) = false ∧
    Instr.wf (.checkerLockLoss 0 0 2049) = false := by decide +kernel

/-! ### Worked examples -/

/-- 00 R12: T = 1,000,000,000 ns falls 16 ns into stroke 106 of line 40,690. -/
theorem test_line_and_stroke : (atTime 1000000000 on0).line = 40690 ∧ (atTime 1000000000 on0).now % 24576 / 24 = 106 := by decide +kernel

/-- 03, order does not matter: 3 × 2^36 units of 2^-40 round to 0x3E40 in BF16. -/
theorem test_bf16 : (Fmt.encode .bf16 (-40) .nearest (.fin (3 * 2 ^ 36) 1 (-40))).1.code = 0x3E40 := by decide +kernel

/-- 03 R91: a quarter is rounded up exactly when the bits lie below 0x40000000. -/
theorem test_stochastic : roundQuot ⟨.sr, 0x3FFFFFFF⟩ 1 4 = (1, true) ∧ roundQuot ⟨.sr, 0x40000000⟩ 1 4 = (0, true) := by decide +kernel

/-- 10, crossed cables: module 0x123 finds chip 0x124, quill 2, on quill 9 whose plan names quill 1: SWAPPED. -/
theorem test_swapped : ((State.setObj {} 0x2A00 0 0x123).setObj 0x6050 9 (2 ^ 63 + 0x124 * 2 ^ 49 + 2 ^ 45)).checkIdent 9
    (0x124 * 2 ^ 498 + 2 * 2 ^ 494) = 3 := by decide +kernel

/-- 16, the input example: an event under the abort is ignored and counted, one that is not armed is coalesced. -/
theorem test_blot_pin : (match exec .blotInN { onJob with recovery := { abort := some ⟨200, 8, 0, 1⟩ }, binding := { fn := { code := .closing } } } with
    | .next t => t.obj 0x80A6 0 = 1 && !(t.pin 0).armed
    | _ => false) = true ∧
  (match exec .blotInN { onJob with pins := { inputs := [(0, { armed := false })] } } with
    | .next t => t.obj 0x80A6 0 = 0 && t.recovery.abort.isNone && t.binding.fn.code = .on
    | _ => false) = true := by decide +kernel

end Sys2Proof.Tests
end

section
/-! Proofs of the statements on nop, fence and ct (04 R139, R142). -/

namespace Sys2Proof.Machine

/-! ### nop and fence -/

/-- What holds a fence is the negation of what its bits wait for: OPS for empty slots, RES for idle reservoir queues (R142). -/
theorem fence_held_iff (x : Nib) (w : Nat) :
    ((bit w 53 && !x.slots.isEmpty) || (bit w 52 && !x.resIdle)) = true ↔
      ¬((bit w 53 = true → x.slots = []) ∧ (bit w 52 = true → x.resIdle = true)) := by
  simp only [Classical.not_and_iff_not_or_not, Classical.not_imp, Bool.or_eq_true, Bool.and_eq_true, Bool.not_eq_true',
    List.isEmpty_eq_false_iff, ne_eq, Bool.not_eq_true]

/-- A ready nop issues, with no effect of its own. -/
theorem exec_nop_ready {n : NibId} {w : BitVec 64} {s : State} (h : s.ready n 0x00 w) (hr : field w.toNat 53 0 = 0) :
    exec (.nop n w) s = .next (s.issued n) := by
  rw [exec_nop, execNop, State.issue_ready h (decide_eq_true hr), Issued.outcome]

/-- A ready fence issues where neither bit holds it, and otherwise leaves issue waiting. -/
theorem exec_fence_ready {n : NibId} {w : BitVec 64} {s : State} (h : s.ready n 0x01 w) (hr : field w.toNat 51 0 = 0) :
    exec (.fence n w) s =
      if (bit w.toNat 53 && !(s.nib n).slots.isEmpty) || (bit w.toNat 52 && !(s.nib n).resIdle) then
        .next (s.updNib n fun x => { x with issue := { x.issue with hold := .fence } })
      else .next (s.issued n) := by
  rw [exec_fence, execFence, State.issue_ready h (decide_eq_true hr)]
  dsimp only
  rw [apply_ite (Issued.outcome s n)]
  rfl

/-- Settles O5: the effect of each instruction is read off `State.issue_ready`, and `fence_held_iff` says which of its two
outcomes a fence has. -/
theorem nopAndFence : Obligations.NopAndFence := by
  intro n w s
  refine ⟨exec_nop_ready, fun h hr => ⟨fun hopen => ?_, fun hheld => ?_⟩⟩
  · rw [exec_fence_ready h hr, if_neg fun hb => (fence_held_iff _ _).1 hb hopen]
  · rw [exec_fence_ready h hr, if_pos ((fence_held_iff _ _).2 hheld)]

/-! ### ct -/

section CtValue

variable (x : Nib) {w : Nat}

theorem ctValue_set (h : field w 50 48 = 0) : ctValue x w = field w 42 11 := by
  simp only [ctValue, h]

theorem ctValue_addImm (h : field w 50 48 = 1) : ctValue x w = x.ct (field w 53 51) + field w 42 11 := by
  simp only [ctValue, h]

theorem ctValue_add (h : field w 50 48 = 2) : ctValue x w = x.ct (field w 53 51) + x.ct (field w 47 45) := by
  simp only [ctValue, h]

theorem ctValue_sub (h : field w 50 48 = 3) : ctValue x w = x.ct (field w 53 51) + 2 ^ 32 - x.ct (field w 47 45) := by
  simp only [ctValue, h]

theorem ctValue_copy (h : field w 50 48 = 4) : ctValue x w = x.ct (field w 47 45) := by
  simp only [ctValue, h]

theorem ctValue_loopIndex (h : field w 50 48 = 5) :
    ctValue x w = (x.issue.loops[field w 44 43]?.map LoopLevel.index).getD 0 := by
  simp only [ctValue, h, Nib.loopIndex]

end CtValue

/-- A ready ct whose FN is not reserved writes the value of its FN, taken from the nib as it issues, to counter CD. -/
theorem exec_ct_ready {n : NibId} {w : BitVec 64} {s : State} (h : s.ready n 0x09 w) (hr : field w.toNat 10 0 = 0)
    (hfn : field w.toNat 50 48 ≤ 5) {v : Nat} (hv : ctValue (s.nib n) w.toNat = v) :
    exec (.ct n w) s = .next ((s.updNib n fun x => x.setCt (field w.toNat 53 51) v).issued n) := by
  subst hv
  have hresv : (field w.toNat 10 0 = 0 && field w.toNat 50 48 ≤ 5 : Bool) = true := by
    rw [decide_eq_true hr, decide_eq_true hfn, Bool.and_self]
  rw [exec_ct, execCt, State.issue_ready h hresv]
  rfl

/-- A ct of a reserved FN raises the encoding fault. -/
theorem exec_ct_reserved {n : NibId} {w : BitVec 64} {s : State} (h : s.ready n 0x09 w) (hfn : 6 ≤ field w.toNat 50 48) :
    exec (.ct n w) s = .next (s.issueFault n 0x01 none 0) := by
  obtain ⟨hissues, hop, -, -⟩ := h
  have hresv : (field w.toNat 10 0 = 0 && field w.toNat 50 48 ≤ 5 : Bool) = false := by
    rw [decide_eq_false (Nat.not_le.2 hfn), Bool.and_false]
  rw [exec_ct, execCt]
  exact s.issue_encoding n _ _ _ _ hissues (fun hne => hne.1 hop) (.inr (.inr hresv))

/-- Settles O10: the six functions are the cases of `ctValue`; codes 6 and 7 fail the check of the word. -/
theorem ctFunctions : Obligations.CtFunctions := by
  rintro n w s h hr v rfl b rfl
  exact ⟨fun fn => exec_ct_ready h hr (by omega) (ctValue_set _ fn),
    fun fn => exec_ct_ready h hr (by omega) (ctValue_addImm _ fn),
    fun fn => exec_ct_ready h hr (by omega) (ctValue_add _ fn),
    fun fn => exec_ct_ready h hr (by omega) (ctValue_sub _ fn),
    fun fn => exec_ct_ready h hr (by omega) (ctValue_copy _ fn),
    fun fn => exec_ct_ready h hr (by omega) (ctValue_loopIndex _ fn),
    exec_ct_reserved h⟩

end Sys2Proof.Machine
end

section
/-! Proof of the statement on kerase (05 R161, R162). -/

namespace Sys2Proof.Machine

/-- A ready kerase of a bound context waits while a kappend or kmask of that context is in flight, and otherwise issues with the
context's drafts dropped and counted (R161, R162). -/
theorem exec_kerase_ready {n : NibId} {w : BitVec 64} {s : State} (h : s.ready n 0x32 w) (hr : field w.toNat 47 0 = 0)
    {c : Context} (hc : (s.nib n).ctx (field w.toNat 53 48) = c) (hb : c.bound = true) :
    exec (.kerase n w) s =
      if (s.nib n).kvBusy (field w.toNat 53 48) then
        .next (s.updNib n fun x => { x with issue := { x.issue with hold := .context } })
      else .next (((s.setNib n ((s.nib n).setCtx (field w.toNat 53 48)
        { c with drafts := 0, parents := [], rest := [] })).bumpHome c 0x8021 c.drafts).issued n) := by
  subst hc
  have hbound : ¬(!((s.nib n).ctx (field w.toNat 53 48)).bound) = true := by rw [hb]; decide
  rw [exec_kerase, execKerase, State.issue_ready h (decide_eq_true hr)]
  dsimp only
  rw [if_neg hbound, apply_ite (Issued.outcome s n)]
  rfl

/-- Settles O24: an idle context takes the issuing branch of `exec_kerase_ready`, a busy one the waiting branch. -/
theorem keraseDropsDrafts : Obligations.KeraseDropsDrafts := by
  rintro n w s h hr c hc hbound
  refine ⟨fun hidle => ?_, fun hbusy => ?_⟩
  · rw [exec_kerase_ready h hr hc.symm hbound, if_neg (Bool.eq_false_iff.1 hidle)]
  · rw [exec_kerase_ready h hr hc.symm hbound, if_pos hbusy]

end Sys2Proof.Machine
end

section
/-! Proof of the statement on the hold limit (06 R198). -/

namespace Sys2Proof.Machine

/-- No object is written at reset, so each reads as its default. -/
@[simp] theorem State.reset_obj (index sub : Nat) : State.reset.obj index sub = objDefault index sub := rfl

/-- The hold limit's default, in microseconds: 10 ms. -/
theorem objDefault_holdLimit : objDefault 0x4621 0 = 10000 := by decide +kernel

/-- The row HOLD_LIMIT_EXPIRY on a HELD entry: aborted, as by a written ABORT (action 2), once it has been HELD for the limit. -/
theorem exec_holdLimitExpiry_held {s : State} {entry : BitVec 6} {x : FaultEntry}
    (hx : SMap.get none s.desk.entries entry.toNat = some x) (hheld : x.st = 1) :
    exec (.holdLimitExpiry entry) s =
      .next (if x.time + s.obj 0x4621 0 * 1000 ≤ s.now then s.resolve entry.toNat 2 else s) := by
  simp only [exec_holdLimitExpiry, execHoldLimitExpiry, State.holdExpiry, hx, hheld, decide_true, Bool.true_and, decide_eq_true_eq]

/-- Settles O29: the default is that of the object's row, and the two outcomes are the branches of `exec_holdLimitExpiry_held`. -/
theorem holdLimitAborts : Obligations.HoldLimitAborts := by
  refine ⟨(State.reset_obj _ _).trans objDefault_holdLimit, fun s entry x hx hheld => ⟨fun hdue => ?_, fun hyoung => ?_⟩⟩
  · rw [exec_holdLimitExpiry_held hx hheld, if_pos hdue]
  · rw [exec_holdLimitExpiry_held hx hheld, if_neg (Nat.not_le.2 hyoung)]

end Sys2Proof.Machine
end

section
/-! Proof of the statement on the fuses (15 R438, 00 R3): each operation of the model leaves them as they are, in the order of the
model's text, and so does each row but the end of a firmware command. -/

namespace Sys2Proof.Machine

/-- The state that executing a request leaves. -/
def Executed.left : Executed → State
  | .waits s => s
  | .done s _ _ => s

@[simp] theorem Executed.left_waits (s : State) : (Executed.waits s).left = s := rfl
@[simp] theorem Executed.left_done (s : State) (c : Nat) (bs : List Byte) : (Executed.done s c bs).left = s := rfl

namespace State

@[simp] theorem fuses_ite (c : Prop) [Decidable c] (a b : State) : (if c then a else b).fuses = if c then a.fuses else b.fuses :=
  apply_ite ..

@[simp] theorem fst_ite {α : Type} (c : Prop) [Decidable c] (a b : State × α) : (if c then a else b).1 = if c then a.1 else b.1 :=
  apply_ite ..

/-- A fold of changes of a state, and of something beside it, that leave the fuses leaves the fuses. -/
theorem foldl_fst_fuses {α β : Type} (f : State × β → α → State × β) (hf : ∀ x a, (f x a).1.fuses = x.1.fuses) (l : List α)
    (x : State × β) : (l.foldl f x).1.fuses = x.1.fuses := by
  induction l generalizing x with
  | nil => rfl
  | cons a l ih => rw [List.foldl_cons, ih, hf]

theorem withLines_fuses (s : State) (v : Lines) : ({ s with lines := v } : State).fuses = s.fuses := rfl

@[simp] theorem heldCycles_fuses (s : State) (ks : List Nat) : (s.heldCycles ks).fuses = s.fuses :=
  foldl_fuses _ (fun _ _ => by simp) _ _
@[simp] theorem flitMoved_fuses (s : State) (k : Nat) : (s.flitMoved k).fuses = s.fuses := rfl
@[simp] theorem meshMoved_fuses (s : State) (hs : List Hop) : (s.meshMoved hs).fuses = s.fuses :=
  foldl_fuses _ (fun _ _ => by simp) _ _
@[simp] theorem inject_fuses (s : State) (n : Nat) (ps : List Packet) : (s.inject n ps).fuses = s.fuses := rfl
@[simp] theorem relayPenlift_fuses (s : State) (a : Announced) (skip : Option Nat) : (s.relayPenlift a skip).fuses = s.fuses :=
  foldl_fuses _ (fun _ _ => by simp) _ _
@[simp] theorem requestPenlift_fuses (s : State) (cause : Nat) : (s.requestPenlift cause).fuses = s.fuses := by
  simp [requestPenlift]
@[simp] theorem noteOccupancy_fuses (s : State) (q : Nat) : (s.noteOccupancy q).fuses = s.fuses := by simp [noteOccupancy]
@[simp] theorem updRuled_fuses (s : State) (q : Nat) (f : RuledPort → RuledPort) : (s.updRuled q f).fuses = s.fuses := rfl
@[simp] theorem drainEdge_fuses (k q : Nat) (s : State) : (drainEdge k q s).fuses = s.fuses := by
  induction k generalizing s with
  | zero => rfl
  | succ k ih => simp only [drainEdge]; (repeat' split) <;> simp [ih]
@[simp] theorem offerEdge_fuses (s : State) (q : Nat) : (s.offerEdge q).fuses = s.fuses := by simp [offerEdge]
@[simp] theorem takeLanded_fuses (s : State) (q : Nat) (lo : Nat) (len : Nat) : (s.takeLanded q lo len).1.fuses = s.fuses := rfl
@[simp] theorem resync_fuses (s : State) : (s.resync).fuses = s.fuses := foldl_fuses _ (fun _ _ => by simp) _ _
@[simp] theorem makeStale_fuses (s : State) (n : Nat) (ctx : Nat) : (s.makeStale n ctx).fuses = s.fuses := by simp [makeStale]
@[simp] theorem noteCommit_fuses (s : State) (n : Nat) (ctx : Nat) (first : Nat) (count : Nat) :
    (s.noteCommit n ctx first count).fuses = s.fuses := by
  simp [noteCommit]
@[simp] theorem countUe_fuses (s : State) (n : Nat) (w : Nat) : (s.countUe n w).fuses = s.fuses := rfl
@[simp] theorem partWritten_fuses (s : State) (n : Nat) (a : Memory) (b : Memory) (dest : List (Nat × Nat))
    (whole : List (Nat × Nat)) :
    (s.partWritten n a b dest whole).fuses = s.fuses :=
  rfl
@[simp] theorem viewed_fuses (s : State) (n : Nat) (rs : List (Nat × Nat)) : (s.viewed n rs).1.fuses = s.fuses := by simp [viewed]
@[simp] theorem unchecked_fuses (s : State) (n : Nat) (unit : Nat) : (s.unchecked n unit).fuses = s.fuses := rfl
@[simp] theorem freeSlot_fuses (s : State) (n : Nat) (o : InFlight) : (s.freeSlot n o).fuses = s.fuses := by simp [freeSlot]
@[simp] theorem emitDone_fuses (s : State) (n : Nat) (o : InFlight) : (s.emitDone n o).fuses = s.fuses := by simp [emitDone]
@[simp] theorem retryDone_fuses (s : State) (n : Nat) : (s.retryDone n).fuses = s.fuses :=
  foldl_fuses _ (fun _ _ => by split <;> simp) _ _
@[simp] theorem finishOp_fuses (s : State) (n : Nat) (o : InFlight) : (s.finishOp n o).fuses = s.fuses := by simp [finishOp]
@[simp] theorem opFault_fuses (s : State) (n : Nat) (o : InFlight) (ue : Nat) (a : Memory) (b : Memory) (dest : List
    (Nat × Nat)) (whole : List (Nat × Nat)) :
    (s.opFault n o ue a b dest whole).fuses = s.fuses := by
  simp [opFault]
@[simp] theorem completeOp_fuses (s : State) (n : Nat) (o : InFlight) (k : Work) : (s.completeOp n o k).fuses = s.fuses := by
  simp only [completeOp]; (repeat' split) <;> simp
/-- A recv that takes a packet leaves the fuses. -/
theorem recvPacket_fuses {s t : State} {n q base total off : Nat} {p : Packet} {bs : List Byte} {last : Bool}
    (h : s.recvPacket n p q base total off bs last = .taken t) : t.fuses = s.fuses := by
  unfold recvPacket at h
  extract_lets x at h
  split at h
  · cases h
  split at h
  · cases h
  extract_lets opens segs r mem parts o o' u u' at h
  have hr : r.1.fuses = s.fuses := mergeStores_fuses ..
  have hu : u'.fuses = s.fuses := (progress_fuses' ..).trans ((updNib_fuses ..).trans hr)
  split at h
  · cases h
  split at h
  · cases h; exact nibFault_fuses ..
  split at h
  · cases h
  split at h
  · cases h; rw [opFault_fuses, hr]
  · cases h; split
    · rw [updNib_fuses, hu]
    · exact hu
/-- A packet taken at the local output leaves the fuses. -/
theorem localOutput_fuses {s t : State} {n : Nat} {p : Packet} (h : s.localOutput n p = .taken t) : t.fuses = s.fuses := by
  unfold localOutput at h
  extract_lets x q at h
  split at h
  · cases h; exact bump_fuses ..
  split at h
  · cases h; rfl
  split at h
  · cases h; exact bump_fuses ..
  split at h
  · split at h
    · cases h; rfl
    · cases h
  · exact recvPacket_fuses h
  · cases h; rfl
@[simp] theorem offer_fuses (s : State) (n : Nat) (blocked : List Nat) (ws kept : List Waiting) :
    (s.offer n blocked ws kept).fuses = s.fuses := by
  induction ws generalizing s blocked kept with
  | nil => rfl
  | cons w ws ih =>
    simp only [offer]
    split
    · exact ih ..
    split
    · exact ih ..
    next h => split <;> simp [ih, localOutput_fuses h]
@[simp] theorem drainInbox_fuses (s : State) (n : Nat) : (s.drainInbox n).fuses = s.fuses := by simp [drainInbox]
@[simp] theorem releaseInbox_fuses (s : State) (n : Nat) : (s.releaseInbox n).fuses = s.fuses := by simp [releaseInbox]
@[simp] theorem ringBells_fuses (k : Nat) (s : State) : (ringBells k s).fuses = s.fuses := by
  induction k generalizing s with
  | zero => rfl
  | succ k ih => simp only [ringBells]; (repeat' split) <;> simp [ih]
@[simp] theorem tellMargin_fuses (s : State) (es kept : List MarginEvent) : (s.tellMargin es kept).fuses = s.fuses := by
  induction es generalizing s kept with
  | nil => rfl
  | cons e es ih => simp only [tellMargin]; (repeat' split) <;> simp [ih]
@[simp] theorem settle_fuses (s : State) (n : Nat) : (s.settle n).fuses = s.fuses := by simp [settle]
@[simp] theorem noteHalt_fuses (s : State) (n : Nat) : (s.noteHalt n).fuses = s.fuses := by simp [noteHalt]
@[simp] theorem nibHalted_fuses (s : State) (n : Nat) : (s.nibHalted n).fuses = s.fuses := by simp [nibHalted]
@[simp] theorem nibRests_fuses (s : State) (n : Nat) : (s.nibRests n).fuses = s.fuses := by simp [nibRests]
@[simp] theorem scrubWords_fuses (s : State) (n : Nat) (ws : List (Nat × Nat)) : (s.scrubWords n ws).fuses = s.fuses :=
  foldl_fuses _ (fun _ _ => by simp) _ _
@[simp] theorem scrub_fuses (s : State) (n : Nat) (us : List Upset) : (s.scrub n us).fuses = s.fuses := by simp [scrub]
@[simp] theorem kappendDone_fuses (s : State) (n : Nat) : (s.kappendDone n).fuses = s.fuses := by
  simp only [kappendDone]; (repeat' split) <;> simp
@[simp] theorem kmaskDone_fuses (s : State) (n : Nat) : (s.kmaskDone n).fuses = s.fuses := by
  simp only [kmaskDone]; (repeat' split) <;> simp
@[simp] theorem moveEntry_fuses (s : State) (n : Nat) (src : Nat × Nat) (dst : Nat × Nat) :
    (s.moveEntry n src dst).1.fuses = s.fuses := by
  simp only [moveEntry]; (repeat' split) <;> simp
@[simp] theorem moveEntries_fuses (s : State) (n : Nat) (c : Context) (i : Nat) (ps : List Nat) :
    (s.moveEntries n c i ps).1.fuses = s.fuses := by
  induction ps generalizing s i with
  | nil => rfl
  | cons p ps ih => simp only [moveEntries]; (repeat' split) <;> simp [ih]
@[simp] theorem bumpHome_fuses (s : State) (c : Context) (sub : Nat) (k : Nat) : (s.bumpHome c sub k).fuses = s.fuses := by
  simp [bumpHome]
@[simp] theorem deskError_fuses (s : State) (x : DeskError) : (s.deskError x).fuses = s.fuses := by
  unfold deskError; split <;> simp
@[simp] theorem expectLinks_fuses (s : State) (a : Nat) (es : List LinkEcc) : (s.expectLinks a es).fuses = s.fuses :=
  foldl_fuses _ (fun _ _ => by simp) _ _
@[simp] theorem translate_fuses (s : State) (va : Nat) (store : Bool) : (s.translate va store).1.fuses = s.fuses := by
  simp [translate]
@[simp] theorem flushTlb_fuses (s : State) : (s.flushTlb).fuses = s.fuses := rfl
@[simp] theorem setEntry_fuses (s : State) (i : Nat) (e : FaultEntry) : (s.setEntry i e).fuses = s.fuses := rfl
@[simp] theorem txlSend_fuses (s : State) : (s.txlSend).fuses = s.fuses := by simp [txlSend]
@[simp] theorem txlSay_fuses (s : State) (m : TxlMsg) : (s.txlSay m).fuses = s.fuses := by simp [txlSay]
@[simp] theorem txlSayFirst_fuses (s : State) (m : TxlMsg) : (s.txlSayFirst m).fuses = s.fuses := by simp [txlSayFirst]
@[simp] theorem txlReturn_fuses (s : State) : (s.txlReturn).fuses = s.fuses := by simp [txlReturn]
@[simp] theorem dirDrop_fuses (s : State) (line : Nat) : (s.dirDrop line).fuses = s.fuses := rfl
@[simp] theorem sendBinv_fuses (s : State) (d : DirEntry) (evictFor : Option Nat) : (s.sendBinv d evictFor).fuses = s.fuses := by
  simp [sendBinv]
@[simp] theorem claimLines_fuses (s : State) (pa : Nat) (len : Nat) (store : Bool) :
    (s.claimLines pa len store).fuses = s.fuses :=
  foldl_fuses _ (fun _ _ => by simp) _ _
@[simp] theorem updPort_fuses (s : State) (q : Nat) (f : LinkPort → LinkPort) : (s.updPort q f).fuses = s.fuses := rfl
@[simp] theorem queuePacket_fuses (s : State) (q : Nat) (vc : Nat) (p : List Byte) : (s.queuePacket q vc p).fuses = s.fuses := rfl
@[simp] theorem sendPacket_fuses (s : State) (p : List Byte) : (s.sendPacket p).1.fuses = s.fuses := by
  simp only [sendPacket]; (repeat' split) <;> simp
@[simp] theorem takeTxid_fuses (s : State) : (s.takeTxid).1.fuses = s.fuses := rfl
@[simp] theorem setRequest_fuses (s : State) (i : Nat) (r : Option Request) : (s.setRequest i r).fuses = s.fuses := rfl
@[simp] theorem mirrorDone_fuses (s : State) (r : Request) (status : Nat) : (s.mirrorDone r status).fuses = s.fuses := by
  simp only [mirrorDone]; (repeat' split) <;> simp
@[simp] theorem completeRequest_fuses (s : State) (i : Nat) (status : Nat) : (s.completeRequest i status).fuses = s.fuses := by
  simp only [completeRequest]; (repeat' split) <;> simp
@[simp] theorem orphan_fuses (s : State) (i : Nat) : (s.orphan i).fuses = s.fuses := by unfold orphan; split <;> simp
@[simp] theorem launchRequest_fuses (s : State) (i : Nat) : (s.launchRequest i).fuses = s.fuses := by
  unfold launchRequest; split <;> simp
@[simp] theorem enterRequest_fuses (s : State) (i : Nat) (r : Request) : (s.enterRequest i r).fuses = s.fuses := rfl
@[simp] theorem issueRequest_fuses (s : State) (n : Nat) (bytes : List Byte) : (s.issueRequest n bytes).fuses = s.fuses := by
  simp [issueRequest]
@[simp] theorem wantReset_fuses (s : State) (step : Nat) (nib : Nat) (unit : Nat) (cause : Nat) :
    (s.wantReset step nib unit cause).fuses = s.fuses :=
  rfl
@[simp] theorem mapQuires_fuses (s : State) (f : Quire → Quire) : (s.mapQuires f).fuses = s.fuses := rfl
@[simp] theorem loseRef_fuses (s : State) (c : RefCause) : (s.loseRef c).fuses = s.fuses := by
  simp only [loseRef]
  split
  · rfl
  · rw [blot_fuses, mapNibs_fuses, foldl_fuses _ fun _ _ => updQuill_fuses ..]
@[simp] theorem regainRef_fuses (s : State) : (s.regainRef).fuses = s.fuses := by simp [regainRef]
@[simp] theorem updQuire_fuses (s : State) (k : Nat) (f : Quire → Quire) : (s.updQuire k f).fuses = s.fuses := rfl
@[simp] theorem sample_fuses (s : State) (k : Nat) (x : Slacks) : (s.sample k x).fuses = s.fuses := rfl
@[simp] theorem startStretch_fuses (s : State) (k : Nat) (x : Slacks) : (s.startStretch k x).fuses = s.fuses := by
  simp [startStretch]
@[simp] theorem keepCount_fuses (s : State) (k : Nat) : (s.keepCount k).fuses = s.fuses := by simp [keepCount]
@[simp] theorem addStretch_fuses (s : State) (k : Nat) (c : Nat) : (s.addStretch k c).fuses = s.fuses := by simp [addStretch]
@[simp] theorem noteOverrun_fuses (s : State) (k : Nat) : (s.noteOverrun k).fuses = s.fuses := by simp [noteOverrun]
@[simp] theorem countCycles_fuses (s : State) (cycles : List (QuireId × Nat)) : (s.countCycles cycles).fuses = s.fuses :=
  foldl_fuses _ (fun _ _ => by simp) _ _
@[simp] theorem endStretch_fuses (s : State) (k c : Nat) (xs : List Slacks) : (s.endStretch k c xs).fuses = s.fuses := by
  have h : (xs.foldl (fun s x => s.sample k x) ((s.addStretch k c).noteOverrun k)).fuses = s.fuses := by
    rw [foldl_fuses _ fun _ _ => sample_fuses .., noteOverrun_fuses, addStretch_fuses]
  simp only [endStretch]
  split
  · split
    · exact h
    · exact h
  · rfl
@[simp] theorem endCount_fuses (s : State) (k : Nat) : (s.endCount k).fuses = s.fuses := by simp [endCount]
@[simp] theorem endCounts_fuses (s : State) : (s.endCounts).fuses = s.fuses := foldl_fuses _ (fun _ _ => by simp) _ _
@[simp] theorem failSample_fuses (s : State) (k : Nat) (cause : ClockFail) : (s.failSample k cause).fuses = s.fuses := by
  unfold failSample; split <;> simp
@[simp] theorem failClock_fuses (s : State) (k : Nat) (cause : ClockFail) : (s.failClock k cause).fuses = s.fuses := by
  simp [failClock]
@[simp] theorem recordMargin_fuses (s : State) (k : Nat) (m : Int) : (s.recordMargin k m).fuses = s.fuses := by
  simp [recordMargin]
@[simp] theorem endMicrosecond_fuses (s : State) (k : Nat) (xs : List Slacks) : (s.endMicrosecond k xs).fuses = s.fuses := by
  have h : (xs.foldl (fun s x => s.sample k x) s).fuses = s.fuses := foldl_fuses _ (fun _ _ => sample_fuses ..) _ _
  simp only [endMicrosecond]; split <;> simp [h]
@[simp] theorem tick_fuses (s : State) : (s.tick).fuses = s.fuses := by simp [tick]
@[simp] theorem stepTime_fuses (s : State) (off : Frac) : (s.stepTime off).fuses = s.fuses := by simp [stepTime]
@[simp] theorem tryStep_fuses (s : State) : (s.tryStep).fuses = s.fuses := by unfold tryStep; split <;> simp
@[simp] theorem requestStep_fuses (s : State) : (s.requestStep).1.fuses = s.fuses := by simp [requestStep]
@[simp] theorem takeTimeBlock_fuses (s : State) (q : Nat) (b : Nat) (arrival : Nat) (crcOk : Bool) :
    (s.takeTimeBlock q b arrival crcOk).fuses = s.fuses := by
  simp [takeTimeBlock]
@[simp] theorem holdTime_fuses (s : State) : (s.holdTime).fuses = s.fuses := by simp [holdTime]
@[simp] theorem takeParent_fuses (s : State) (b : Nat) : (s.takeParent b).fuses = s.fuses := by simp [takeParent]
@[simp] theorem chooseParent_fuses (s : State) : (s.chooseParent).fuses = s.fuses := by
  simp only [chooseParent]; (repeat' split) <;> simp
@[simp] theorem enterHoldover_fuses (s : State) : (s.enterHoldover).fuses = s.fuses := by simp [enterHoldover]
@[simp] theorem dropParent_fuses (s : State) (q : Nat) : (s.dropParent q).fuses = s.fuses := by simp [dropParent]
@[simp] theorem blotTime_fuses (s : State) : (s.blotTime).fuses = s.fuses := by simp [blotTime]
@[simp] theorem closeExchanges_fuses (s : State) : (s.closeExchanges).fuses = s.fuses := foldl_fuses _ (fun _ _ => by simp) _ _
@[simp] theorem reportAnchor_fuses (s : State) : (s.reportAnchor).fuses = s.fuses := by simp [reportAnchor]
@[simp] theorem rootLine_fuses (s : State) : (s.rootLine).fuses = s.fuses := by simp only [rootLine]; (repeat' split) <;> simp
@[simp] theorem steerBy_fuses (s : State) (th : Frac) : (s.steerBy th).fuses = s.fuses := by simp [steerBy]
@[simp] theorem childLine_fuses (s : State) : (s.childLine).fuses = s.fuses := by simp only [childLine]; split <;> simp
@[simp] theorem servoLine_fuses (s : State) : (s.servoLine).fuses = s.fuses := by simp [servoLine]
@[simp] theorem mgmtSend_fuses (s : State) (f : MgmtFrame) : (s.mgmtSend f).fuses = s.fuses := rfl
@[simp] theorem takePtp_fuses (s : State) (f : PtpFrame) : (s.takePtp f).fuses = s.fuses := by simp [takePtp]
@[simp] theorem anchorHold_fuses (s : State) : (s.anchorHold).fuses = s.fuses := rfl
@[simp] theorem setTags_fuses (s : State) (n : Nat) (t : Tags) : (s.setTags n t).fuses = s.fuses := by simp [setTags]
@[simp] theorem setEpoch_fuses (s : State) (v : Nat) : (s.setEpoch v).fuses = s.fuses :=
  foldl_fuses _ (fun _ _ => by simp) _ _
@[simp] theorem senderMoved_fuses (s : State) (p : Packet) : (s.senderMoved p).fuses = s.fuses := by
  unfold senderMoved; split <;> simp
@[simp] theorem arrive_fuses (s : State) (n : Nat) (src : Nat) (want : PacketBody → Bool) :
    (s.arrive n src want).fuses = s.fuses := by
  unfold arrive; split <;> simp
@[simp] theorem voidForeign_fuses (s : State) (line : Nat) (cu : Bool) (why : Nat) :
    (s.voidForeign line cu why).1.fuses = s.fuses :=
  rfl
@[simp] theorem emit_fuses (s : State) (t : Turn) (f : Frame) : (s.emit t f).fuses = s.fuses := by simp [emit]
@[simp] theorem noteTurn_fuses (s : State) (t : Turn) (f : RuledPort → RuledPort) : (s.noteTurn t f).fuses = s.fuses := by
  simp [noteTurn]
@[simp] theorem emitVoid_fuses (s : State) (t : Turn) (why : Nat) : (s.emitVoid t why).fuses = s.fuses := by simp [emitVoid]
@[simp] theorem emitLate_fuses (s : State) (t : Turn) : (s.emitLate t).fuses = s.fuses := by simp [emitLate]
@[simp] theorem emitData_fuses (s : State) (t : Turn) (payload : List Byte) : (s.emitData t payload).fuses = s.fuses := by
  simp [emitData]
@[simp] theorem originate_fuses (s : State) (t : Turn) : (s.originate t).fuses = s.fuses := by simp [originate]
@[simp] theorem input_fuses (s : State) (t : Turn) : (s.input t).1.fuses = s.fuses := by
  simp only [input]; (repeat' split) <;> simp
@[simp] theorem forward_fuses (s : State) (t : Turn) : (s.forward t).fuses = s.fuses := by simp only [forward]; split <;> simp
@[simp] theorem holdInput_fuses (s : State) (t : Turn) (f : Frame) : (s.holdInput t f).fuses = s.fuses := rfl
@[simp] theorem emitHeld_fuses (s : State) (t : Turn) : (s.emitHeld t).fuses = s.fuses := by simp [emitHeld]
@[simp] theorem blotTurn_fuses (s : State) (t : Turn) (reason : Nat) : (s.blotTurn t reason).fuses = s.fuses := by simp [blotTurn]
@[simp] theorem overrunTurn_fuses (s : State) (t : Turn) : (s.overrunTurn t).fuses = s.fuses := by simp [overrunTurn]
@[simp] theorem combineInput_fuses (s : State) (t : Turn) : (s.combineInput t).1.fuses = s.fuses := by
  simp only [combineInput]; split <;> simp
@[simp] theorem combinePrimary_fuses (s : State) (t : Turn) (inp : Option Frame) (why : Nat) :
    (s.combinePrimary t inp why).fuses = s.fuses := by
  simp only [combinePrimary]; (repeat' split) <;> simp
@[simp] theorem combineCatchUp_fuses (s : State) (t : Turn) (inp : Option Frame) (why : Nat) :
    (s.combineCatchUp t inp why).fuses = s.fuses := by
  simp only [combineCatchUp]; (repeat' split) <;> simp
@[simp] theorem combine_fuses (s : State) (t : Turn) : (s.combine t).fuses = s.fuses := by simp [combine]
@[simp] theorem actTurn_fuses (s : State) (t : Turn) : (s.actTurn t).fuses = s.fuses := by unfold actTurn; split <;> simp
@[simp] theorem emitPause_fuses (s : State) (t : Turn) : (s.emitPause t).fuses = s.fuses := by simp [emitPause]
/-- What a frame's bits say is never evaluated: `emit` is a name for itself here. -/
@[simp] theorem decideStroke_fuses (s : State) (q : Nat) : (s.decideStroke q).fuses = s.fuses := by
  obtain ⟨emit, hemit⟩ : ∃ f, f = State.emit := ⟨_, rfl⟩
  have hfuses : ∀ s t f, (emit s t f).fuses = s.fuses := hemit ▸ emit_fuses
  unfold decideStroke
  rw [← hemit]
  extract_lets d line st plan e t u v
  have hu : u.fuses = s.fuses := updRuled_fuses ..
  have hv : v.fuses = s.fuses := by
    unfold v
    split
    · exact (hfuses ..).trans hu
    · exact (actTurn_fuses ..).trans hu
  split
  · rfl
  split
  · rw [emitPause_fuses, hu]
  split
  · rw [updRuled_fuses, hv]
  · exact hv
@[simp] theorem setAwait_fuses (s : State) (q : Nat) (pk : Nat) (v : Bool) : (s.setAwait q pk v).fuses = s.fuses := rfl
@[simp] theorem landData_fuses (s : State) (q : Nat) (pk : Nat) (cu : Bool) (r : Nat) (f : Frame) :
    (s.landData q pk cu r f).fuses = s.fuses := by
  simp [landData]
@[simp] theorem landVoid_fuses (s : State) (q : Nat) (pk : Nat) (cu : Bool) (hascu : Bool) (why : Nat) :
    (s.landVoid q pk cu hascu why).fuses = s.fuses := by
  simp only [landVoid]; (repeat' split) <;> simp
@[simp] theorem landNow_fuses (s : State) (q : Nat) (st : Nat) (e : Nat) (r : Nat) (f : Option Frame) :
    (s.landNow q st e r f).fuses = s.fuses := by
  unfold landNow; split <;> simp
@[simp] theorem land_fuses (s : State) (q : Nat) (st : Nat) (e : Nat) (r : Nat) (line : Nat) (f : Option Frame) :
    (s.land q st e r line f).fuses = s.fuses := by
  simp [land]
@[simp] theorem hold_fuses (s : State) (q : Nat) (st : Nat) (e : Nat) (line : Nat) (f : Option Frame) (arrival : Int) :
    (s.hold q st e line f arrival).fuses = s.fuses := by
  simp only [hold]; (repeat' split) <;> simp
@[simp] theorem screen_fuses (s : State) (q : Nat) (line : Nat) (f : Option Frame) : (s.screen q line f).1.fuses = s.fuses := by
  unfold screen; split <;> simp
@[simp] theorem report_fuses (s : State) (q : Nat) (lost : Bool) : (s.report q lost).fuses = s.fuses := rfl
@[simp] theorem receiveStroke_fuses (s : State) (q : Nat) (a : Nat) (f : Option Frame) (arrival : Int) :
    (s.receiveStroke q a f arrival).fuses = s.fuses := by
  simp only [receiveStroke]; (repeat' split) <;> simp
@[simp] theorem loseStroke_fuses (s : State) (q : Nat) (a : Nat) : (s.loseStroke q a).fuses = s.fuses := by simp [loseStroke]
@[simp] theorem loseUpTo_fuses (s : State) (q : Nat) (a : Nat) : (s.loseUpTo q a).fuses = s.fuses :=
  foldl_fuses _ (fun _ _ => by simp) _ _
@[simp] theorem noteOffset_fuses (s : State) (q : Nat) (off : Int) : (s.noteOffset q off).fuses = s.fuses := by simp [noteOffset]
@[simp] theorem countFec_fuses (s : State) (q : Nat) (stroke : Nat) (fec : FecReport) (lo : Nat) (hi : Nat) :
    (s.countFec q stroke fec lo hi).fuses = s.fuses := by
  simp [countFec]
@[simp] theorem frameArrives_fuses (s : State) (q : Nat) (arrival : Nat) (f : Frame) (fec : FecReport) :
    (s.frameArrives q arrival f fec).fuses = s.fuses := by
  simp only [frameArrives]; (repeat' split) <;> simp
@[simp] theorem missField_fuses (s : State) (q : Nat) : (s.missField q).fuses = s.fuses := rfl
@[simp] theorem closeWindow_fuses (s : State) (q : Nat) : (s.closeWindow q).fuses = s.fuses := by simp [closeWindow]
@[simp] theorem packetToQuill_fuses (s : State) (q : Nat) (src : Nat) : (s.packetToQuill q src).fuses = s.fuses := by
  unfold packetToQuill; split <;> simp
@[simp] theorem takePenlift_fuses (s : State) (q : Nat) (b : Nat) : (s.takePenlift q b).fuses = s.fuses := by simp [takePenlift]
@[simp] theorem turnMaps_fuses (s : State) (fired : Bool) : (s.turnMaps fired).fuses = s.fuses :=
  foldl_fuses _ (fun _ _ => by simp) _ _
@[simp] theorem applyLift_fuses (s : State) (line : Nat) : (s.applyLift line).fuses = s.fuses := by
  simp only [applyLift]; (repeat' split) <;> simp
@[simp] theorem countPlanLine_fuses (s : State) : (s.countPlanLine).fuses = s.fuses := by simp [countPlanLine]
@[simp] theorem fireLine_fuses (s : State) : (s.fireLine).fuses = s.fuses := by simp [fireLine]
@[simp] theorem forget_fuses (s : State) (line : Nat) : (s.forget line).fuses = s.fuses :=
  (withLines_fuses _ _).trans (foldl_fuses _ (fun _ _ => updRuled_fuses ..) _ _)
@[simp] theorem beginLine_fuses (s : State) (cycles : List (QuireId × Nat)) : (s.beginLine cycles).fuses = s.fuses := by
  simp [beginLine]
@[simp] theorem applyPlan_fuses (s : State) (copy : Nat) : (s.applyPlan copy).fuses = s.fuses := by
  unfold applyPlan
  extract_lets n s1 s2 before s3 begun src s4 s5
  have h1 : s1.fuses = s.fuses := by simp [s1]
  have h2 : s2.fuses = s.fuses := by
    refine (foldl_fuses _ (fun _ _ => ?_) _ _).trans h1
    rw [setObj_fuses, setObj_fuses, updRuled_fuses]
  have h4 : s4.fuses = s.fuses := (withLines_fuses _ _).trans ((setObj_fuses ..).trans h2)
  have h5 : s5.fuses = s.fuses := by
    simp only [s5]
    clear_value s4
    split
    · rw [countPlanLine_fuses, h4]
    · exact h4
  exact (foldl_fuses _ (fun _ _ => offerEdge_fuses ..) _ _).trans h5
@[simp] theorem setQuillFn_fuses (s : State) (q : Nat) (f : FnState) : (s.setQuillFn q f).fuses = s.fuses := by simp [setQuillFn]
@[simp] theorem setLink_fuses (s : State) (q : Nat) (l : LinkState) : (s.setLink q l).fuses = s.fuses := rfl
@[simp] theorem trainQuill_fuses (s : State) (q : Nat) (failed : Bool) : (s.trainQuill q failed).fuses = s.fuses := by
  simp [trainQuill]
@[simp] theorem closeQuill_fuses (s : State) (q : Nat) : (s.closeQuill q).fuses = s.fuses := by simp [closeQuill]
@[simp] theorem enableQuill_fuses (s : State) (q : Nat) : (s.enableQuill q).fuses = s.fuses := by
  simp only [enableQuill]; split <;> simp
@[simp] theorem disableQuill_fuses (s : State) (q : Nat) : (s.disableQuill q).fuses = s.fuses := by
  simp only [disableQuill]; split <;> simp
@[simp] theorem orphanHop_fuses (s : State) (q : Nat) : (s.orphanHop q).fuses = s.fuses :=
  foldl_fuses _ (fun _ _ => by simp) _ _
@[simp] theorem dropTraffic_fuses (s : State) (q : Nat) : (s.dropTraffic q).fuses = s.fuses := by simp [dropTraffic]
@[simp] theorem afterDown_fuses (s : State) (q : Nat) (failed : Bool) : (s.afterDown q failed).fuses = s.fuses := by
  simp [afterDown]
@[simp] theorem startLinks_fuses (s : State) : (s.startLinks).fuses = s.fuses := foldl_fuses _ (fun _ _ => by simp) _ _
@[simp] theorem takeDown_fuses (s : State) (q : Nat) (cause : DownCause) : (s.takeDown q cause).fuses = s.fuses := by
  simp [takeDown]
@[simp] theorem syncWindows_fuses (s : State) (q : Nat) : (s.syncWindows q).fuses = s.fuses := rfl
@[simp] theorem trained_fuses (s : State) (q : Nat) : (s.trained q).fuses = s.fuses := by simp [trained]
@[simp] theorem bringUp_fuses (s : State) (q : Nat) : (s.bringUp q).fuses = s.fuses := by simp [bringUp]
@[simp] theorem takeIdent_fuses (s : State) (q : Nat) (r : Nat) : (s.takeIdent q r).fuses = s.fuses := by simp [takeIdent]
@[simp] theorem identArrives_fuses (s : State) (q : Nat) (ctl : List Byte) (slot : List Byte) :
    (s.identArrives q ctl slot).fuses = s.fuses := by
  simp [identArrives]
@[simp] theorem checkExpires_fuses (s : State) (q : Nat) : (s.checkExpires q).fuses = s.fuses := by simp [checkExpires]
@[simp] theorem slotFrame_fuses (s : State) (q : Nat) (stroke : Nat) : (s.slotFrame q stroke).1.fuses = s.fuses := by
  simp only [slotFrame]; split <;> simp
@[simp] theorem takeCredits_fuses (s : State) (q : Nat) (t : Nat) : (s.takeCredits q t).1.fuses = s.fuses := rfl
@[simp] theorem timeBlock_fuses (s : State) (q : Nat) (stroke : Nat) : (s.timeBlock q stroke).1.fuses = s.fuses := rfl
@[simp] theorem takeItems_fuses (s : State) (q : Nat) (t : Nat) (n : Nat) : (s.takeItems q t n).1.fuses = s.fuses := rfl
@[simp] theorem slotOf_fuses (s : State) (q : Nat) (stroke : Nat) : (s.slotOf q stroke).1.fuses = s.fuses := by
  simp only [slotOf]; (repeat' split) <;> simp
@[simp] theorem sendControl_fuses (s : State) (q : Nat) : (s.sendControl q).fuses = s.fuses := by simp [sendControl]
@[simp] theorem takeControl_fuses (s : State) (q : Nat) (ctl : List Byte) (fec : FecReport) :
    (s.takeControl q ctl fec).fuses = s.fuses := by
  simp [takeControl]
@[simp] theorem nakFrame_fuses (s : State) (q : Nat) : (s.nakFrame q).fuses = s.fuses := by simp [nakFrame]
@[simp] theorem acceptFlits_fuses (s : State) (q : Nat) (f : LinkPort → LinkPort) : (s.acceptFlits q f).fuses = s.fuses := rfl
@[simp] theorem takeFrame_fuses (s : State) (q : Nat) (ctl : List Byte) (slot : List Byte) (fec : FecReport) :
    (s.takeFrame q ctl slot fec).fuses = s.fuses := by
  simp [takeFrame]
@[simp] theorem advanceAseq_fuses (s : State) (q : Nat) : (s.advanceAseq q).fuses = s.fuses := by simp [advanceAseq]
@[simp] theorem startReplay_fuses (s : State) (q : Nat) : (s.startReplay q).fuses = s.fuses := by simp [startReplay]
@[simp] theorem popAt_fuses (s : State) (x : MarginAt) : (s.popAt x).fuses = s.fuses := by unfold popAt; split <;> simp
@[simp] theorem popRequest_fuses (s : State) (at_ : MarginAt) : (s.popRequest at_).fuses = s.fuses := by simp [popRequest]
@[simp] theorem forwardPacket_fuses (s : State) (q : QuillId) (vc : VcId) : (s.forwardPacket q vc).fuses = s.fuses := by
  simp only [forwardPacket]; (repeat' split) <;> simp
@[simp] theorem deskPages_fuses (k : Nat) (s : State) (va len : Nat) (store : Bool) :
    (deskPages k s va len store).1.fuses = s.fuses := by
  induction k generalizing s va len with
  | zero => rfl
  | succ k ih => simp only [deskPages]; (repeat' split) <;> simp [ih]
@[simp] theorem target_fuses (s : State) (off : Nat) (len : Nat) (store : Bool) : (s.target off len store).1.fuses = s.fuses := by
  unfold target; split <;> simp
@[simp] theorem targetClaim_fuses (s : State) (t : Target) (store : Bool) : (s.targetClaim t store).fuses = s.fuses := by
  cases t <;> simp [targetClaim, foldl_fuses]
@[simp] theorem targetRead_fuses (s : State) (t : Target) (len : Nat) : (s.targetRead t len).1.fuses = s.fuses := by
  cases t <;> simp [targetRead, foldl_fst_fuses]
@[simp] theorem targetMerge_fuses (s : State) (t : Target) (len : Nat) : (s.targetMerge t len).1.fuses = s.fuses := by
  cases t <;> simp [targetMerge, foldl_fst_fuses]
@[simp] theorem putPages_fuses (s : State) (ps : List (Nat × Nat × Bool)) (bs : List Byte) : (s.putPages ps bs).fuses = s.fuses :=
  by
  induction ps generalizing s bs with
  | nil => rfl
  | cons p ps ih => simp [putPages, ih]
@[simp] theorem targetWrite_fuses (s : State) (t : Target) (bs : List Byte) : (s.targetWrite t bs).fuses = s.fuses := by
  cases t <;> simp [targetWrite]
/-- Access to a range leaves the fuses where what it goes on with does. -/
theorem withTarget_fuses (s : State) (off len : Nat) (store : Bool) (k : State → Target → Executed)
    (hk : ∀ s t, (k s t).left.fuses = s.fuses) : (s.withTarget off len store k).left.fuses = s.fuses := by
  simp only [withTarget]
  split
  · simp
  · split <;> simp [hk]
@[simp] theorem readReq_fuses (s : State) (off len : Nat) : (s.readReq off len).left.fuses = s.fuses :=
  withTarget_fuses _ _ _ _ _ fun _ _ => by simp
@[simp] theorem writeReq_fuses (s : State) (off : Nat) (bs : List Byte) : (s.writeReq off bs).left.fuses = s.fuses :=
  withTarget_fuses _ _ _ _ _ fun _ _ => by dsimp only; split <;> simp
@[simp] theorem atomicReq_fuses (s : State) (off : Nat) (f : Nat → Nat) : (s.atomicReq off f).left.fuses = s.fuses :=
  withTarget_fuses _ _ _ _ _ fun _ _ => withTarget_fuses _ _ _ _ _ fun _ _ => by dsimp only; split <;> simp
@[simp] theorem appendReq_fuses (s : State) (off : Nat) (bs : List Byte) : (s.appendReq off bs).left.fuses = s.fuses := by
  refine withTarget_fuses _ _ _ _ _ fun s t => ?_
  extract_lets r word base size tail len used at_ first
  have hr : r.1.fuses = s.fuses := targetRead_fuses ..
  clear_value first at_ used len tail size base word r
  split
  · exact hr
  split
  · exact hr
  refine (withTarget_fuses _ _ _ _ _ fun _ _ => withTarget_fuses _ _ _ _ _ fun _ _ => withTarget_fuses _ _ _ _ _ fun s t => ?_).trans hr
  extract_lets a b u
  have hb : b.1.fuses = s.fuses := (targetMerge_fuses ..).trans (targetMerge_fuses ..)
  split
  · exact hb
  · rw [Executed.left_done, targetWrite_fuses, targetWrite_fuses, targetWrite_fuses, hb]
@[simp] theorem runRequest_fuses (s : State) (h : Nat) (data : List Byte) : (s.runRequest h data).left.fuses = s.fuses := by
  unfold runRequest; split <;> simp
@[simp] theorem runUnlessLost_fuses (s : State) (h : Nat) (data : List Byte) : (s.runUnlessLost h data).left.fuses = s.fuses := by
  unfold runUnlessLost; split <;> simp
@[simp] theorem noteRecall_fuses (s : State) (h : Nat) : (s.noteRecall h).fuses = s.fuses := rfl
@[simp] theorem forgetRecall_fuses (s : State) (h : Nat) : (s.forgetRecall h).fuses = s.fuses := rfl
@[simp] theorem notify_fuses (s : State) (h : Nat) : (s.notify h).fuses = s.fuses := by simp [notify]
@[simp] theorem respond_fuses (s : State) (p : List Byte) : (s.respond p).fuses = s.fuses := by simp [respond]
@[simp] theorem remember_fuses (s : State) (h : Nat) (status : Nat) (result : List Byte) :
    (s.remember h status result).fuses = s.fuses := by
  simp [remember]
/-- A response that leaves leaves the fuses where what goes before it does. -/
theorem answer_fuses (s : State) (at_ : MarginAt) (h status : Nat) (result : List Byte) (k : State → State)
    (hk : (k s).fuses = s.fuses) : (s.answer at_ h status result k).fuses = s.fuses := by
  simp only [answer]; split <;> simp [hk]
@[simp] theorem serve_fuses (s : State) (at_ : MarginAt) (h : Nat) (data : List Byte) : (s.serve at_ h data).fuses = s.fuses := by
  have hrun := runUnlessLost_fuses s h data
  simp only [serve]
  split
  · exact answer_fuses _ _ _ _ _ _ rfl
  split
  · exact answer_fuses _ _ _ _ _ _ (bump_fuses ..)
  split
  · rfl
  split <;> next he => rw [he] at hrun; simp [Executed.left] at hrun ⊢; exact hrun
@[simp] theorem executeRequest_fuses (s : State) (at_ : MarginAt) : (s.executeRequest at_).fuses = s.fuses := by
  simp only [executeRequest]
  split
  · rfl
  split
  · rfl
  split
  · simp
  split
  · simp
  split
  · exact answer_fuses _ _ _ _ _ _ (bump_fuses ..)
  · exact serve_fuses ..
@[simp] theorem endToEnd_fuses (s : State) (i : Nat) (r : Request) : (s.endToEnd i r).fuses = s.fuses := by simp [endToEnd]
@[simp] theorem putResponse_fuses (s : State) (r : Request) (data : List Byte) : (s.putResponse r data).fuses = s.fuses := by
  simp [putResponse]
@[simp] theorem takeResponse_fuses (s : State) (at_ : MarginAt) : (s.takeResponse at_).fuses = s.fuses := by
  simp only [takeResponse]; (repeat' split) <;> simp
@[simp] theorem requestExpires_fuses (s : State) (i : Nat) : (s.requestExpires i).fuses = s.fuses := by
  unfold requestExpires; split <;> simp
@[simp] theorem parkExpires_fuses (s : State) (i : Nat) : (s.parkExpires i).fuses = s.fuses := by
  simp only [parkExpires]; (repeat' split) <;> simp
@[simp] theorem releaseTxid_fuses (s : State) (i : Nat) : (s.releaseTxid i).fuses = s.fuses := by
  unfold releaseTxid; split <;> simp
@[simp] theorem resend_fuses (s : State) (i : Nat) (r : Request) : (s.resend i r).fuses = s.fuses := by
  simp only [resend]; (repeat' split) <;> simp
@[simp] theorem applyEndpoints_fuses (s : State) (copy : Nat) : (s.applyEndpoints copy).fuses = s.fuses :=
  foldl_fuses _ (fun _ _ => by split <;> simp) _ _
@[simp] theorem sendMirror_fuses (s : State) (n : Nat) (ctx : Nat) (first : Nat) (who : Requester) (off : Nat)
    (data : List Byte) :
    (s.sendMirror n ctx first who off data).fuses = s.fuses := by
  simp [sendMirror]
@[simp] theorem mirrorWrite_fuses (s : State) (n : Nat) : (s.mirrorWrite n).fuses = s.fuses := by
  simp only [mirrorWrite]; (repeat' split) <;> simp
@[simp] theorem mirrorMark_fuses (s : State) (n : Nat) : (s.mirrorMark n).fuses = s.fuses := by
  simp only [mirrorMark]; (repeat' split) <;> simp
@[simp] theorem queueTurned_fuses (s : State) (n : Nat) (q : Nat) : (s.queueTurned n q).fuses = s.fuses := by
  unfold queueTurned; split <;> simp
@[simp] theorem updTransfer_fuses (s : State) (n : Nat) (q : Nat) (i : Nat) (f : Transfer → Transfer) :
    (s.updTransfer n q i f).fuses = s.fuses :=
  rfl
@[simp] theorem startChunk_fuses (s : State) (n : Nat) (q : Nat) : (s.startChunk n q).fuses = s.fuses := by
  simp only [startChunk]; (repeat' split) <;> simp
@[simp] theorem storeBytes_fuses (s : State) (n : Nat) (addrs : List Nat) (was : List Byte) :
    (s.storeBytes n addrs was).1.fuses = s.fuses := by
  simp [storeBytes]
@[simp] theorem moveChunk_fuses (s : State) (n : Nat) (t : Transfer) (k : Chunk) (ecc : List LinkEcc) :
    (s.moveChunk n t k ecc).1.fuses = s.fuses := by
  simp only [moveChunk]; (repeat' split) <;> simp
@[simp] theorem completeChunk_fuses (s : State) (n : Nat) (q : Nat) (c : Nat) (ecc : List LinkEcc) :
    (s.completeChunk n q c ecc).fuses = s.fuses := by
  simp only [completeChunk]; split <;> simp
@[simp] theorem endInError_fuses (s : State) (n : Nat) (q : Nat) (i : Nat) (cause : Nat) :
    (s.endInError n q i cause).fuses = s.fuses :=
  rfl
@[simp] theorem holdTransfer_fuses (s : State) (n : Nat) (q : Nat) (i : Nat) (c : Nat) (cause : Nat) (t : Transfer) :
    (s.holdTransfer n q i c cause t).fuses = s.fuses := by
  unfold holdTransfer; split <;> simp
@[simp] theorem chunkFaulted_fuses (s : State) (n : Nat) (q : Nat) (i : Nat) (c : Nat) (cause : Nat) :
    (s.chunkFaulted n q i c cause).fuses = s.fuses := by
  simp only [chunkFaulted]; (repeat' split) <;> simp
@[simp] theorem faultChunk_fuses (s : State) (n : Nat) (q : Nat) (c : Nat) (ecc : List LinkEcc) :
    (s.faultChunk n q c ecc).fuses = s.fuses := by
  simp only [faultChunk]; split <;> simp
@[simp] theorem timeoutChunk_fuses (s : State) (n : Nat) (q : Nat) (c : Nat) : (s.timeoutChunk n q c).fuses = s.fuses := by
  simp only [timeoutChunk]; split <;> simp
@[simp] theorem retire_fuses (s : State) (n : Nat) (q : Nat) : (s.retire n q).fuses = s.fuses := by unfold retire; split <;> simp
@[simp] theorem resolve_fuses (s : State) (e : Nat) (action : Nat) : (s.resolve e action).fuses = s.fuses := by
  simp only [resolve]; (repeat' split) <;> simp
@[simp] theorem holdExpiry_fuses (s : State) (e : Nat) : (s.holdExpiry e).fuses = s.fuses := by unfold holdExpiry; split <;> simp
@[simp] theorem startFlush_fuses (s : State) : (s.startFlush).fuses = s.fuses := rfl
@[simp] theorem endFlush_fuses (s : State) : (s.endFlush).fuses = s.fuses := by unfold endFlush; split <;> simp
@[simp] theorem updChannel_fuses (s : State) (ch : Nat) (f : Channel → Channel) : (s.updChannel ch f).fuses = s.fuses := rfl
@[simp] theorem retrain_fuses (s : State) (ch : Nat) : (s.retrain ch).fuses = s.fuses := rfl
@[simp] theorem meetZeros_fuses (s : State) (n : Nat) (ws : List (Nat × Nat)) : (s.meetZeros n ws).1.fuses = s.fuses := by
  induction ws generalizing s with
  | nil => rfl
  | cons w ws ih => simp [meetZeros, ih]
@[simp] theorem sendBytes_fuses (s : State) (n : Nat) (t : Tensor) : (s.sendBytes n t).1.fuses = s.fuses := by simp [sendBytes]
@[simp] theorem sendDone_fuses (s : State) (n : Nat) : (s.sendDone n).fuses = s.fuses := by unfold sendDone; split <;> simp
@[simp] theorem recvDone_fuses (s : State) (n : Nat) : (s.recvDone n).fuses = s.fuses := by
  simp only [recvDone]; (repeat' split) <;> simp
@[simp] theorem closeBinding_fuses (s : State) : (s.closeBinding).fuses = s.fuses := by simp [closeBinding]
@[simp] theorem drainSend_fuses (s : State) (n : Nat) (o : InFlight) (begun : Nat) : (s.drainSend n o begun).fuses = s.fuses := by
  simp [drainSend]
@[simp] theorem reachDeadline_fuses (s : State) (begun : List (NibId × Nat)) : (s.reachDeadline begun).fuses = s.fuses := by
  simp only [reachDeadline]
  split
  · rfl
  · exact foldl_fuses _ (fun _ _ => drainSend_fuses ..) _ _
@[simp] theorem zeroDesk_fuses (s : State) (a : Nat) (n : Nat) : (s.zeroDesk a n).fuses = s.fuses := rfl
@[simp] theorem putPieces_fuses (s : State) (base : Nat) (ps : List (Nat × List Byte)) : (s.putPieces base ps).fuses = s.fuses :=
  foldl_fuses _ (fun _ _ => by simp) _ _
@[simp] theorem writeRecords_fuses (s : State) : s.writeRecords.1.fuses = s.fuses := by
  simp [writeRecords, foldl_fst_fuses]
@[simp] theorem finishStreams_fuses (s : State) : (s.finishStreams).fuses = s.fuses := foldl_fuses _ (fun _ _ => by simp) _ _
@[simp] theorem enterOff_fuses (s : State) (failed : Bool) : (s.enterOff failed).fuses = s.fuses := by simp [enterOff]
@[simp] theorem openBinding_fuses (s : State) : (s.openBinding).fuses = s.fuses := by simp [openBinding]
@[simp] theorem endClosing_fuses (s : State) : (s.endClosing).fuses = s.fuses := by simp [endClosing]
@[simp] theorem endPreemption_fuses (s : State) : s.endPreemption.fuses = s.fuses := by
  obtain ⟨r, hr⟩ : ∃ r, r = s.finishStreams.writeRecords := ⟨_, rfl⟩
  have hfuses : r.1.fuses = s.fuses := by rw [hr, writeRecords_fuses, finishStreams_fuses]
  unfold endPreemption
  rw [← hr]
  split
  · rfl
  · exact (endClosing_fuses _).trans hfuses
@[simp] theorem enableBinding_fuses (s : State) : (s.enableBinding).fuses = s.fuses := by
  simp only [enableBinding]; split <;> simp
@[simp] theorem disableBinding_fuses (s : State) : (s.disableBinding).fuses = s.fuses := by
  simp only [disableBinding]; split <;> simp
@[simp] theorem restoreNib_fuses (s : State) (n : Nat) : (s.restoreNib n).fuses = s.fuses := by
  unfold restoreNib
  extract_lets base r s1 get queue x0 x1 flags sw st start rw' rt sends x2 x3 parked src x4 s2
  have h2 : s2.fuses = s.fuses := (setNib_fuses ..).trans (deskRead_fuses ..)
  clear_value s2 sends
  rw [drainInbox_fuses]
  exact h2
@[simp] theorem mapGrid_fuses (s : State) (f : Nib → Nib) : (s.mapGrid f).fuses = s.fuses := rfl
@[simp] theorem enterOn_fuses (s : State) : s.enterOn.fuses = s.fuses := by
  unfold enterOn
  extract_lets s1 b r s2 s3 s4 begun l s5 s6
  have h1 : s1.fuses = s.fuses := (setBinding_fuses ..).trans (setObj_fuses ..)
  have h4 : s4.fuses = s.fuses :=
    (foldl_fuses (fun s (e : Nat × Nib) => s.restoreNib e.1) (fun _ _ => restoreNib_fuses ..) _ _).trans ((mapGrid_fuses ..).trans h1)
  have h5 : s5.fuses = s.fuses := (withLines_fuses _ _).trans h4
  rw [ringBells_fuses]
  unfold s6
  split
  · exact (countPlanLine_fuses _).trans h5
  · exact h5
@[simp] theorem endOpening_fuses (s : State) : s.endOpening.fuses = s.fuses := by
  simp only [endOpening]
  split
  · rfl
  split
  · simp
  split
  · simp
  · simp
@[simp] theorem placePages_fuses (k : Nat) (s : State) (va len : Nat) (store : Bool) :
    (placePages k s va len store).1.fuses = s.fuses := by
  induction k generalizing s va len with
  | zero => rfl
  | succ k ih => simp only [placePages]; (repeat' split) <;> simp [ih]
@[simp] theorem placeRead_fuses (s : State) (va len : Nat) : (s.placeRead va len).1.fuses = s.fuses := by
  simp [placeRead, foldl_fst_fuses]
@[simp] theorem placeStore_fuses (s : State) (ps : List (Nat × Nat)) (bs : List Byte) : (s.placeStore ps bs).fuses = s.fuses := by
  induction ps generalizing s bs with
  | nil => rfl
  | cons p ps ih => simp [placeStore, ih]
@[simp] theorem placeStop_fuses (s : State) (k : Nat) (cause : Nat) : (s.placeStop k cause).fuses = s.fuses := rfl
@[simp] theorem placePast_fuses (s : State) (k : Nat) : (s.placePast k).fuses = s.fuses := by
  simp only [placePast]; split <;> simp
@[simp] theorem placeFault_fuses (s : State) (k : Nat) (cause : Nat) : (s.placeFault k cause).fuses = s.fuses := by
  unfold placeFault; split <;> simp
@[simp] theorem placeDone_fuses (s : State) (k : Nat) : (s.placeDone k).fuses = s.fuses := by simp [placeDone]
/-- The search of the place list leaves the fuses where the entry's effect does. -/
theorem placeFrom_fuses (op : Nat) (eff : State → Nat → Nat → List Nat → State) (he : ∀ s k e ns, (eff s k e ns).fuses = s.fuses)
    (fuel : Nat) (s : State) (k : Nat) (earlier : List Nat) : (placeFrom op eff fuel s k earlier).fuses = s.fuses := by
  induction fuel generalizing s k earlier with
  | zero => rfl
  | succ fuel ih => simp only [placeFrom]; (repeat' split) <;> simp [ih, he]
theorem placeEntry_fuses (s : State) (op : Nat) (eff : State → Nat → Nat → List Nat → State)
    (he : ∀ s k e ns, (eff s k e ns).fuses = s.fuses) : (s.placeEntry op eff).fuses = s.fuses := by
  simp only [placeEntry]; split
  · rfl
  · exact placeFrom_fuses _ _ he ..
@[simp] theorem put_fuses (s : State) (k e : Nat) (ns : List Nat) : (s.put k e ns).fuses = s.fuses := by
  have h (f : Nat → Nib → Nib) : (ns.foldl (fun s n => s.updNib n (f s.fresh))
      (s.placeRead (placeDesk e) (placeLength e)).1.took).fuses = s.fuses :=
    (foldl_fuses _ (fun _ _ => updNib_fuses ..) _ _).trans (placeRead_fuses ..)
  simp only [put]
  split
  · rw [placeFault_fuses, took_fuses, foldl_fuses _ fun _ _ => updNib_fuses ..]; simp
  split
  · simp
  · rw [placeDone_fuses, foldl_fuses _ fun _ _ => updNib_fuses ..]; simp
@[simp] theorem get_fuses (s : State) (k e : Nat) (ns : List Nat) : (s.get k e ns).fuses = s.fuses := by
  simp [get, foldl_fst_fuses]
@[simp] theorem fill_fuses (s : State) (k e : Nat) (ns : List Nat) : (s.fill k e ns).fuses = s.fuses :=
  (placeDone_fuses ..).trans (foldl_fuses _ (fun _ _ => updNib_fuses ..) _ _)
@[simp] theorem start_fuses (s : State) (k e : Nat) (ns : List Nat) : (s.start k e ns).fuses = s.fuses :=
  (placeDone_fuses ..).trans (foldl_fuses _ (fun _ _ => updNib_fuses ..) _ _)
@[simp] theorem placeEnd_fuses (s : State) : (s.placeEnd).fuses = s.fuses := by simp [placeEnd]
/-- A place list that starts leaves the fuses. -/
theorem placeBegin_fuses {s t : State} (h : s.placeBegin = some t) : t.fuses = s.fuses := by
  simp only [placeBegin] at h
  split at h <;> cases h
  rfl
@[simp] theorem saveHeader_fuses (s : State) : (s.saveHeader).fuses = s.fuses := by simp [saveHeader]
@[simp] theorem beginRecord_fuses (s : State) (trigger : Nat) (reason : Nat) (time : Nat) :
    (s.beginRecord trigger reason time).fuses = s.fuses := by
  simp [beginRecord]
@[simp] theorem endRecord_fuses (s : State) : (s.endRecord).fuses = s.fuses := by unfold endRecord; split <;> simp
@[simp] theorem mmaDone_fuses (s : State) (n : Nat) : (s.mmaDone n).fuses = s.fuses := by
  simp only [mmaDone]; (repeat' split) <;> simp
@[simp] theorem vopDone_fuses (s : State) (n : Nat) : (s.vopDone n).fuses = s.fuses := by
  simp only [vopDone]; (repeat' split) <;> simp
@[simp] theorem cvtDone_fuses (s : State) (n : Nat) : (s.cvtDone n).fuses = s.fuses := by
  simp only [cvtDone]; (repeat' split) <;> simp
@[simp] theorem failProgress_fuses (s : State) (fs : List Failure) : (s.failProgress fs).fuses = s.fuses := by
  simp only [failProgress]
  split
  · rfl
  · rw [blot_fuses, event_fuses, foldl_fuses _ fun _ _ => bump_fuses ..]; simp
@[simp] theorem checkProgress_fuses (s : State) : (s.checkProgress).fuses = s.fuses := by simp [checkProgress]
@[simp] theorem takeBlotItem_fuses (s : State) (q : Nat) (w : Nat) : (s.takeBlotItem q w).fuses = s.fuses := by
  simp [takeBlotItem]
@[simp] theorem expireKeys_fuses (s : State) : (s.expireKeys).fuses = s.fuses := rfl
@[simp] theorem dropOp_fuses (s : State) (n : Nat) (o : InFlight) : (s.dropOp n o).fuses = s.fuses := by
  unfold dropOp; split <;> simp
@[simp] theorem dropOps_fuses (s : State) (n : Nat) (p : InFlight → Bool) : (s.dropOps n p).fuses = s.fuses :=
  foldl_fuses _ (fun _ _ => by simp) _ _
@[simp] theorem freeEntries_fuses (s : State) (p : FaultEntry → Bool) : (s.freeEntries p).fuses = s.fuses := rfl
@[simp] theorem emptyQueue_fuses (s : State) (n : Nat) (q : Nat) : (s.emptyQueue n q).fuses = s.fuses := rfl
@[simp] theorem resetEngine_fuses (s : State) (n : Nat) (u : Nat) : (s.resetEngine n u).fuses = s.fuses := by
  unfold resetEngine; split <;> simp
@[simp] theorem unbindFrom_fuses (s : State) (n : Nat) : (s.unbindFrom n).fuses = s.fuses := by unfold unbindFrom; split <;> simp
@[simp] theorem resetNib_fuses (s : State) (n : Nat) : (s.resetNib n).fuses = s.fuses := by simp [resetNib]
@[simp] theorem cutPreemption_fuses (s : State) : (s.cutPreemption).fuses = s.fuses := by simp [cutPreemption]
@[simp] theorem resetCompute_fuses (s : State) : s.resetCompute.fuses = s.fuses := by
  have hquires : ((List.range 16).foldl (fun s k => s.keepCount k) ((s.mapNibs computeResetNib).freeEntries fun _ => true)).fuses =
      s.fuses := by
    rw [foldl_fuses _ fun _ _ => keepCount_fuses .., freeEntries_fuses, mapNibs_fuses]
  unfold resetCompute
  extract_lets s1 s2 s3 b s4 s5
  have h3 : s3.fuses = s.fuses := (mapQuires_fuses ..).trans hquires
  clear_value s3
  split
  · rw [endClosing_fuses]; exact (vacate_fuses _).trans h3
  · exact (vacate_fuses _).trans h3
@[simp] theorem holdCompute_fuses (s : State) : (s.holdCompute).fuses = s.fuses := by simp [holdCompute]
@[simp] theorem retirePart_fuses (s : State) (reason : Nat) : (s.retirePart reason).fuses = s.fuses := by simp [retirePart]
@[simp] theorem tally_fuses (s : State) : (s.tally).1.fuses = s.fuses := by simp [tally]
@[simp] theorem resetPart_fuses (s : State) : (s.resetPart).fuses = s.fuses := rfl
@[simp] theorem sayFarewell_fuses (s : State) (q : Nat) : (s.sayFarewell q).fuses = s.fuses := rfl
@[simp] theorem setSteps_fuses (s : State) (ts : List ResetStep) : (s.setSteps ts).fuses = s.fuses := rfl
@[simp] theorem beginPart_fuses (s : State) (t : ResetStep) : (s.beginPart t).fuses = s.fuses := by
  have h : (if s.recovery.headerRead then s
    else { s with recovery := { s.recovery with lateParts := s.recovery.lateParts + 1 } } : State).fuses = s.fuses := by
    split <;> rfl
  simp only [beginPart]
  split
  · rw [resetPart_fuses, h]
  · rw [setSteps_fuses, foldl_fuses _ fun _ _ => sayFarewell_fuses .., h]
@[simp] theorem beginStep_fuses (s : State) (t : ResetStep) : (s.beginStep t).fuses = s.fuses := by simp [beginStep]
@[simp] theorem pumpSteps_fuses (s : State) : s.pumpSteps.fuses = s.fuses := by
  simp only [pumpSteps]
  split
  · rfl
  split
  · rfl
  split
  · split <;> simp
  · rw [foldl_fuses _ fun _ _ => beginStep_fuses ..]
/-- A reset that is accepted leaves the fuses. -/
theorem requestReset_fuses {s t : State} {step nib : Nat} (h : s.requestReset step nib = some t) : t.fuses = s.fuses := by
  simp only [requestReset] at h
  split at h
  · cases h
  split at h <;> cases h <;> simp
@[simp] theorem wantLadder_fuses (s : State) : s.wantLadder.fuses = s.fuses := by
  unfold wantLadder
  extract_lets s1 s2 r
  have h1 : s1.fuses = s.fuses := by
    refine foldl_fuses _ (fun s e => (foldl_fuses _ (fun _ _ => wantReset_fuses ..) _ _).trans ?_) _ _
    split
    · exact wantReset_fuses ..
    · rfl
  have h2 : s2.fuses = s.fuses := by
    unfold s2; split
    · exact h1
    · exact (wantReset_fuses ..).trans h1
  split
  · exact (wantReset_fuses ..).trans h2
  · exact h2
@[simp] theorem endAbort_fuses (s : State) : s.endAbort.fuses = s.fuses := by
  unfold endAbort
  split
  · rfl
  split
  · rfl
  next a _ _ =>
  extract_lets r s1 s2 pending s3
  have h2 : s2.fuses = s.fuses := (beginRecord_fuses ..).trans (wantLadder_fuses _)
  rw [pumpSteps_fuses]
  split
  · rw [openBinding_fuses, enterOff_fuses, h2]
  · rw [enterOff_fuses, h2]
@[simp] theorem stepEffect_fuses (s : State) (t : ResetStep) : (s.stepEffect t).fuses = s.fuses := by
  simp only [stepEffect]; (repeat' split) <;> simp
@[simp] theorem completeStep_fuses (s : State) : (s.completeStep).fuses = s.fuses := by
  simp only [completeStep]; (repeat' split) <;> simp
@[simp] theorem escalate_fuses (s : State) (t : ResetStep) : (s.escalate t).fuses = s.fuses := by unfold escalate; split <;> simp
@[simp] theorem bootTimeout_fuses (s : State) : (s.bootTimeout).fuses = s.fuses := by unfold bootTimeout; split <;> simp
@[simp] theorem escalateDue_fuses (s : State) : (s.escalateDue).fuses = s.fuses := by unfold escalateDue; split <;> simp
@[simp] theorem heldLimit_fuses (s : State) : (s.heldLimit).fuses = s.fuses := by unfold heldLimit; split <;> simp
@[simp] theorem extend_fuses (s : State) (k : Nat) (d : List Byte) : (s.extend k d).fuses = s.fuses := rfl
@[simp] theorem trainDesk_fuses (s : State) : (s.trainDesk).fuses = s.fuses := by simp [trainDesk]
@[simp] theorem startDesk_fuses (s : State) : (s.startDesk).fuses = s.fuses := by simp only [startDesk]; (repeat' split) <;> simp
@[simp] theorem startUp_fuses (s : State) (k : Nat) (rejected : Nat) : (s.startUp k rejected).fuses = s.fuses := by simp [startUp]
@[simp] theorem bootUp_fuses (s : State) : (s.bootUp).fuses = s.fuses := by simp only [bootUp]; (repeat' split) <;> simp
@[simp] theorem fwBegin_fuses (s : State) (cmd : Nat) (arg : Nat) : (s.fwBegin cmd arg).fuses = s.fuses := rfl
@[simp] theorem keepQuote_fuses (s : State) (sess : Nat) (nonce : List Byte) : (s.keepQuote sess nonce).fuses = s.fuses := rfl
@[simp] theorem setPin_fuses (s : State) (p : Nat) (x : Pin) : (s.setPin p x).fuses = s.fuses := rfl
@[simp] theorem assertPin_fuses (s : State) (p : Nat) : (s.assertPin p).1.fuses = s.fuses := by simp [assertPin]
@[simp] theorem blotIn_fuses (s : State) : (s.blotIn).fuses = s.fuses := by simp [blotIn]
@[simp] theorem holdIn_fuses (s : State) : (s.holdIn).fuses = s.fuses := by simp [holdIn]
@[simp] theorem drainHold_fuses (s : State) : (s.drainHold).fuses = s.fuses := by simp [drainHold]
@[simp] theorem acceptPps_fuses (s : State) (edge : Nat) : (s.acceptPps edge).fuses = s.fuses := rfl
@[simp] theorem ppsIn_fuses (s : State) (edge : Nat) : (s.ppsIn edge).fuses = s.fuses := by simp [ppsIn]
@[simp] theorem pinReset_fuses (s : State) : (s.pinReset).fuses = s.fuses := by unfold pinReset; split <;> simp
@[simp] theorem resetIn_fuses (s : State) : (s.resetIn).fuses = s.fuses := by simp [resetIn]
@[simp] theorem leaveReset_fuses (s : State) : (s.leaveReset).fuses = s.fuses := by simp [leaveReset]
@[simp] theorem resetRelease_fuses (s : State) : (s.resetRelease).fuses = s.fuses := by simp [resetRelease]
@[simp] theorem rearm_fuses (s : State) (p : Nat) : (s.rearm p).fuses = s.fuses := by simp [rearm]
@[simp] theorem stick_fuses (s : State) (p : Nat) : (s.stick p).fuses = s.fuses := by simp [stick]
@[simp] theorem unstick_fuses (s : State) (v : Nat) : (s.unstick v).fuses = s.fuses := rfl
@[simp] theorem powerUp_fuses (s : State) : (s.powerUp).fuses = s.fuses := by unfold powerUp; split <;> simp
@[simp] theorem latchStatus_fuses (s : State) (i : Nat) : (s.latchStatus i).fuses = s.fuses := rfl
@[simp] theorem underVoltage_fuses (s : State) : (s.underVoltage).fuses = s.fuses := by simp [underVoltage]
@[simp] theorem railsDown_fuses (s : State) (tripped : Bool) : (s.railsDown tripped).fuses = s.fuses := rfl
@[simp] theorem setTest_fuses (s : State) (q : Nat) (v : Nat) : (s.setTest q v).fuses = s.fuses := by simp [setTest]
@[simp] theorem stopTest_fuses (s : State) (q : Nat) : (s.stopTest q).fuses = s.fuses := by simp [stopTest]
@[simp] theorem setLock_fuses (s : State) (q : Nat) (lane : Nat) (b : Bool) : (s.setLock q lane b).fuses = s.fuses := rfl
@[simp] theorem lockLane_fuses (s : State) (q : Nat) (lane : Nat) (symbols : List (BitVec 2)) :
    (s.lockLane q lane symbols).fuses = s.fuses := by
  simp [lockLane]
@[simp] theorem loseLane_fuses (s : State) (q : Nat) (lane : Nat) (errors : Nat) :
    (s.loseLane q lane errors).fuses = s.fuses := by
  simp [loseLane]
@[simp] theorem loadJtag_fuses (s : State) (i : JtagInstr) (capture : Nat) : (s.loadJtag i capture).fuses = s.fuses := by
  simp [loadJtag]
@[simp] theorem jtagIdcode_fuses (s : State) : (s.jtagIdcode).fuses = s.fuses := by simp [jtagIdcode]
@[simp] theorem jtagSample_fuses (s : State) (pins : List Bool) (preload : List Bool) :
    (s.jtagSample pins preload).fuses = s.fuses := by
  simp [jtagSample]
@[simp] theorem jtagDrive_fuses (s : State) (i : JtagInstr) : (s.jtagDrive i).fuses = s.fuses := by simp [jtagDrive]
@[simp] theorem jtagReset_fuses (s : State) : (s.jtagReset).fuses = s.fuses := by simp [jtagReset]
@[simp] theorem checkStaged_fuses (s : State) : (s.checkStaged).1.fuses = s.fuses := by simp [checkStaged]
@[simp] theorem updStaging_fuses (s : State) (f : Staging → Staging) : (s.updStaging f).fuses = s.fuses := rfl
@[simp] theorem putStaged_fuses (s : State) (k : Nat) (v : List Byte) : (s.putStaged k v).fuses = s.fuses := by
  simp only [putStaged]; split <;> simp
@[simp] theorem loadPrompt_fuses (s : State) : (s.loadPrompt).fuses = s.fuses := by simp [loadPrompt]
@[simp] theorem measureImage_fuses (s : State) (before : State) : (s.measureImage before).fuses = s.fuses := by
  simp [measureImage]
@[simp] theorem tiedEffect_fuses (s : State) (index v : Nat) : (s.tiedEffect index v).fuses = s.fuses := by
  simp only [tiedEffect]; split <;> simp
@[simp] theorem applyStaged_fuses (s : State) : s.applyStaged.fuses = s.fuses := by
  unfold applyStaged
  extract_lets g s1
  refine (foldl_fuses _ (fun _ _ => ?_) _ _).trans ((measureImage_fuses ..).trans (foldl_fuses _ (fun _ _ => putStaged_fuses ..) _ _))
  split <;> simp
@[simp] theorem applyInstant_fuses (s : State) : (s.applyInstant).fuses = s.fuses := by simp [applyInstant]
@[simp] theorem stageOpen_fuses (s : State) (sess : Nat) : (s.stageOpen sess).1.fuses = s.fuses := by
  unfold stageOpen; split <;> simp
@[simp] theorem stageCheck_fuses (s : State) : (s.stageCheck).1.fuses = s.fuses := by unfold stageCheck; split <;> simp
@[simp] theorem stageApply_fuses (s : State) : (s.stageApply).1.fuses = s.fuses := by simp [stageApply]
@[simp] theorem stageCancel_fuses (s : State) : (s.stageCancel).1.fuses = s.fuses := by simp [stageCancel]
@[simp] theorem stageDiscard_fuses (s : State) : (s.stageDiscard).1.fuses = s.fuses := by simp [stageDiscard]
@[simp] theorem stageCommand_fuses (s : State) (sess : Nat) (v : Nat) : (s.stageCommand sess v).1.fuses = s.fuses := by
  simp [stageCommand]
@[simp] theorem stageInstant_fuses (s : State) (sess : Nat) (v : Nat) : (s.stageInstant sess v).1.fuses = s.fuses := by
  simp [stageInstant]
@[simp] theorem stageValue_fuses (s : State) (sess : Nat) (index : Nat) (sub : Nat) (v : List Byte) :
    (s.stageValue sess index sub v).1.fuses = s.fuses := by
  simp only [stageValue]; split <;> simp
/-- A refusal or an effect leaves the fuses where the effect does. -/
theorem orState_fuses {s : State} {r : Option State} (h : ∀ t, r = some t → t.fuses = s.fuses) :
    (orState s r).1.fuses = s.fuses :=
  by
  cases r with
  | none => rfl
  | some t => exact h t rfl
@[simp] theorem writeResolve_fuses (s : State) (v : Nat) : (s.writeResolve v).1.fuses = s.fuses := by simp [writeResolve]
@[simp] theorem writeTable_fuses (s : State) (index : Nat) (q : Nat) (v : List Byte) : (s.writeTable index q v).fuses = s.fuses :=
  rfl
@[simp] theorem writeEndpoint_fuses (s : State) (n : Nat) (v : Nat) : (s.writeEndpoint n v).fuses = s.fuses := by
  simp [writeEndpoint]
@[simp] theorem moveBlotter_fuses (s : State) (base : Nat) : (s.moveBlotter base).fuses = s.fuses := by simp [moveBlotter]
@[simp] theorem writeEnable_fuses (s : State) (q : Nat) (v : Nat) : (s.writeEnable q v).fuses = s.fuses := by simp [writeEnable]
@[simp] theorem writeFirmware_fuses (s : State) (v : Nat) : (s.writeFirmware v).1.fuses = s.fuses := by simp [writeFirmware]
@[simp] theorem clearFaults_fuses (s : State) : s.clearFaults.fuses = s.fuses :=
  (setObj_fuses ..).trans (foldl_fuses _ (fun _ _ => setObj_fuses ..) _ _)
@[simp] theorem writeTest_fuses (s : State) (q : Nat) (v : Nat) : (s.writeTest q v).1.fuses = s.fuses := by simp [writeTest]
@[simp] theorem writeOne_fuses (s : State) (index sub : Nat) : (s.writeOne index sub).1.fuses = s.fuses := by
  have hplace : (orState s s.placeBegin).1.fuses = s.fuses := orState_fuses fun _ => placeBegin_fuses
  unfold writeOne; split <;> simp [hplace]
@[simp] theorem writeCommand_fuses (s : State) (sess index sub : Nat) (v : List Byte) :
    (s.writeCommand sess index sub v).1.fuses = s.fuses := by
  have hreset (k n : Nat) : (orState s (s.requestReset k n)).1.fuses = s.fuses := orState_fuses fun _ => requestReset_fuses
  simp only [writeCommand]; split <;> simp [hreset]
@[simp] theorem writeNow_fuses (s : State) (sess : Nat) (index : Nat) (sub : Nat) (v : List Byte) :
    (s.writeNow sess index sub v).1.fuses = s.fuses := by
  simp only [writeNow]; (repeat' split) <;> simp
@[simp] theorem notePersist_fuses (s : State) (k : Nat) (flashOk : Bool) : (s.notePersist k flashOk).fuses = s.fuses := by
  simp [notePersist]
@[simp] theorem writePersisted_fuses (s : State) (sess : Nat) (index : Nat) (sub : Nat) (v : List Byte) :
    (s.writePersisted sess index sub v).1.fuses = s.fuses := by
  simp [writePersisted]
@[simp] theorem ledgerWrite_fuses (s : State) (sess index sub : Nat) (v : List Byte) :
    (s.ledgerWrite sess index sub v).1.fuses = s.fuses := by
  simp only [ledgerWrite]; (repeat' split) <;> simp
@[simp] theorem commit_fuses (sess : SessionId) (r : State × LapStatus) : (commit sess r).fuses = r.1.fuses := rfl
@[simp] theorem writeNum_fuses (s : State) (sess : SessionId) (index sub size v : Nat) :
    (s.writeNum sess index sub size v).fuses = s.fuses := ledgerWrite_fuses ..
@[simp] theorem lapRefuse_fuses (s : State) (src : Source) (m : List Byte) (st : LapStatus) :
    (s.lapRefuse src m st).fuses = s.fuses := by
  simp [lapRefuse]
@[simp] theorem mapSessions_fuses (s : State) (f : Session → Session) : (s.mapSessions f).fuses = s.fuses := rfl
@[simp] theorem hearFrom_fuses (s : State) (src : Source) (sess : Nat) : (s.hearFrom src sess).fuses = s.fuses := rfl
@[simp] theorem lapArrive_fuses (s : State) (src : Source) (m : List Byte) : (s.lapArrive src m).fuses = s.fuses := by
  simp [lapArrive]
@[simp] theorem updSession_fuses (s : State) (id : Nat) (f : Session → Session) : (s.updSession id f).fuses = s.fuses := rfl
@[simp] theorem closeSession_fuses (s : State) (id : Nat) : (s.closeSession id).fuses = s.fuses := by simp [closeSession]
@[simp] theorem openSession_fuses (s : State) (src : Source) (expert : Bool) (evmask : Nat) :
    (s.openSession src expert evmask).1.fuses = s.fuses :=
  rfl
@[simp] theorem spendNonce_fuses (s : State) (src : Source) (p : List Byte) : (s.spendNonce src p).fuses = s.fuses := by
  unfold spendNonce; split <;> simp
@[simp] theorem lapPop_fuses (s : State) : (s.lapPop).fuses = s.fuses := rfl
@[simp] theorem handled_fuses (s : State) : (s.handled).fuses = s.fuses := rfl
@[simp] theorem sessionAnswer_fuses (s : State) (w : LapMsg) (status : Nat) (count : Nat) (payload : List Byte) :
    (s.sessionAnswer w status count payload).fuses = s.fuses := by
  simp [sessionAnswer]
/-- Taking a message that names a session leaves the fuses where handling it does. -/
theorem inSession_fuses (s : State) (w : LapMsg) (k : State → Session → State) (hk : ∀ s x, (k s x).fuses = s.fuses) :
    (s.inSession w k).fuses = s.fuses := by
  simp only [inSession]; (repeat' split) <;> simp [hk]
@[simp] theorem lapOpen_fuses (s : State) (w : LapMsg) : (s.lapOpen w).fuses = s.fuses := by simp [lapOpen]
@[simp] theorem lapNonce_fuses (s : State) (w : LapMsg) : (s.lapNonce w).fuses = s.fuses := by simp [lapNonce]
@[simp] theorem lapRead_fuses (s : State) (w : LapMsg) : (s.lapRead w).fuses = s.fuses := by
  simp only [lapRead]; split <;> simp [inSession_fuses]
@[simp] theorem writeItem_fuses (s : State) (sess : Nat) (i : WriteItem) : (s.writeItem sess i).1.fuses = s.fuses := by
  simp only [writeItem]; (repeat' split) <;> simp
@[simp] theorem writeAll_fuses (s : State) (sess : Nat) (is : List WriteItem) : (s.writeAll sess is).1.fuses = s.fuses := by
  induction is generalizing s with
  | nil => rfl
  | cons i is ih => simp [writeAll, ih]
@[simp] theorem lapWrite_fuses (s : State) (w : LapMsg) : (s.lapWrite w).fuses = s.fuses :=
  inSession_fuses _ _ _ fun _ _ => by simp
@[simp] theorem lapEventAck_fuses (s : State) (w : LapMsg) : (s.lapEventAck w).fuses = s.fuses :=
  inSession_fuses _ _ _ fun _ _ => by simp
@[simp] theorem sendEvents_fuses (s : State) (x : Session) (n : Nat) (rs : List EventRec) :
    (s.sendEvents x n rs).fuses = s.fuses :=
  by
  induction n generalizing s rs with
  | zero => rfl
  | succ n ih => cases rs <;> simp [sendEvents, ih]
@[simp] theorem repeatEvents_fuses (s : State) (x : Session) : (s.repeatEvents x).fuses = s.fuses := by simp [repeatEvents]
@[simp] theorem idleTimeout_fuses (s : State) (id : Nat) : (s.idleTimeout id).fuses = s.fuses := by
  unfold idleTimeout; split <;> simp
/-- Serving a request leaves the fuses where what serves it does. -/
theorem serveTxl_fuses (s : State) (opcs : List Nat) (tag : Nat) (k : State → TxlMsg → State) (hk : ∀ s m, (k s m).fuses = s.fuses) :
    (s.serveTxl opcs tag k).fuses = s.fuses := by
  simp only [serveTxl]; split <;> simp [hk]
@[simp] theorem cmp_fuses (s : State) (m : TxlMsg) (status : Nat) : (s.cmp m status).fuses = s.fuses := by simp [cmp]
@[simp] theorem cmpd_fuses (s : State) (m : TxlMsg) (state : Nat) (data : List Byte) : (s.cmpd m state data).fuses = s.fuses := by
  simp [cmpd]
@[simp] theorem cmpdPoison_fuses (s : State) (m : TxlMsg) : (s.cmpdPoison m).fuses = s.fuses := by simp [cmpdPoison]
@[simp] theorem cmpStale_fuses (s : State) (m : TxlMsg) : (s.cmpStale m).fuses = s.fuses := by simp [cmpStale]
@[simp] theorem cmpUe_fuses (s : State) (m : TxlMsg) : (s.cmpUe m).fuses = s.fuses := by simp [cmpUe]
@[simp] theorem writeLine_fuses (s : State) (pa : Nat) (mask : Nat) (data : List Byte) :
    (s.writeLine pa mask data).1.fuses = s.fuses := by
  simp [writeLine]
@[simp] theorem controlRead_fuses (s : State) (m : TxlMsg) (off : Nat) : (s.controlRead m off).fuses = s.fuses := by
  simp [controlRead]
@[simp] theorem ringDoorbell_fuses (s : State) : (s.ringDoorbell).fuses = s.fuses := by simp [ringDoorbell]
@[simp] theorem promptWrite_fuses (s : State) (m : TxlMsg) (off : Nat) : (s.promptWrite m off).fuses = s.fuses := by
  simp [promptWrite]
@[simp] theorem clearRsp_fuses (s : State) : (s.clearRsp).fuses = s.fuses := by simp [clearRsp]
@[simp] theorem clearEvt_fuses (s : State) : (s.clearEvt).fuses = s.fuses := by simp [clearEvt]
@[simp] theorem mbctrlWrite_fuses (s : State) (v : Nat) : (s.mbctrlWrite v).fuses = s.fuses := by simp [mbctrlWrite]
@[simp] theorem controlWrite_fuses (s : State) (m : TxlMsg) (off : Nat) : (s.controlWrite m off).fuses = s.fuses := by
  simp [controlWrite]
@[simp] theorem submitMailbox_fuses (s : State) : (s.submitMailbox).fuses = s.fuses := by simp [submitMailbox]
@[simp] theorem evictWay_fuses (s : State) (line : Nat) (tag : Nat) : (s.evictWay line tag).fuses = s.fuses := by
  simp only [evictWay]; (repeat' split) <;> simp
@[simp] theorem startReq_fuses (s : State) (m : TxlMsg) (pa : Nat) (coh : Bool) : (s.startReq m pa coh).fuses = s.fuses := by
  simp [startReq]
@[simp] theorem windowReq_fuses (s : State) (m : TxlMsg) (w : Nat) (va : Nat) : (s.windowReq m w va).fuses = s.fuses := by
  simp only [windowReq]; (repeat' split) <;> simp
@[simp] theorem rdu_fuses (s : State) (m : TxlMsg) : (s.rdu m).fuses = s.fuses := by unfold rdu; split <;> simp
@[simp] theorem readCached_fuses (s : State) (m : TxlMsg) : (s.readCached m).fuses = s.fuses := by
  unfold readCached; split <;> simp
@[simp] theorem wr_fuses (s : State) (m : TxlMsg) : (s.wr m).fuses = s.fuses := by unfold wr; split <;> simp
/-- A message about a line leaves the fuses where its effect on the line does. -/
theorem withLine_fuses (s : State) (m : TxlMsg) (k : State → DirEntry → State) (hk : ∀ s d, (k s d).fuses = s.fuses) :
    (s.withLine m k).fuses = s.fuses := by
  simp only [withLine]; (repeat' split) <;> simp [hk]
@[simp] theorem giveWay_fuses (s : State) (line : Nat) : (s.giveWay line).fuses = s.fuses := by
  simp only [giveWay]; split <;> simp
@[simp] theorem binvDone_fuses (s : State) (line : Nat) : (s.binvDone line).fuses = s.fuses := rfl
@[simp] theorem wb_fuses (s : State) (m : TxlMsg) : (s.wb m).fuses = s.fuses := withLine_fuses _ _ _ fun _ _ => by simp
@[simp] theorem cln_fuses (s : State) (m : TxlMsg) : (s.cln m).fuses = s.fuses := withLine_fuses _ _ _ fun _ _ => by simp
@[simp] theorem birsp_fuses (s : State) (m : TxlMsg) : (s.birsp m).fuses = s.fuses := by unfold birsp; split <;> simp
@[simp] theorem grantLine_fuses (s : State) (q : TxlReq) : (s.grantLine q).fuses = s.fuses := by
  simp only [grantLine]; (repeat' split) <;> simp
@[simp] theorem performReq_fuses (s : State) (q : TxlReq) : (s.performReq q).fuses = s.fuses := by
  simp only [performReq]; (repeat' split) <;> simp
@[simp] theorem completeReq_fuses (s : State) (tag : Nat) : (s.completeReq tag).fuses = s.fuses := by
  unfold completeReq; split <;> simp
@[simp] theorem cutChunks_fuses (s : State) : (s.cutChunks).fuses = s.fuses := rfl
@[simp] theorem txlDown_fuses (s : State) : (s.txlDown).fuses = s.fuses := rfl
@[simp] theorem loseTxl_fuses (s : State) : (s.loseTxl).fuses = s.fuses := by unfold loseTxl; split <;> simp
@[simp] theorem txlUp_fuses (s : State) (rsp : Nat) (data : Nat) (req : Nat) : (s.txlUp rsp data req).fuses = s.fuses := by
  simp [txlUp]
@[simp] theorem rejectFlit_fuses (s : State) : (s.rejectFlit).fuses = s.fuses := rfl
@[simp] theorem acceptFlit_fuses (s : State) (slots : List Byte) : (s.acceptFlit slots).fuses = s.fuses := by simp [acceptFlit]
@[simp] theorem takeFlit_fuses (s : State) (b : List Byte) : (s.takeFlit b).fuses = s.fuses := by
  simp only [takeFlit]; (repeat' split) <;> simp
@[simp] theorem txlAck_fuses (s : State) : (s.txlAck).fuses = s.fuses := by simp [txlAck]
@[simp] theorem txlReplay_fuses (s : State) : (s.txlReplay).fuses = s.fuses := by simp [txlReplay]
@[simp] theorem dropFrame_fuses (s : State) : (s.dropFrame).fuses = s.fuses := rfl
@[simp] theorem serveFrame_fuses (s : State) (f : MgmtFrame) : (s.serveFrame f).fuses = s.fuses := by
  unfold serveFrame; split <;> simp
@[simp] theorem takeMgmt_fuses (s : State) (f : MgmtFrame) : (s.takeMgmt f).fuses = s.fuses := by simp [takeMgmt]
@[simp] theorem busReply_fuses (s : State) (r : Option (List Byte)) : (s.busReply r).fuses = s.fuses := rfl
@[simp] theorem busRead_fuses (s : State) (pec : Bool) (r : List Byte) : (s.busRead pec r).fuses = s.fuses := rfl
@[simp] theorem withFetchWord_fuses (s : State) (nbits : Nat) (w : Nat) : (s.withFetchWord nbits w).fuses = s.fuses := rfl

end State

/-- The state that an instruction's effect leaves before the issue unit moves on: `s` itself where it faults or waits. -/
def Issued.left (s : State) : Issued → State
  | .fault _ _ _ => s
  | .wait _ => s
  | .go t => t
  | .jump t _ => t
  | .stop t => t

section
variable (s t : State)

@[simp] theorem Issued.left_fault (c d : Nat) (h : Option Nat) : (Issued.fault c h d).left s = s := rfl
@[simp] theorem Issued.left_wait (h : Hold) : (Issued.wait h).left s = s := rfl
@[simp] theorem Issued.left_go : (Issued.go t).left s = t := rfl
@[simp] theorem Issued.left_jump (a : Nat) : (Issued.jump t a).left s = t := rfl
@[simp] theorem Issued.left_stop : (Issued.stop t).left s = t := rfl
@[simp] theorem badOperand_left (e : Nat × Nat × Nat) : (badOperand e).left s = s := rfl

theorem mmaFault_left {d a b : Tensor} {i : Issued} (h : mmaFault d a b = some i) : i.left s = s := by
  simp only [mmaFault] at h
  (repeat' split at h) <;> cases h <;> rfl

theorem vopFault_left {f : Nat} {r : Bool} {d : Tensor} {ts : List Tensor} {i : Issued} (h : vopFault f r d ts = some i) :
    i.left s = s := by
  simp only [vopFault] at h
  (repeat' split at h) <;> cases h <;> rfl

end

namespace State

theorem takeSlot_left_fuses (s : State) (n : Nat) (k : OpKind) (w : Nat) (ts : List Tensor) (rs ws : List (Nat × Nat))
    (more : InFlight → InFlight) : ((s.takeSlot n k w ts rs ws more).left s).fuses = s.fuses := by
  simp only [takeSlot]
  split
  · rfl
  split <;> rfl

theorem takeSlot_go_fuses {s u : State} {n w : Nat} {k : OpKind} {ts : List Tensor} {rs ws : List (Nat × Nat)}
    {more : InFlight → InFlight} (h : s.takeSlot n k w ts rs ws more = .go u) : u.fuses = s.fuses := by
  have := takeSlot_left_fuses s n k w ts rs ws more
  rwa [h] at this

theorem issueTransfer_left_fuses (s : State) (n w : Nat) (store : Bool) : ((s.issueTransfer n w store).left s).fuses = s.fuses :=
  by
  simp only [issueTransfer]
  (repeat' split) <;> rfl

theorem sendIssued_left_fuses (u s : State) (n k w : Nat) (t : Tensor) (ue : Option Nat) (h : s.fuses = u.fuses) :
    ((s.sendIssued n k w t ue).left u).fuses = u.fuses := by
  simp only [sendIssued]
  split <;> simp [h]

theorem launch_left_fuses (s : State) (n k w : Nat) (t : Tensor) (mk : Nat → List Byte → Bool → Packet) :
    ((s.launch n k w t mk).left s).fuses = s.fuses :=
  sendIssued_left_fuses _ _ _ _ _ _ _ (by simp)

theorem sendMargin_left_fuses (s : State) (n k w : Nat) (t : Tensor) : ((s.sendMargin n k w t).left s).fuses = s.fuses :=
  sendIssued_left_fuses _ _ _ _ _ _ _ (by simp)

/-- Issuing an instruction leaves the fuses where its effect does. -/
theorem issue_left_fuses {s t : State} {n op w : Nat} {resv : Bool} {eff : State → Issued}
    (ht : s.issue n op w resv eff = .next t) (h : ((eff s).left s).fuses = s.fuses) : t.fuses = s.fuses :=
  issue_fuses s t n op w resv eff (by revert h; cases eff s <;> simp) ht

theorem testRow_fuses {s t : State} {sess : SessionId} {q : QuillId} {v : BitVec 32} {mode : Nat}
    (h : s.testRow sess q v mode = .next t) : t.fuses = s.fuses := by
  unfold testRow at h
  split at h
  · cases h; simp
  · cases h

end State

section
variable {s t : State} {n : NibId} {w : BitVec 64}
open State

theorem execNop_fuses (h : execNop n w s = .next t) : t.fuses = s.fuses := by
  unfold execNop at h
  exact issue_left_fuses h rfl

theorem execHalt_fuses (h : execHalt n w s = .next t) : t.fuses = s.fuses := by
  unfold execHalt at h
  exact issue_left_fuses h (by simp)

theorem execCt_fuses (h : execCt n w s = .next t) : t.fuses = s.fuses := by
  unfold execCt at h
  exact issue_left_fuses h rfl

theorem execCmp_fuses (h : execCmp n w s = .next t) : t.fuses = s.fuses := by
  unfold execCmp at h
  exact issue_left_fuses h rfl

theorem execKtag_fuses (h : execKtag n w s = .next t) : t.fuses = s.fuses := by
  unfold execKtag at h
  exact issue_left_fuses h (by simp)

theorem execRbase_fuses (h : execRbase n w s = .next t) : t.fuses = s.fuses := by
  unfold execRbase at h
  exact issue_left_fuses h rfl

theorem execRfetch_fuses (h : execRfetch n w s = .next t) : t.fuses = s.fuses := by
  unfold execRfetch at h
  exact issue_left_fuses h (issueTransfer_left_fuses ..)

theorem execRstore_fuses (h : execRstore n w s = .next t) : t.fuses = s.fuses := by
  unfold execRstore at h
  exact issue_left_fuses h (issueTransfer_left_fuses ..)

theorem execFence_fuses (h : execFence n w s = .next t) : t.fuses = s.fuses := by
  unfold execFence at h
  refine issue_left_fuses h ?_
  dsimp only
  split <;> simp

theorem execOverlay_fuses (h : execOverlay n w s = .next t) : t.fuses = s.fuses := by
  unfold execOverlay at h
  refine issue_left_fuses h ?_
  dsimp only
  (repeat' split) <;> simp

theorem execDload_fuses (h : execDload n w s = .next t) : t.fuses = s.fuses := by
  unfold execDload at h
  refine issue_left_fuses h ?_
  dsimp only
  (repeat' split) <;> simp

theorem execEsc_fuses (h : execEsc n w s = .next t) : t.fuses = s.fuses := by
  unfold execEsc at h
  refine issue_left_fuses h ?_
  dsimp only
  (repeat' split) <;> simp

theorem execKappend_fuses (h : execKappend n w s = .next t) : t.fuses = s.fuses := by
  unfold execKappend at h
  refine issue_left_fuses h ?_
  dsimp only
  split
  · rfl
  split
  · rfl
  · split
    · rfl
    split
    · next hu => rw [Issued.left_go, updNib_fuses, takeSlot_go_fuses hu]
    · exact takeSlot_left_fuses ..
  · rfl

theorem execKmask_fuses (h : execKmask n w s = .next t) : t.fuses = s.fuses := by
  unfold execKmask at h
  refine issue_left_fuses h ?_
  dsimp only
  split
  · rfl
  split
  · rfl
  · split
    · rfl
    · exact takeSlot_left_fuses ..
  · rfl

theorem execKcommit_fuses (h : execKcommit n w s = .next t) : t.fuses = s.fuses := by
  unfold execKcommit at h
  refine issue_left_fuses h ?_
  dsimp only
  split
  · rfl
  split
  · rfl
  split
  · rfl
  split
  · rfl
  split
  · rfl
  split
  · simp
  · rw [Issued.left_go]; split <;> simp

theorem execKerase_fuses (h : execKerase n w s = .next t) : t.fuses = s.fuses := by
  unfold execKerase at h
  refine issue_left_fuses h ?_
  dsimp only
  (repeat' split) <;> simp

theorem execLoop_fuses (h : execLoop n w s = .next t) : t.fuses = s.fuses := by
  unfold execLoop at h
  refine issue_left_fuses h ?_
  dsimp only
  (repeat' split) <;> simp

theorem execTwait_fuses (h : execTwait n w s = .next t) : t.fuses = s.fuses := by
  unfold execTwait at h
  refine issue_left_fuses h ?_
  dsimp only
  generalize (match (s.nib ↑n).issue.hold with | .tokens k _ => k | _ => _ : Nat) = left
  split
  · simp
  · rw [Issued.left_stop]; split <;> simp
  · simp

theorem execSignal_fuses (h : execSignal n w s = .next t) : t.fuses = s.fuses := by
  unfold execSignal at h
  refine issue_left_fuses h ?_
  dsimp only
  (repeat' split) <;> simp

theorem execTbind_fuses (h : execTbind n w s = .next t) : t.fuses = s.fuses := by
  unfold execTbind at h
  refine issue_left_fuses h ?_
  dsimp only
  split <;> simp

theorem execRwait_fuses (h : execRwait n w s = .next t) : t.fuses = s.fuses := by
  unfold execRwait at h
  refine issue_left_fuses h ?_
  dsimp only
  (repeat' split) <;> simp

theorem execSend_fuses (h : execSend n w s = .next t) : t.fuses = s.fuses := by
  unfold execSend at h
  refine issue_left_fuses h ?_
  dsimp only
  split
  · rfl
  · split
    · rfl
    split
    · rfl
    split
    · rfl
    split
    · rfl
    split
    · rfl
    split
    · rfl
    split
    · rfl
    split
    · rfl
    split
    · exact launch_left_fuses ..
    · exact launch_left_fuses ..
    · exact sendMargin_left_fuses ..
  · rfl

theorem execRecv_fuses (h : execRecv n w s = .next t) : t.fuses = s.fuses := by
  unfold execRecv at h
  refine issue_left_fuses h ?_
  dsimp only
  split
  · rfl
  · split
    · rfl
    split
    · rfl
    split
    · rfl
    split
    · next hu => exact (drainInbox_fuses ..).trans (takeSlot_go_fuses hu)
    · exact takeSlot_left_fuses ..
  · rfl

theorem execMma_fuses (h : execMma n w s = .next t) : t.fuses = s.fuses := by
  unfold execMma at h
  refine issue_left_fuses h ?_
  dsimp only
  split
  · rfl
  · split
    · next hf => rw [mmaFault_left s hf]
    · exact takeSlot_left_fuses ..
  · rfl

theorem execVop_fuses (h : execVop n w s = .next t) : t.fuses = s.fuses := by
  unfold execVop at h
  refine issue_left_fuses h ?_
  split
  · rfl
  · rfl
  · split
    · next hf => rw [vopFault_left s hf]
    · exact takeSlot_left_fuses ..

theorem execCvt_fuses (h : execCvt n w s = .next t) : t.fuses = s.fuses := by
  unfold execCvt at h
  refine issue_left_fuses h ?_
  dsimp only
  split
  · rfl
  · split
    · rfl
    split
    · rfl
    split
    · rfl
    · exact takeSlot_left_fuses ..
  · rfl

/-- Every row but the end of a firmware command leaves the fuses as they are. -/
theorem exec_fuses {c : Instr} (hc : ∀ ok, c ≠ .firmwareCommandComplete ok) (h : exec c s = .next t) : t.fuses = s.fuses := by
  cases c
  case nop => exact execNop_fuses h
  case fence => exact execFence_fuses h
  case halt => exact execHalt_fuses h
  case overlay => exact execOverlay_fuses h
  case dload => exact execDload_fuses h
  case esc => exact execEsc_fuses h
  case kappend => exact execKappend_fuses h
  case kmask => exact execKmask_fuses h
  case kcommit => exact execKcommit_fuses h
  case kerase => exact execKerase_fuses h
  case loop => exact execLoop_fuses h
  case ct => exact execCt_fuses h
  case cmp => exact execCmp_fuses h
  case twait => exact execTwait_fuses h
  case signal => exact execSignal_fuses h
  case tbind => exact execTbind_fuses h
  case ktag => exact execKtag_fuses h
  case rbase => exact execRbase_fuses h
  case rfetch => exact execRfetch_fuses h
  case rstore => exact execRstore_fuses h
  case rwait => exact execRwait_fuses h
  case send => exact execSend_fuses h
  case recv => exact execRecv_fuses h
  case mma => exact execMma_fuses h
  case vop => exact execVop_fuses h
  case cvt => exact execCvt_fuses h
  case linkTestOff => exact testRow_fuses h
  case linkTestLane => exact testRow_fuses h
  case linkTestFramed => exact testRow_fuses h
  case firmwareCommandComplete ok => exact absurd rfl (hc ok)
  case perBankRefresh =>
    refine (congrArg State.fuses (Host.Outcome.next.inj h)).symm.trans ?_
    split
    · exact (updChannel_fuses ..).trans (foldl_fuses _ deskError_fuses _ _)
    · rfl
  case placePut => exact Host.Outcome.next.inj h ▸ placeEntry_fuses _ _ _ put_fuses
  case placeGet => exact Host.Outcome.next.inj h ▸ placeEntry_fuses _ _ _ get_fuses
  case placeFill => exact Host.Outcome.next.inj h ▸ placeEntry_fuses _ _ _ fill_fuses
  case placeStartNib => exact Host.Outcome.next.inj h ▸ placeEntry_fuses _ _ _ start_fuses
  case placeNop => exact Host.Outcome.next.inj h ▸ placeEntry_fuses _ _ _ fun s k _ _ => placeDone_fuses s k
  case lapClose =>
    refine (congrArg State.fuses (Host.Outcome.next.inj h)).symm.trans ?_
    split
    · exact inSession_fuses _ _ _ fun _ _ => by simp
    · rfl
  case lapKeepalive =>
    refine (congrArg State.fuses (Host.Outcome.next.inj h)).symm.trans ?_
    split
    · exact inSession_fuses _ _ _ fun _ _ => by simp
    · rfl
  case eventRepeat => exact Host.Outcome.next.inj h ▸ foldl_fuses _ repeatEvents_fuses _ _
  case rdu => exact Host.Outcome.next.inj h ▸ serveTxl_fuses _ _ _ _ rdu_fuses
  case rds => exact Host.Outcome.next.inj h ▸ serveTxl_fuses _ _ _ _ readCached_fuses
  case rdx => exact Host.Outcome.next.inj h ▸ serveTxl_fuses _ _ _ _ readCached_fuses
  case wr => exact Host.Outcome.next.inj h ▸ serveTxl_fuses _ _ _ _ wr_fuses
  case wb => exact Host.Outcome.next.inj h ▸ serveTxl_fuses _ _ _ _ wb_fuses
  case cln => exact Host.Outcome.next.inj h ▸ serveTxl_fuses _ _ _ _ cln_fuses
  case birsp => exact Host.Outcome.next.inj h ▸ serveTxl_fuses _ _ _ _ birsp_fuses
  all_goals
    refine (congrArg State.fuses (Host.Outcome.next.inj h)).symm.trans ?_
    (repeat' split) <;> simp
end

namespace Fuses

theorem keeps_refl (f : Fuses) : f.keeps f := ⟨rfl, rfl, rfl, rfl, rfl, rfl, rfl, rfl, Nat.le_refl _, fun _ h => h⟩

theorem keeps_trans {f g h : Fuses} (hfg : f.keeps g) (hgh : g.keeps h) : f.keeps h := by
  obtain ⟨h1, h2, h3, h4, h5, h6, h7, h8, hfloor, hrevoked⟩ := hfg
  obtain ⟨g1, g2, g3, g4, g5, g6, g7, g8, gfloor, grevoked⟩ := hgh
  exact ⟨g1.trans h1, g2.trans h2, g3.trans h3, g4.trans h4, g5.trans h5, g6.trans h6, g7.trans h7, g8.trans h8,
    Nat.le_trans hfloor gfloor, fun k hk => grevoked k (hrevoked k hk)⟩

theorem keeps_of_eq {f g : Fuses} (h : g = f) : f.keeps g := h ▸ keeps_refl f

/-- A floor that is raised keeps the fuses. -/
theorem keeps_raise (f : Fuses) (v : Nat) : f.keeps { f with floor := max f.floor v } :=
  ⟨rfl, rfl, rfl, rfl, rfl, rfl, rfl, rfl, Nat.le_max_left .., fun _ h => h⟩

/-- A key revoked besides keeps the fuses. -/
theorem keeps_revoke (f : Fuses) (k : Nat) :
    f.keeps { f with revoked := if f.revoked.contains k then f.revoked else f.revoked ++ [k] } := by
  refine ⟨rfl, rfl, rfl, rfl, rfl, rfl, rfl, rfl, Nat.le_refl _, fun j hj => ?_⟩
  dsimp only
  split
  · exact hj
  · exact List.mem_append_left _ hj

end Fuses

/-- A firmware command raises the floor, revokes a key, or leaves the fuses as they are. -/
theorem State.fwRun_keeps (s : State) (cmd arg : Nat) (ok : Bool) : s.fuses.keeps (s.fwRun cmd arg ok).1.fuses := by
  unfold State.fwRun
  split
  · split <;> exact Fuses.keeps_refl _
  · exact Fuses.keeps_raise ..
  · dsimp only
    split
    · exact Fuses.keeps_refl _
    split <;> exact Fuses.keeps_refl _
  · exact Fuses.keeps_revoke ..

theorem State.fwEnd_keeps (s : State) (ok : Bool) : s.fuses.keeps (s.fwEnd ok).fuses := by
  unfold State.fwEnd
  split
  · exact Fuses.keeps_refl _
  · exact State.fwRun_keeps ..

/-- Every row keeps the fuses. -/
theorem exec_keeps {c : Instr} {s t : State} (h : exec c s = .next t) : s.fuses.keeps t.fuses := by
  by_cases hc : ∀ ok, c ≠ .firmwareCommandComplete ok
  · exact Fuses.keeps_of_eq (exec_fuses hc h)
  · obtain ⟨ok, hok⟩ := Classical.not_forall.1 hc
    obtain rfl := Classical.not_not.1 hok
    exact Host.Outcome.next.inj h ▸ State.fwEnd_keeps s ok

/-- Settles O60: the fuses pass through every row as they are, but for the firmware commands that raise the floor or revoke a key. -/
theorem stepKeepsFuses : Obligations.StepKeepsFuses := by
  intro f s t hf h
  unfold step at h
  split at h
  · have he : s = t := Host.Outcome.next.inj h
    rwa [← he]
  · have hk := exec_keeps h
    exact Fuses.keeps_trans hf hk

end Sys2Proof.Machine
end

section
/-! Proof of the statements on the queue and on the rows of stroke-program instructions (04 R100-R102, 02 R50). -/

namespace Sys2Proof.Machine

/-- Settles O1: `step` matches on the queue. -/
theorem stepRunsFrontCommand : Obligations.StepRunsFrontCommand :=
  ⟨fun c cs s h => by rw [step, h], fun s h => by rw [step, h]⟩

/-! ### The rows -/

/-- A row offers its word to the issue unit under its own opcode, which is one of the opcodes, and checks at least what its layout
asks; only a loop checks more. -/
def InstructionRow.offers (r : InstructionRow) : Prop :=
  opcodes.contains r.op = true ∧ ∀ (n : NibId) (w : BitVec 64) (s : State), ∃ resv eff,
    exec (r.make n w) s = s.issue n r.op w.toNat resv eff ∧ (r.layout w.toNat = false → resv = false) ∧
      (r.op ≠ 0x08 → r.layout w.toNat = true → resv = true)

/-- A row that checks just its layout. -/
theorem InstructionRow.offers_of_layout {r : InstructionRow} (ho : opcodes.contains r.op = true)
    (h : ∀ (n : NibId) (w : BitVec 64) (s : State), ∃ eff, exec (r.make n w) s = s.issue n r.op w.toNat (r.layout w.toNat) eff) :
    r.offers :=
  ⟨ho, fun n w s => let ⟨eff, he⟩ := h n w s; ⟨_, eff, he, id, fun _ => id⟩⟩

/-- A loop checks besides its layout that its body ends beyond it. -/
theorem execLoop_offers (n : NibId) (w : BitVec 64) (s : State) : ∃ eff, exec (.loop n w) s = s.issue n 0x08 w.toNat
    (field w.toNat 21 0 = 0 && (!bit w.toNat 41 || field w.toNat 40 28 = 0) && wordPred w.toNat = 0 &&
      (s.nib n).issue.addr < field w.toNat 53 42) eff := by
  simp only [exec_loop, execLoop]
  exact ⟨_, rfl⟩

/-- Each row offers its word to the issue unit. -/
theorem instructionRows_offers : ∀ r ∈ instructionRows, r.offers := by
  simp only [instructionRows, List.forall_mem_cons, List.not_mem_nil, false_imp_iff, implies_true, and_true]
  refine ⟨?_, ?_, ?_, ?_, ?_, ?_, ⟨rfl, fun n w s => let ⟨eff, he⟩ := execLoop_offers n w s; ⟨_, eff, he, fun h => ?_, fun h => absurd rfl h⟩⟩, ?_, ?_, ?_, ?_, ?_, ?_, ?_, ?_,
    ?_, ?_, ?_, ?_, ?_, ?_, ?_, ?_, ?_, ?_, ?_⟩
  case refine_7 => exact Bool.and_eq_false_imp.2 fun hl => absurd (hl.symm.trans h) (by decide)
  all_goals
    refine InstructionRow.offers_of_layout rfl fun n w s => ?_
    simp only [exec_nop, execNop, exec_fence, execFence, exec_halt, execHalt, exec_overlay, execOverlay, exec_dload,
      execDload, exec_esc, execEsc, exec_ct, execCt, exec_cmp, execCmp, exec_twait, execTwait, exec_signal, execSignal,
      exec_tbind, execTbind, exec_mma, execMma, exec_vop, execVop, exec_cvt, execCvt, exec_send, execSend, exec_recv,
      execRecv, exec_rbase, execRbase, exec_rfetch, execRfetch, exec_rstore, execRstore, exec_rwait, execRwait, exec_kappend,
      execKappend, exec_kcommit, execKcommit, exec_kerase, execKerase, exec_kmask, execKmask, exec_ktag, execKtag]
    exact ⟨_, rfl⟩

/-- Settles O2: what the issue unit does with a word of another row and with a reserved one. -/
theorem wordsOfEachRow : Obligations.WordsOfEachRow := by
  intro r hr n w s
  obtain ⟨hop, hoffers⟩ := instructionRows_offers r hr
  obtain ⟨resv, eff, he, hlayout, -⟩ := hoffers n w s
  rw [he]
  refine ⟨fun hne hc => s.issue_illFormed _ _ _ _ _ hne hc, fun hi hc => ?_, fun hi ho hb => ?_⟩
  · have hne : wordOp w.toNat ≠ r.op := fun h => by rw [h, hop] at hc; cases hc
    exact s.issue_encoding _ _ _ _ _ hi (fun h => by rw [hc] at h; cases h.2) (.inl hne)
  · exact s.issue_encoding _ _ _ _ _ hi (fun h => h.1 ho) (.inr (hb.imp_right hlayout))

/-- Settles O3: what the issue unit does with a false predicate. -/
theorem falsePredicateSkips : Obligations.FalsePredicateSkips := by
  intro r hr hloop n w s hi ho hlayout hp hf
  obtain ⟨-, hoffers⟩ := instructionRows_offers r hr
  obtain ⟨resv, eff, he, -, hresv⟩ := hoffers n w s
  rw [he]
  exact s.issue_skip _ _ _ _ _ hi ho (hresv hloop hlayout) hp hf

/-! ### Where issue moves -/

namespace State

/-- A change of a nib changes nothing besides the nibs. -/
theorem updNib_only_nibs {s t : State} (n : Nat) (f : Nib → Nib) (h : { t with nibs := s.nibs } = s) :
    { t.updNib n f with nibs := s.nibs } = s := h

/-- A change of a nib leaves every other nib alone. -/
theorem nib_updNib_other (s : State) {n m : Nat} (f : Nib → Nib) (h : m ≠ n) : (s.updNib n f).nib m = s.nib m :=
  nib_setNib_other _ _ _ _ h

/-- Issue that moves within the store changes the issue address and ends the wait. -/
theorem moveIssue_of_lt (s : State) (n : Nat) {a : Nat} (h : a < 4096) :
    s.moveIssue n a = s.updNib n fun x => { x with issue := { x.issue with addr := a, hold := .none } } :=
  if_neg (Nat.not_le.2 h)

/-- The loop unit reads of the nib the comparators and the counters alone. -/
theorem loopNext_congr {x y : Nib} (hc : x.cmps = y.cmps) (hn : x.counters = y.counters) (a t : Nat) (ls : List LoopLevel) :
    loopNext x a t ls = loopNext y a t ls := by
  have hout : x.cmpOut = y.cmpOut := by funext i; simp only [Nib.cmpOut, Nib.ct, hc, hn]
  induction ls with
  | nil => rfl
  | cons l ls ih => simp only [loopNext, hout, ih]

/-- Noting progress leaves the loop unit's decision. -/
theorem loopNext_progress {s : State} {n u : Nat} {r : List LoopLevel × Nat}
    (h : loopNext (s.nib n) (s.nib n).issue.addr ((s.nib n).issue.addr + 1) (s.nib n).issue.loops = r) :
    loopNext ((s.progress n u).nib n) ((s.progress n u).nib n).issue.addr (((s.progress n u).nib n).issue.addr + 1)
      ((s.progress n u).nib n).issue.loops = r := by
  rw [← h, progress, nib_updNib]
  exact loopNext_congr (by rfl) (by rfl) _ _ _

/-- What an instruction leaves of its nib where the loop unit's next address is in the store. -/
theorem nib_issued (s : State) (n : Nat) {ls : List LoopLevel} {a : Nat}
    (h : loopNext (s.nib n) (s.nib n).issue.addr ((s.nib n).issue.addr + 1) (s.nib n).issue.loops = (ls, a)) (ha : a < 4096) :
    (s.issued n).nib n = { s.nib n with
      issue := { (s.nib n).issue with loops := ls, addr := a, hold := .none }
      progress := SMap.upd 0 (s.nib n).progress 0 fun c => (c + 1) % 2 ^ 32
      progressAt := SMap.set 0 (s.nib n).progressAt 0 s.now } := by
  have h' := loopNext_progress (u := 0) h
  rw [issued, advance]
  dsimp only
  rw [h', moveIssue_of_lt _ _ ha, nib_updNib, nib_updNib, progress, nib_updNib]

/-- Where issue moves within the store, all that an instruction leaves is its nib's. -/
theorem issued_nibs (s : State) (n : Nat) {ls : List LoopLevel} {a : Nat}
    (h : loopNext (s.nib n) (s.nib n).issue.addr ((s.nib n).issue.addr + 1) (s.nib n).issue.loops = (ls, a)) (ha : a < 4096) :
    { s.issued n with nibs := s.nibs } = s ∧ ∀ m, m ≠ n → (s.issued n).nib m = s.nib m := by
  have h' := loopNext_progress (u := 0) h
  rw [issued, advance]
  dsimp only
  rw [h', moveIssue_of_lt _ _ ha]
  refine ⟨updNib_only_nibs _ _ (updNib_only_nibs _ _ (updNib_only_nibs _ _ rfl)), fun m hm => ?_⟩
  rw [nib_updNib_other _ _ hm, nib_updNib_other _ _ hm, progress, nib_updNib_other _ _ hm]

end State

/-- Settles O4: where no body ends, the loop unit gives the next address and keeps the levels. -/
theorem issueMovesToNextAddress : Obligations.IssueMovesToNextAddress := by
  rintro s n ⟨ha, hl⟩
  have hnext := loopNext_plain (s.nib n) (s.nib n).issue.addr ((s.nib n).issue.addr + 1) (s.nib n).issue.loops hl
  have hlt : (s.nib n).issue.addr + 1 < 4096 := by omega
  exact ⟨s.nib_issued n hnext hlt, s.issued_nibs n hnext hlt⟩

/-! ### Counters and base registers -/

/-- Settles O11: a counter is one key of the nib's counters. -/
theorem counterWritten : Obligations.CounterWritten :=
  fun _ _ _ => ⟨SMap.get_set_same .., rfl, fun _ h => SMap.get_set_other _ _ _ _ _ h⟩

end Sys2Proof.Machine
end

section
/-! SUPPORT. What the shared operations leave as it is: an event, a change of the binding, an abort, a blot and a fault of a nib (12 R378,
R377; 13 R387, R391; 04 R146). -/

namespace Sys2Proof.Machine.State

variable (s : State)

/-! ### Events -/

/-- What comes with an event: the agent's, the TXL link's and the free choices' state, and nothing else. -/
def toldAs (s t : State) : Prop := ∃ a x f, t = { s with agent := a, txl := x, fresh := f }

theorem toldAs_refl : s.toldAs s := ⟨s.agent, s.txl, s.fresh, rfl⟩

theorem toldAs.trans {s t u : State} (h : s.toldAs t) (h' : t.toldAs u) : s.toldAs u := by
  obtain ⟨a, x, f, rfl⟩ := h
  obtain ⟨a', x', f', rfl⟩ := h'
  exact ⟨a', x', f', rfl⟩

theorem placeEvt_toldAs : s.toldAs s.placeEvt := by
  unfold placeEvt
  split
  · exact ⟨_, _, _, rfl⟩
  · exact s.toldAs_refl

theorem lapEvent_toldAs (x : Session) (rs : List EventRec) (n : Nat) : s.toldAs (s.lapEvent x rs n) := by
  unfold lapEvent
  split
  · exact ⟨_, _, _, rfl⟩
  · refine toldAs.trans ?_ (placeEvt_toldAs _)
    exact ⟨_, _, _, rfl⟩

theorem foldl_toldAs {α : Type} (f : State → α → State) (hf : ∀ (s : State) a, s.toldAs (f s a)) (l : List α) : s.toldAs (l.foldl f s) := by
  induction l generalizing s with
  | nil => exact s.toldAs_refl
  | cons a l ih => exact (hf s a).trans (ih _)

/-- An event is told, and changes nothing else. -/
theorem event_toldAs (c p d : Nat) : s.toldAs (s.event c p d) := by
  simp only [event]
  split
  · exact ⟨_, _, _, rfl⟩
  · refine toldAs.trans ?_ (foldl_toldAs _ _ (fun _ _ => lapEvent_toldAs ..) _)
    exact ⟨_, _, _, rfl⟩

@[simp] theorem event_pending (c p d : Nat) : (s.event c p d).pending = s.pending := by obtain ⟨_, _, _, h⟩ := s.event_toldAs c p d; rw [h]
@[simp] theorem event_nibs (c p d : Nat) : (s.event c p d).nibs = s.nibs := by obtain ⟨_, _, _, h⟩ := s.event_toldAs c p d; rw [h]
@[simp] theorem event_mesh (c p d : Nat) : (s.event c p d).mesh = s.mesh := by obtain ⟨_, _, _, h⟩ := s.event_toldAs c p d; rw [h]
@[simp] theorem event_desk (c p d : Nat) : (s.event c p d).desk = s.desk := by obtain ⟨_, _, _, h⟩ := s.event_toldAs c p d; rw [h]
@[simp] theorem event_time (c p d : Nat) : (s.event c p d).time = s.time := by obtain ⟨_, _, _, h⟩ := s.event_toldAs c p d; rw [h]
@[simp] theorem event_lines (c p d : Nat) : (s.event c p d).lines = s.lines := by obtain ⟨_, _, _, h⟩ := s.event_toldAs c p d; rw [h]
@[simp] theorem event_quires (c p d : Nat) : (s.event c p d).quires = s.quires := by obtain ⟨_, _, _, h⟩ := s.event_toldAs c p d; rw [h]
@[simp] theorem event_quills (c p d : Nat) : (s.event c p d).quills = s.quills := by obtain ⟨_, _, _, h⟩ := s.event_toldAs c p d; rw [h]
@[simp] theorem event_binding (c p d : Nat) : (s.event c p d).binding = s.binding := by obtain ⟨_, _, _, h⟩ := s.event_toldAs c p d; rw [h]
@[simp] theorem event_place (c p d : Nat) : (s.event c p d).place = s.place := by obtain ⟨_, _, _, h⟩ := s.event_toldAs c p d; rw [h]
@[simp] theorem event_recovery (c p d : Nat) : (s.event c p d).recovery = s.recovery := by obtain ⟨_, _, _, h⟩ := s.event_toldAs c p d; rw [h]
@[simp] theorem event_flash (c p d : Nat) : (s.event c p d).flash = s.flash := by obtain ⟨_, _, _, h⟩ := s.event_toldAs c p d; rw [h]
@[simp] theorem event_boot (c p d : Nat) : (s.event c p d).boot = s.boot := by obtain ⟨_, _, _, h⟩ := s.event_toldAs c p d; rw [h]
@[simp] theorem event_pins (c p d : Nat) : (s.event c p d).pins = s.pins := by obtain ⟨_, _, _, h⟩ := s.event_toldAs c p d; rw [h]
@[simp] theorem event_margin (c p d : Nat) : (s.event c p d).margin = s.margin := by obtain ⟨_, _, _, h⟩ := s.event_toldAs c p d; rw [h]
@[simp] theorem event_mgmt (c p d : Nat) : (s.event c p d).mgmt = s.mgmt := by obtain ⟨_, _, _, h⟩ := s.event_toldAs c p d; rw [h]
@[simp] theorem event_smbus (c p d : Nat) : (s.event c p d).smbus = s.smbus := by obtain ⟨_, _, _, h⟩ := s.event_toldAs c p d; rw [h]
@[simp] theorem event_tap (c p d : Nat) : (s.event c p d).tap = s.tap := by obtain ⟨_, _, _, h⟩ := s.event_toldAs c p d; rw [h]
@[simp] theorem event_objs (c p d : Nat) : (s.event c p d).objs = s.objs := by obtain ⟨_, _, _, h⟩ := s.event_toldAs c p d; rw [h]
@[simp] theorem event_blobs (c p d : Nat) : (s.event c p d).blobs = s.blobs := by obtain ⟨_, _, _, h⟩ := s.event_toldAs c p d; rw [h]
@[simp] theorem event_nib (c p d k : Nat) : (s.event c p d).nib k = s.nib k := by rw [nib, event_nibs, nib]
@[simp] theorem event_quill (c p d k : Nat) : (s.event c p d).quill k = s.quill k := by rw [quill, event_quills, quill]
@[simp] theorem event_obj (c p d i u : Nat) : (s.event c p d).obj i u = s.obj i u := by rw [obj, event_objs, obj]
@[simp] theorem event_now (c p d : Nat) : (s.event c p d).now = s.now := by obtain ⟨_, _, _, h⟩ := s.event_toldAs c p d; rw [h]; rfl

/-! ### Changes of one kind -/

/-- What each step of a fold leaves, the fold leaves. -/
theorem foldl_same {α β : Type} (g : State → β) (f : State → α → State) (hf : ∀ s a, g (f s a) = g s) (l : List α) (s : State) :
    g (l.foldl f s) = g s := by
  induction l generalizing s with
  | nil => rfl
  | cons a l ih => exact (ih _).trans (hf s a)

/-- A relayed blot leaves whatever does not read the quills. -/
theorem relayBlot_same {β : Type} (g : State → β) (hg : ∀ (s : State) q f, g (s.updQuill q f) = g s) (i : Nat) (k : Option Nat) :
    g (s.relayBlot i k) = g s := by
  refine foldl_same g _ (fun s q => ?_) _ _
  split
  · exact hg ..
  · rfl

/-- A change of the binding's function state sets it, and tells the change. -/
theorem setBinding_binding (f : FnState) : (s.setBinding f).binding = { s.binding with fn := f } := by
  simp only [setBinding]
  split
  · rfl
  · exact event_binding ..

/-- A change of the binding's function state leaves whatever reads neither the binding nor what an event changes. -/
theorem setBinding_same {β : Type} (g : State → β) (hg : ∀ (s : State) b a x f, g { s with binding := b, agent := a, txl := x, fresh := f } = g s)
    (f : FnState) : g (s.setBinding f) = g s := by
  simp only [setBinding]
  split
  · exact hg s _ s.agent s.txl s.fresh
  · obtain ⟨a, x, r, h⟩ := event_toldAs ({ s with binding := { s.binding with fn := f } }) 0x08 0x2A10 f.byte
    rw [h]
    exact hg s _ a x r

/-- Stopping the sends leaves whatever reads neither the nibs, the mesh nor the free choices. -/
theorem stopSends_same {β : Type} (g : State → β) (hg : ∀ (s : State) ns m f, g { s with nibs := ns, mesh := m, fresh := f } = g s) :
    g s.stopSends = g s := by
  have hstop (s : State) (n : Nat) (o : InFlight) (k : Nat) : g (s.stopSend n o k) = g s := by
    unfold stopSend
    split
    · rfl
    · exact hg s _ _ s.fresh
  refine foldl_same g _ (fun s x => ?_) _ _
  dsimp only
  split
  · exact hstop ..
  · exact (hstop ..).trans (hg s s.nibs s.mesh _)

/-! ### The abort -/

/-- An event that may not happen leaves whatever does not read what an event changes. -/
theorem eventIf_same {β : Type} (g : State → β) (hg : ∀ (s : State) a x f, g { s with agent := a, txl := x, fresh := f } = g s) (p : Bool)
    (c i d : Nat) : g (if p then s.event c i d else s) = g s := by
  cases p
  · rfl
  · obtain ⟨a, x, f, h⟩ := s.event_toldAs c i d
    exact (congrArg g h).trans (hg ..)

/-- The first part of an abort, which closes the binding: what `beginAbort` does before the sends stop. -/
def abortBegun (s : State) (reason origin bseq : Nat) : State :=
  let wasOpening : Bool := s.binding.fn.code = .opening
  let t := ({ s with recovery := { s.recovery with abort := some ⟨s.now, reason, origin, bseq⟩ } } : State).bump 0x80A1 0 1
  let t := t.setBinding { code := .closing, pending := false, failed := s.binding.fn.failed || wasOpening }
  let t := if wasOpening then t.event 0x09 0x2A10 0 else t
  { t with binding := { t.binding with openLine := none, drainAt := none } }

/-- The rest of an abort, once the sends have stopped. -/
def abortRest (s : State) : State :=
  let t := s.mapNibs abortNib
  let t : State := { t with recovery := { t.recovery with ended := true } }
  let t : State := { t with desk := { t.desk with
    entries := freeHeld t.desk.entries
    preempt := if t.desk.preempt.status = 1 then { t.desk.preempt with status := 3 } else t.desk.preempt } }
  t.vacate.stopMirror

theorem beginAbort_eq (r o b : Nat) : s.beginAbort r o b = (s.abortBegun r o b).stopSends.abortRest := rfl

theorem abortBegun_recovery (r o b : Nat) : (s.abortBegun r o b).recovery = { s.recovery with abort := some ⟨s.now, r, o, b⟩ } :=
  (eventIf_same _ State.recovery (fun _ _ _ _ => rfl) _ _ _ _).trans (setBinding_same _ State.recovery (fun _ _ _ _ _ => rfl) _)

theorem abortBegun_binding (r o b : Nat) : (s.abortBegun r o b).binding = { s.binding with
    fn := { code := .closing, pending := false, failed := s.binding.fn.failed || decide (s.binding.fn.code = .opening) }
    openLine := none
    drainAt := none } := by
  have h : ∀ (t : State) (p : Bool) (c i d : Nat), (if p then t.event c i d else t).binding = t.binding :=
    fun t p c i d => t.eventIf_same State.binding (fun _ _ _ _ => rfl) p c i d
  simp only [abortBegun, h, setBinding_binding, bump_binding]

/-- The first part of an abort leaves whatever reads none of what it changes. -/
theorem abortBegun_same {β : Type} (g : State → β) (hg : ∀ (s : State) b a x f r os, g { s with
    binding := b, agent := a, txl := x, fresh := f, recovery := r, objs := os } = g s) (r o b : Nat) : g (s.abortBegun r o b) = g s := by
  have hevent (t : State) (p : Bool) (c i d : Nat) : g (if p then t.event c i d else t) = g t :=
    t.eventIf_same g (fun t a x f => hg t t.binding a x f t.recovery t.objs) p c i d
  have hset (t : State) (f : FnState) : g (t.setBinding f) = g t :=
    t.setBinding_same g (fun t b a x f => hg t b a x f t.recovery t.objs) f
  have hbinding (t : State) (b : Binding) : g { t with binding := b } = g t := hg t b t.agent t.txl t.fresh t.recovery t.objs
  exact (hbinding _ _).trans ((hevent ..).trans ((hset ..).trans (hg s s.binding s.agent s.txl s.fresh _ _)))

/-- The abort begins: t_b, reason, origin and BSEQ are noted, and nothing else of the recovery unit changes but `ended`. -/
theorem beginAbort_recovery (r o b : Nat) :
    (s.beginAbort r o b).recovery = { s.recovery with abort := some ⟨s.now, r, o, b⟩, ended := true } := by
  have h : (s.abortBegun r o b).stopSends.recovery = { s.recovery with abort := some ⟨s.now, r, o, b⟩ } :=
    (stopSends_same _ State.recovery fun _ _ _ _ => rfl).trans (s.abortBegun_recovery r o b)
  exact (congrArg (fun x : Recovery => { x with ended := true }) h : _)

/-- An abort closes the binding. -/
theorem beginAbort_binding (r o b : Nat) : (s.beginAbort r o b).binding = { s.binding with
    fn := { code := .closing, pending := false, failed := s.binding.fn.failed || decide (s.binding.fn.code = .opening) }
    openLine := none
    drainAt := none } :=
  (stopSends_same _ State.binding fun _ _ _ _ => rfl).trans (s.abortBegun_binding r o b)

theorem abortNib_fresh : abortNib Nib.fresh = Nib.fresh := rfl

/-- The abort stops what issues. -/
theorem abortNib_run_ne (x : Nib) : (abortNib x).issue.run ≠ .running := by
  simp only [abortNib]
  split
  · decide
  next h =>
    intro hr
    simp [hr] at h

theorem nib_stopMirror (n : Nat) : s.stopMirror.nib n = { s.nib n with mirror := { (s.nib n).mirror with queue := [] } } :=
  SMap.get_mapVals _ _ _ _ rfl

/-- What a change of one nib leaves alone at that nib it leaves alone at every nib. -/
theorem nib_updNib_same {β : Type} (g : Nib → β) {n : Nat} {f : Nib → Nib} (hf : g (f (s.nib n)) = g (s.nib n)) (m : Nat) :
    g ((s.updNib n f).nib m) = g (s.nib m) := by
  by_cases h : m = n
  · subst h
    rw [nib_updNib, hf]
  · rw [nib_updNib_other _ _ h]

/-- Stopping the sends changes of the nibs the operations in flight alone. -/
theorem nib_stopSends_same {β : Type} (g : Nib → β) (hg : ∀ (x : Nib) os, g { x with slots := os } = g x) (n : Nat) :
    g (s.stopSends.nib n) = g (s.nib n) := by
  have hstop (s : State) (k : Nat) (o : InFlight) (j : Nat) : g ((s.stopSend k o j).nib n) = g (s.nib n) := by
    unfold stopSend
    split
    · rfl
    · exact nib_updNib_same _ g (hg ..) n
  refine foldl_same (fun t => g (t.nib n)) _ (fun s x => ?_) _ _
  dsimp only
  split
  · exact hstop ..
  · exact hstop s.took ..

/-- A nib as the rest of an abort leaves it: aborted, and with nothing to mirror. -/
theorem nib_abortRest (n : Nat) :
    s.abortRest.nib n = { abortNib (s.nib n) with mirror := { (abortNib (s.nib n)).mirror with queue := [] } } := by
  rw [abortRest]
  dsimp only
  rw [nib_stopMirror]
  exact congrArg (fun x : Nib => { x with mirror := { x.mirror with queue := [] } }) (nib_mapNibs _ _ _ abortNib_fresh)

/-- After the abort no nib issues. -/
theorem beginAbort_run_ne (r o b n : Nat) : ((s.beginAbort r o b).nib n).issue.run ≠ .running := by
  rw [beginAbort_eq, nib_abortRest]
  exact abortNib_run_ne _

/-- An abort leaves of each nib whatever reads neither its issue, its operations, its local input, its transfers nor its mirror. -/
theorem beginAbort_nib_same {β : Type} (g : Nib → β)
    (hg : ∀ (x : Nib) i os ws q m, g { x with issue := i, slots := os, inbox := ws, resq := q, mirror := m } = g x) (r o b n : Nat) :
    g ((s.beginAbort r o b).nib n) = g (s.nib n) := by
  have hnib : (s.abortBegun r o b).nib n = s.nib n := abortBegun_same s (fun t => t.nib n) (fun _ _ _ _ _ _ _ => rfl) r o b
  rw [beginAbort_eq, nib_abortRest]
  refine (hg ((s.abortBegun r o b).stopSends.nib n) ..).trans ?_
  rw [nib_stopSends_same _ g (fun x os => hg x x.issue os x.inbox x.resq x.mirror), hnib]

/-- The rest of an abort leaves whatever reads none of what it changes. -/
theorem abortRest_same {β : Type} (g : State → β) (hg : ∀ (s : State) ns qs r d, g { s with
    nibs := ns, quills := qs, recovery := r, desk := d } = g s) : g s.abortRest = g s :=
  (hg s s.abortRest.nibs s.abortRest.quills s.abortRest.recovery s.abortRest.desk : _)

/-- An abort leaves whatever reads none of what it changes. -/
theorem beginAbort_same {β : Type} (g : State → β) (hg : ∀ (s : State) ns m f qs b a x r d os, g { s with
    nibs := ns, mesh := m, fresh := f, quills := qs, binding := b, agent := a, txl := x, recovery := r, desk := d, objs := os } = g s)
    (r o b : Nat) : g (s.beginAbort r o b) = g s := by
  rw [beginAbort_eq, abortRest_same _ g fun t ns qs r d => hg t ns t.mesh t.fresh qs t.binding t.agent t.txl r d t.objs,
    stopSends_same _ g fun t ns m f => hg t ns m f t.quills t.binding t.agent t.txl t.recovery t.desk t.objs,
    abortBegun_same _ g fun t b a x f r os => hg t t.nibs t.mesh f t.quills b a x r t.desk os]

/-- Of the objects an abort counts at 0x80A1. -/
theorem beginAbort_objs (r o b : Nat) : (s.beginAbort r o b).objs = (s.bump 0x80A1 0 1).objs := by
  rw [beginAbort_eq, abortRest_same _ State.objs fun _ _ _ _ _ => rfl, stopSends_same _ State.objs fun _ _ _ _ => rfl]
  exact (eventIf_same _ State.objs (fun _ _ _ _ => rfl) _ _ _ _).trans (setBinding_same _ State.objs (fun _ _ _ _ _ => rfl) _)

/-! ### A blot -/

theorem blot_eq_self {r : Nat} (h : s.mayBlot = false) : s.blot r = s := by
  rw [blot, h]
  rfl

/-- A blot up to its abort: it is counted, takes the next BSEQ, is noted, relayed and told, and pulses BLOT_OUT_N unless the pin gave it. -/
def blotTold (s : State) (reason : Nat) : State :=
  let bseq := (s.recovery.bseq + 1) % 256
  let item := blotItem s.jobTag s.chip reason bseq s.now
  let t := s.bump 0x80A0 0 1
  let keys := t.recovery.keys ++ [⟨t.jobTag, t.chip, bseq, t.now⟩]
  let t : State := { t with recovery := { t.recovery with bseq := bseq, keys := keys.drop (keys.length - 64) } }
  let t := t.relayBlot item none
  let t := if reason = 8 then t else { t with pins := { t.pins with blotOutUntil := t.now + 1000 } }
  t.event 0x0A reason item

/-- The told part of a blot leaves whatever reads none of what it changes. -/
theorem blotTold_same {β : Type} (g : State → β) (hg : ∀ (s : State) qs a x f r p os, g { s with
    quills := qs, agent := a, txl := x, fresh := f, recovery := r, pins := p, objs := os } = g s) (reason : Nat) :
    g (s.blotTold reason) = g s := by
  have hevent (t : State) (c i d : Nat) : g (t.event c i d) = g t :=
    t.eventIf_same g (fun t a x f => hg t t.quills a x f t.recovery t.pins t.objs) true c i d
  have hrelay (t : State) (i : Nat) : g (t.relayBlot i none) = g t :=
    t.relayBlot_same g (fun t q f => hg t _ t.agent t.txl t.fresh t.recovery t.pins t.objs) i none
  have hpins (t : State) (p : Pins) : g { t with pins := p } = g t := hg t t.quills t.agent t.txl t.fresh t.recovery p t.objs
  have hrecovery (t : State) (r : Recovery) : g { t with recovery := r } = g t := hg t t.quills t.agent t.txl t.fresh r t.pins t.objs
  have hbump (t : State) (i u k : Nat) : g (t.bump i u k) = g t := hg t t.quills t.agent t.txl t.fresh t.recovery t.pins _
  have hpulse (p : Prop) [Decidable p] (t : State) (x : Pins) : g (if p then t else { t with pins := x }) = g t := by
    split
    · rfl
    · exact hpins t x
  rw [blotTold]
  dsimp only
  rw [hevent, hpulse, hrelay, hrecovery, hbump]

/-- Of the objects a blot counts at 0x80A0 before its abort. -/
theorem blotTold_objs (r : Nat) : (s.blotTold r).objs = (s.bump 0x80A0 0 1).objs := by
  have hrelay (t : State) (i : Nat) : (t.relayBlot i none).objs = t.objs := t.relayBlot_same State.objs (fun _ _ _ => rfl) i none
  have hpulse (p : Prop) [Decidable p] (t : State) (x : Pins) : (if p then t else { t with pins := x }).objs = t.objs := by
    split <;> rfl
  rw [blotTold]
  dsimp only
  rw [event_objs, hpulse, hrelay]

theorem blotTold_obj {r i u : Nat} (h : objKey i u ≠ objKey 0x80A0 0) : (s.blotTold r).obj i u = s.obj i u := by
  rw [obj, blotTold_objs]
  exact obj_setObj_other _ _ _ _ _ _ h

/-- A blot of a job that may be blotted is told and begins the abort. -/
theorem blot_eq {r : Nat} (h : s.mayBlot = true) : s.blot r = (s.blotTold r).beginAbort r s.chip ((s.recovery.bseq + 1) % 256) := by
  have hchip : (s.blotTold r).chip = s.chip := s.blotTold_obj (by decide)
  rw [← hchip, blot, if_neg (by rw [h]; decide), blotTold]

/-- A told blot takes the next BSEQ and notes its key. -/
theorem blotTold_recovery (r : Nat) : ∃ ks, (s.blotTold r).recovery = { s.recovery with bseq := (s.recovery.bseq + 1) % 256, keys := ks } := by
  have hrelay (t : State) (i : Nat) : (t.relayBlot i none).recovery = t.recovery :=
    t.relayBlot_same State.recovery (fun _ _ _ => rfl) i none
  have hpulse (p : Prop) [Decidable p] (t : State) (x : Pins) : (if p then t else { t with pins := x }).recovery = t.recovery := by
    split <;> rfl
  rw [blotTold]
  dsimp only
  rw [event_recovery, hpulse, hrelay]
  exact ⟨_, rfl⟩

/-- A blot that the pin gave does not pulse BLOT_OUT_N. -/
theorem blotTold_pins : (s.blotTold 8).pins = s.pins := by
  have hrelay (t : State) (i : Nat) : (t.relayBlot i none).pins = t.pins := t.relayBlot_same State.pins (fun _ _ _ => rfl) i none
  rw [blotTold]
  dsimp only
  rw [event_pins, if_pos rfl, hrelay, bump_pins]

/-- A blot leaves whatever reads none of what it changes. -/
theorem blot_same {β : Type} (g : State → β) (hg : ∀ (s : State) ns m f qs b a x r d p os, g { s with
    nibs := ns, mesh := m, fresh := f, quills := qs, binding := b, agent := a, txl := x, recovery := r, desk := d, pins := p, objs := os } =
      g s) (r : Nat) : g (s.blot r) = g s := by
  cases h : s.mayBlot
  · rw [s.blot_eq_self h]
  · rw [s.blot_eq h, beginAbort_same _ g fun t ns m f qs b a x r d os => hg t ns m f qs b a x r d t.pins os,
      blotTold_same _ g fun t qs a x f r p os => hg t t.nibs t.mesh f qs t.binding a x r t.desk p os]

section
variable {s} (h : s.mayBlot = true) (r : Nat)
include h

/-- The record of the abort that a blot begins. -/
theorem blot_abort : (s.blot r).recovery.abort = some ⟨s.now, r, s.chip, (s.recovery.bseq + 1) % 256⟩ := by
  have hnow : (s.blotTold r).now = s.now := s.blotTold_same State.now (fun _ _ _ _ _ _ _ _ => rfl) r
  rw [s.blot_eq h, beginAbort_recovery, hnow]

/-- What of the recovery unit a blot leaves. -/
theorem blot_recovery : ∃ a bs ks, (s.blot r).recovery = { s.recovery with abort := a, bseq := bs, keys := ks, ended := true } := by
  obtain ⟨ks, hk⟩ := s.blotTold_recovery r
  rw [s.blot_eq h, beginAbort_recovery, hk]
  exact ⟨_, _, _, rfl⟩

/-- A blot closes the binding. -/
theorem blot_binding : (s.blot r).binding = { s.binding with
    fn := { code := .closing, pending := false, failed := s.binding.fn.failed || decide (s.binding.fn.code = .opening) }
    openLine := none
    drainAt := none } := by
  have hb : (s.blotTold r).binding = s.binding := s.blotTold_same State.binding (fun _ _ _ _ _ _ _ _ => rfl) r
  rw [s.blot_eq h, beginAbort_binding, hb]

/-- A blot closes the binding. -/
theorem blot_code : (s.blot r).binding.fn.code = .closing := by rw [blot_binding h]

theorem blot_run_ne (n : Nat) : ((s.blot r).nib n).issue.run ≠ .running := by
  rw [s.blot_eq h]
  exact beginAbort_run_ne _ _ _ _ n

theorem blot_pins : (s.blot 8).pins = s.pins := by
  rw [s.blot_eq h, beginAbort_same _ State.pins fun _ _ _ _ _ _ _ _ _ _ _ => rfl, blotTold_pins]

theorem blot_objs : (s.blot r).objs = ((s.bump 0x80A0 0 1).bump 0x80A1 0 1).objs := by
  have hset (t u : State) (ht : t.objs = u.objs) (i j k : Nat) : (t.bump i j k).objs = (u.bump i j k).objs := by
    have hobj : t.obj i j = u.obj i j := by rw [obj, ht, obj]
    rw [bump, bump, hobj]
    exact congrArg (fun o => SMap.set none o _ _) ht
  rw [s.blot_eq h, beginAbort_objs]
  exact hset _ _ (s.blotTold_objs r) _ _ _

end

/-- A blot leaves every object but its counts. -/
theorem blot_obj {i u : Nat} (h0 : objKey i u ≠ objKey 0x80A0 0) (h1 : objKey i u ≠ objKey 0x80A1 0) (r : Nat) :
    (s.blot r).obj i u = s.obj i u := by
  cases h : s.mayBlot
  · rw [s.blot_eq_self h]
  · rw [obj, blot_objs h]
    exact (obj_setObj_other _ _ _ _ _ _ h1).trans (obj_setObj_other _ _ _ _ _ _ h0)

/-- A blot leaves of each nib whatever reads neither its issue, its operations, its local input, its transfers nor its mirror. -/
theorem blot_nib_same {β : Type} (g : Nib → β)
    (hg : ∀ (x : Nib) i os ws q m, g { x with issue := i, slots := os, inbox := ws, resq := q, mirror := m } = g x) (r n : Nat) :
    g ((s.blot r).nib n) = g (s.nib n) := by
  cases h : s.mayBlot
  · rw [s.blot_eq_self h]
  · have hn : (s.blotTold r).nib n = s.nib n := s.blotTold_same (fun t => t.nib n) (fun _ _ _ _ _ _ _ _ => rfl) r
    rw [s.blot_eq h, beginAbort_nib_same _ g hg, hn]

/-! ### A fault of a nib -/

/-- What comes with the record and the counts of a fault: objects, and the notes of when first faults were taken. -/
def recordedAs (s t : State) : Prop := ∃ os m, t = { s with objs := os, recovery := { s.recovery with faultAt := m } }

theorem recordedAs.trans {s t u : State} (h : s.recordedAs t) (h' : t.recordedAs u) : s.recordedAs u := by
  obtain ⟨os, m, rfl⟩ := h
  obtain ⟨os', m', rfl⟩ := h'
  exact ⟨os', m', rfl⟩

theorem bump_recordedAs (i u k : Nat) : s.recordedAs (s.bump i u k) := ⟨_, s.recovery.faultAt, rfl⟩

theorem firstFault_recordedAs (i u k r : Nat) : s.recordedAs (s.firstFault i u k r) := by
  simp only [firstFault]
  split
  · exact ⟨_, _, rfl⟩
  · exact ⟨s.objs, s.recovery.faultAt, rfl⟩

/-- The nib as its fault leaves it: FAULTING, its recv cancelled and its local input emptied. -/
def faulting (s : State) (n : Nat) (f : FaultInfo) : Nib := { s.nib n with
  issue := { (s.nib n).issue with run := .faulting, hold := .none, faultRec := faultRecord (s.physNib n) f }
  slots := (s.nib n).slots.filter fun o => o.kind ≠ .recv
  inbox := [] }

/-- A fault up to its blot: the nib is FAULTING, and the fault recorded and counted. -/
def faultNoted (s : State) (n : Nat) (f : FaultInfo) : State :=
  let r := faultRecord (s.physNib n) f
  let t := (s.setNib n (s.faulting n f)).bump 0x701D (s.nibQuire n) (s.nib n).inbox.length
  let t := (t.firstFault 0x701B (s.nibQuire n) (s.nibQuire n) r).bump 0x701C (s.nibQuire n) 1
  t.firstFault 0x8010 0 16 r

/-- What a fault changes besides its blot: its nib, and what comes with its record. -/
theorem faultNoted_recordedAs (n : Nat) (f : FaultInfo) : (s.setNib n (s.faulting n f)).recordedAs (s.faultNoted n f) :=
  (((bump_recordedAs ..).trans (firstFault_recordedAs ..)).trans (bump_recordedAs ..)).trans (firstFault_recordedAs ..)

theorem storeUe_eta (t : State) : { t with recovery := { t.recovery with storeUe := t.recovery.storeUe } } = t := rfl

/-- A fault is noted and blots the job; an uncorrectable word met on the way is noted with the abort. -/
theorem nibFault_eq (n : Nat) (f : FaultInfo) : ∃ u, s.nibFault n f =
    { (s.faultNoted n f).blot 1 with recovery := { ((s.faultNoted n f).blot 1).recovery with storeUe := u } } := by
  have h : s.nibFault n f = if (f.code = 0x10 || f.code = 0x11) && ((s.faultNoted n f).blot 1).recovery.abort.isSome then
      { (s.faultNoted n f).blot 1 with recovery := { ((s.faultNoted n f).blot 1).recovery with storeUe := true } }
    else (s.faultNoted n f).blot 1 := by
    rw [nibFault, faultNoted, faulting]
  rw [h]
  split
  · exact ⟨true, rfl⟩
  · exact ⟨((s.faultNoted n f).blot 1).recovery.storeUe, (storeUe_eta _).symm⟩

/-- The nib after its fault where no blot follows: FAULTING, its recv cancelled and its local input emptied. -/
theorem nib_nibFault {s : State} (h : s.mayBlot = false) (n : Nat) (f : FaultInfo) : (s.nibFault n f).nib n = s.faulting n f := by
  obtain ⟨os, m, hn⟩ := s.faultNoted_recordedAs n f
  obtain ⟨u, hu⟩ := s.nibFault_eq n f
  have hblot : (s.faultNoted n f).mayBlot = false := by rw [hn]; exact h
  rw [hu, (s.faultNoted n f).blot_eq_self hblot, hn]
  exact nib_setNib s n (s.faulting n f)

/-- Where the job may be blotted, a fault begins the abort of reason 1. -/
theorem nibFault_blots {s : State} (h : s.mayBlot = true) (n : Nat) (f : FaultInfo) :
    (s.nibFault n f).binding.fn.code = .closing ∧ ∃ a, (s.nibFault n f).recovery.abort = some a ∧ a.reason = 1 := by
  obtain ⟨os, m, hn⟩ := s.faultNoted_recordedAs n f
  obtain ⟨u, hu⟩ := s.nibFault_eq n f
  have hblot : (s.faultNoted n f).mayBlot = true := by rw [hn]; exact h
  rw [hu]
  exact ⟨blot_code hblot 1, _, blot_abort hblot 1, rfl⟩

end Sys2Proof.Machine.State

namespace Sys2Proof.Machine

/-- Settles O7: the fault of `State.issueFault` is `State.nibFault`'s. -/
theorem faultAtIssue : Obligations.FaultAtIssue :=
  fun _ n _ _ _ => ⟨fun h => State.nib_nibFault h n _, fun h => State.nibFault_blots h n _⟩

end Sys2Proof.Machine
end

section
/-! Proof of the statements on the control instructions, the loop unit and the tokens (02 R37-R51; 04 R112, R121-R127, R135, R138, R142-R144). -/

namespace Sys2Proof.Machine

/-! ### halt and rest -/

/-- What a ready halt leaves: issue stopped at the address the loop unit gives, with CODE recorded. -/
theorem exec_halt_ready {n : NibId} {w : BitVec 64} {s : State} (h : s.ready n 0x02 w) (hr : field w.toNat 37 0 = 0) :
    exec (.halt n w) s = .next ((s.progress n 0).updNib n fun x =>
      let r := loopNext x x.issue.addr (x.issue.addr + 1) x.issue.loops
      { x with issue := { x.issue with
          run := .halting, haltCode := field w.toNat 53 38, loops := r.1, addr := r.2, hold := .none } }) := by
  rw [exec_halt, execHalt, State.issue_ready h (decide_eq_true hr)]
  rfl

namespace State

/-- The binding as a halt of a nib leaves it: counted, and recorded where it is the first. -/
theorem noteHalt_binding (s : State) (n : Nat) : (s.noteHalt n).binding.halted = s.binding.halted + 1 ∧
    (s.binding.halted = 0 → (s.noteHalt n).binding.firstHalt = (s.nib n).issue.haltCode <<< 16 + n % 2 ^ 13) := by
  have hevent (p : Bool) (t : State) (c i d : Nat) : (if p then t.event c i d else t).binding = t.binding :=
    t.eventIf_same State.binding (fun _ _ _ _ => rfl) p c i d
  rw [noteHalt]
  dsimp only
  rw [hevent]
  refine ⟨rfl, fun h => ?_⟩
  dsimp only
  rw [h, decide_eq_true rfl, Bool.true_or, if_pos rfl]

theorem noteHalt_nib (s : State) (n m : Nat) : (s.noteHalt n).nib m = s.nib m := by
  have hevent (p : Bool) (t : State) (c i d : Nat) : (if p then t.event c i d else t).nib m = t.nib m :=
    t.eventIf_same (fun t => t.nib m) (fun _ _ _ _ => rfl) p c i d
  exact (hevent ..).trans rfl

end State

/-- Settles O6. -/
theorem nibsComeToRest : Obligations.NibsComeToRest := by
  refine ⟨fun n w s h hr => ⟨_, exec_halt_ready h hr, ?_⟩, fun n s hrun hslots hidle => ?_, fun n s hrun hslots => ?_⟩
  · rw [State.nib_updNib, State.progress, State.nib_updNib]
    exact ⟨rfl, rfl, rfl, rfl, rfl, State.updNib_only_nibs _ _ (State.updNib_only_nibs _ _ rfl)⟩
  · have hrest : exec (.halted n) s = .next ((s.setNib n { s.nib n with issue := { (s.nib n).issue with run := .halted } }).noteHalt n) := by
      rw [exec_halted, execHalted, State.nibHalted]
      dsimp only
      rw [hrun, hslots, hidle]
      rfl
    obtain ⟨hcount, hfirst⟩ := State.noteHalt_binding (s.setNib n { s.nib n with issue := { (s.nib n).issue with run := .halted } }) n
    refine ⟨_, hrest, (State.noteHalt_nib ..).trans (State.nib_setNib ..), hcount, fun h => ?_⟩
    rw [hfirst h, State.nib_setNib]
  · rw [exec_nibFaulted, execNibFaulted, State.nibRests]
    dsimp only
    rw [hrun, hslots]
    rfl

/-! ### Comparators, tags and bases -/

/-- A cmp, a ktag and an rbase that are ready take their effect. -/
theorem exec_cmp_ready {n : NibId} {w : BitVec 64} {s : State} (h : s.ready n 0x0A w) (hr : field w.toNat 9 0 = 0) :
    exec (.cmp n w) s = .next ((s.updNib n fun x => { x with
      cmps := SMap.set {} x.cmps (field w.toNat 53 52)
        ⟨field w.toNat 51 49, field w.toNat 48 46, bit w.toNat 45, field w.toNat 44 42, field w.toNat 41 10⟩ }).issued n) := by
  rw [exec_cmp, execCmp, State.issue_ready h (decide_eq_true hr)]
  rfl

theorem exec_ktag_ready {n : NibId} {w : BitVec 64} {s : State} (h : s.ready n 0x34 w) (hr : field w.toNat 39 0 = 0) :
    exec (.ktag n w) s = .next ((s.setTags n
      ⟨field w.toNat 53 51, field w.toNat 50 50, field w.toNat 49 42, field w.toNat 41 40⟩).issued n) := by
  rw [exec_ktag, execKtag, State.issue_ready h (decide_eq_true hr)]
  rfl

theorem exec_rbase_ready {n : NibId} {w : BitVec 64} {s : State} (h : s.ready n 0x28 w) (hr : field w.toNat 10 0 = 0) :
    exec (.rbase n w) s = .next ((s.updNib n fun x => { x with
      rbase := SMap.set 0 x.rbase (field w.toNat 53 52) (field w.toNat 51 11 * 64) }).issued n) := by
  rw [exec_rbase, execRbase, State.issue_ready h (decide_eq_true hr)]
  rfl

/-- An empty local input offers nothing. -/
theorem State.nib_drainInbox_empty {s : State} {n : Nat} (h : (s.nib n).inbox = []) : (s.drainInbox n).nib n = s.nib n := by
  rw [State.drainInbox, h, State.offer, State.nib_updNib, State.nib_updNib, ← h]

/-- Tags taken by a nib with no packet waiting and no recv change nothing else of it. -/
theorem State.nib_setTags {s : State} {n : Nat} (hi : (s.nib n).inbox = []) (hr : ∀ o ∈ (s.nib n).slots, o.kind ≠ .recv) (t : Tags) :
    (s.setTags n t).nib n = { s.nib n with tags := t } := by
  have hcancel (p : InFlight → Bool) : (s.nib n).slots.filter (fun o => o.kind = .recv && p o) = [] :=
    List.filter_eq_nil_iff.2 fun o ho => by simp [hr o ho]
  have hkeep (p : InFlight → Bool) : (s.nib n).slots.filter (fun o => !(o.kind = .recv && p o)) = (s.nib n).slots :=
    List.filter_eq_self.2 fun o ho => by simp [hr o ho]
  simp only [State.setTags, hi, hcancel, hkeep, List.filter_nil, List.isEmpty_nil, if_true]
  rw [State.nib_drainInbox_empty, State.nib_setNib, ← hi]
  rw [State.nib_setNib]

/-- Settles O12. -/
theorem cmpKtagRbase : Obligations.CmpKtagRbase := by
  refine fun n w s => ⟨exec_cmp_ready, fun h hr t ht => ?_, exec_rbase_ready⟩
  subst ht
  exact ⟨exec_ktag_ready h hr, fun hi hs => State.nib_setTags hi hs _⟩

/-! ### The loop unit -/

/-- A ready loop with a body takes the effect of its count, a level where there is room for one that ends within the level around it. -/
theorem exec_loop_ready {n : NibId} {w : BitVec 64} {s : State} (h : s.ready n 0x08 w) (hr : field w.toNat 21 0 = 0)
    (h41 : bit w.toNat 41 = true → field w.toNat 40 28 = 0) (hp : wordPred w.toNat = 0) (ha : (s.nib n).issue.addr < field w.toNat 53 42)
    {count : Nat} (hc : count = if bit w.toNat 41 then (s.nib n).ct (field w.toNat 27 25) else field w.toNat 40 25) :
    exec (.loop n w) s = Issued.outcome s n
      (if count = 0 then
        let r := loopNext (s.nib n) (s.nib n).issue.addr (field w.toNat 53 42 + 1) (s.nib n).issue.loops
        .jump (s.setNib n { s.nib n with issue := { (s.nib n).issue with loops := r.1 } }) r.2
      else if 4 ≤ (s.nib n).issue.loops.length then .fault 0x05 none 0
      else if (s.nib n).issue.loops.head?.any fun l => l.last < field w.toNat 53 42 then .fault 0x06 none 0
      else .jump (s.setNib n { s.nib n with issue := { (s.nib n).issue with
        loops := ⟨(s.nib n).issue.addr + 1, field w.toNat 53 42, count, 0,
          if bit w.toNat 24 then some (field w.toNat 23 22) else none⟩ :: (s.nib n).issue.loops } }) ((s.nib n).issue.addr + 1)) := by
  have hresv : (field w.toNat 21 0 = 0 && (!bit w.toNat 41 || field w.toNat 40 28 = 0) && wordPred w.toNat = 0 &&
      (s.nib n).issue.addr < field w.toNat 53 42 : Bool) = true := by
    cases hb : bit w.toNat 41 <;> simp [hr, hp, ha]
    exact h41 hb
  subst hc
  rw [exec_loop, execLoop]
  exact State.issue_ready h hresv _

/-- Settles O9: entering is the four branches of `exec_loop_ready`, ending those of `loopNext`. -/
theorem loopsEnterAndEnd : Obligations.LoopsEnterAndEnd := by
  refine ⟨fun n w s hi ho hp hr h41 ha count hc => ?_, fun s n l ls hls haddr hlast hfirst => ?_⟩
  · have hready : s.ready n 0x08 w := ⟨hi, ho, by rw [hp]; rfl, by rw [hp]; rfl⟩
    rw [exec_loop_ready hready hr h41 hp ha hc]
    refine ⟨fun h0 hend => ?_, fun h0 hlen hnest => ?_, fun h0 hlen => ?_, fun h0 hlen hnest => ?_⟩
    · rw [if_pos h0, loopNext_plain _ _ _ _ hend]
      rfl
    · have hany : ¬((s.nib n).issue.loops.head?.any fun l => l.last < field w.toNat 53 42) = true := by
        cases hl : (s.nib n).issue.loops.head? with
        | none => exact Bool.false_ne_true
        | some l => simpa using hnest l hl
      rw [if_neg h0, if_neg (Nat.not_le.2 hlen), if_neg hany]
      rfl
    · rw [if_neg h0, if_pos hlen]
      rfl
    · obtain ⟨l, hl, hlt⟩ := hnest
      have hany : ((s.nib n).issue.loops.head?.any fun l => l.last < field w.toNat 53 42) = true := by
        rw [hl]
        simpa using hlt
      rw [if_neg h0, if_neg (Nat.not_le.2 hlen), if_pos hany]
      rfl
  · refine ⟨fun hcount hexit => ?_, fun hdone hout => ?_⟩
    · have hout : (l.exit.map (s.nib n).cmpOut).getD false = false := by
        cases he : l.exit with
        | none => rfl
        | some e => exact hexit e he
      have hnext : loopNext (s.nib n) (s.nib n).issue.addr ((s.nib n).issue.addr + 1) (s.nib n).issue.loops =
          ({ l with index := l.index + 1 } :: ls, l.first) := by
        simp [hls, haddr, loopNext, hcount, hout]
      rw [State.nib_issued s n hnext hfirst]
      exact ⟨rfl, rfl⟩
    · have hend : (decide (l.index + 1 = l.count) || (l.exit.map (s.nib n).cmpOut).getD false) = true := by
        rcases hdone with h | ⟨e, he, hc⟩
        · simp [h]
        · simp [he, hc]
      have hnext : loopNext (s.nib n) (s.nib n).issue.addr ((s.nib n).issue.addr + 1) (s.nib n).issue.loops = (ls, l.last + 1) := by
        rw [hls, haddr, loopNext, if_neg fun h => h rfl, if_pos hend]
        exact loopNext_plain _ _ _ _ fun k hk => hout k (List.mem_of_mem_head? hk)
      rw [State.nib_issued s n hnext (by omega)]
      exact ⟨rfl, rfl⟩

/-! ### Tokens -/

/-- Tokens of KINDs that the mask takes are dequeued one by one. -/
theorem dequeue_append {m : Nat} {ts : List Nat} (h : ∀ u ∈ ts, bit m (field u 25 24) = true) (left : Nat) (q : List Nat) (last : Nat) :
    ∃ last', dequeue m (ts.length + left) (ts ++ q) last = dequeue m left q last' := by
  induction ts generalizing last with
  | nil => exact ⟨last, by rw [List.length_nil, Nat.zero_add, List.nil_append]⟩
  | cons t ts ih =>
    obtain ⟨last', hl⟩ := ih (fun u hu => h u (List.mem_cons_of_mem _ hu)) (field t 23 0)
    refine ⟨last', hl ▸ ?_⟩
    rw [List.length_cons, Nat.succ_add, List.cons_append, dequeue, if_pos (h t (List.mem_cons_self ..))]

/-- What a twait makes of the tokens that its queue gives it (R124). -/
def State.twaited (s : State) (n w : Nat) : Dequeued → Issued
  | .all rest last => .go ((s.setNib n (if bit w 39 then ((s.nib n).setQueue (field w 53 50) rest).setCt (field w 38 36) last
      else (s.nib n).setQueue (field w 53 50) rest)).settle n)
  | .some k =>
    let t := ((s.setNib n ((s.nib n).setQueue (field w 53 50) [])).updNib n fun x =>
      { x with issue := { x.issue with hold := .tokens k (bit w 43) } }).settle n
    .stop (if k < field w 49 44 + 1 then t.progress n 0 else t)
  | .wrong rest t => .stop (((s.setNib n ((s.nib n).setQueue (field w 53 50) rest)).settle n).issueFault n 0x08 none
      (field w 53 50 <<< 14 + field t 25 24 <<< 12 + field t 31 29 <<< 9 + field t 28 28 <<< 8))

/-- A ready twait that does not wait yet asks its queue for N tokens. -/
theorem exec_twait_ready {n : NibId} {w : BitVec 64} {s : State} (h : s.ready n 0x10 w) (hr : field w.toNat 35 0 = 0)
    (hh : ∀ k e, (s.nib n).issue.hold ≠ .tokens k e) : exec (.twait n w) s = Issued.outcome s n (s.twaited n w.toNat
      (dequeue (field w.toNat 43 40) (field w.toNat 49 44 + 1) ((s.nib n).queue (field w.toNat 53 50)) 0)) := by
  rw [exec_twait, execTwait, State.issue_ready h (decide_eq_true hr)]
  dsimp only
  generalize (s.nib n).issue.hold = hold at hh
  cases hold with
  | tokens k e => exact absurd rfl (hh k e)
  | _ =>
    dsimp only
    generalize dequeue _ _ _ _ = d
    cases d <;> rfl

/-- Settles O13: the three outcomes are those of `dequeue`. -/
theorem twaitDequeues : Obligations.TwaitDequeues := by
  intro n w s h hr hh ts rest t hts
  refine ⟨fun ht hlen hq => ?_, fun ht hlen hq => ?_, fun hlen hq hne => ?_⟩
  · obtain ⟨last, hd⟩ := dequeue_append hts 1 (t :: rest) 0
    rw [hlen, ← hq, dequeue, if_pos ht, dequeue] at hd
    rw [exec_twait_ready h hr hh, hd]
    rfl
  · obtain ⟨k, hk⟩ : ∃ k, field w.toNat 49 44 + 1 = ts.length + (k + 1) := ⟨field w.toNat 49 44 - ts.length, by omega⟩
    obtain ⟨last, hd⟩ := dequeue_append hts (k + 1) (t :: rest) 0
    rw [← hk, ← hq, dequeue, ht, if_neg Bool.false_ne_true] at hd
    rw [exec_twait_ready h hr hh, hd]
    rfl
  · obtain ⟨k, hk⟩ : ∃ k, field w.toNat 49 44 + 1 = ts.length + (k + 1) := ⟨field w.toNat 49 44 - ts.length, by omega⟩
    have hpos : 0 < ts.length := List.length_pos_iff.2 hne
    obtain ⟨last, hd⟩ := dequeue_append hts (k + 1) [] 0
    rw [← hk, List.append_nil, ← hq, dequeue] at hd
    rw [exec_twait_ready h hr hh, hd, State.twaited, if_pos (by omega), show field w.toNat 49 44 + 1 - ts.length = k + 1 by omega]
    rfl

/-- A ready signal enqueues its token here, sends it over the mesh, waits, or faults. -/
theorem exec_signal_ready {n : NibId} {w : BitVec 64} {s : State} (h : s.ready n 0x11 w) (hr : field w.toNat 9 0 = 0)
    (hk : field w.toNat 53 52 ≤ 1) (hv : bit w.toNat 34 = true → field w.toNat 30 10 = 0) {v : Nat}
    (hval : v = if bit w.toNat 34 then (s.nib n).ct (field w.toNat 33 31) % 2 ^ 24 else field w.toNat 33 10) :
    exec (.signal n w) s = Issued.outcome s n
      (if field w.toNat 53 52 = 0 then
        if (s.nib n).room (field w.toNat 38 35) then
          .go (s.setNib n ((s.nib n).enqueue (field w.toNat 38 35) (token (s.nib n).tags.gen (s.nib n).tags.epoch 0 v)))
        else .wait .queueFull
      else if !s.inGrid (field w.toNat 51 45) (field w.toNat 44 39) then .fault 0x02 none 0
      else .go (s.inject n [⟨n, .nib (field w.toNat 51 45 * 64 + field w.toNat 44 39), (s.nib n).tags.gen, (s.nib n).tags.epoch,
        .signal (field w.toNat 38 35) v⟩])) := by
  have hresv : (field w.toNat 9 0 = 0 && field w.toNat 53 52 ≤ 1 && (!bit w.toNat 34 || field w.toNat 30 10 = 0) : Bool) = true := by
    cases hb : bit w.toNat 34 <;> simp [hr, hk]
    exact hv hb
  subst hval
  rw [exec_signal, execSignal]
  exact State.issue_ready h hresv _

/-- Settles O14: the four branches of `exec_signal_ready`. -/
theorem signalSends : Obligations.SignalSends := by
  intro n w s h hr hk hv v hval
  rw [exec_signal_ready h hr hk hv hval]
  refine ⟨fun h0 hroom => ?_, fun h0 hroom => ?_, fun h1 hgrid => ?_, fun h1 hgrid => ?_⟩
  · rw [if_pos h0, if_pos hroom]
    rfl
  · rw [if_pos h0, if_neg (Bool.eq_false_iff.1 hroom)]
    rfl
  · rw [if_neg (by omega), if_neg (by rw [hgrid]; decide)]
    rfl
  · rw [if_neg (by omega), if_pos (by rw [hgrid]; rfl)]
    rfl

/-- Settles O15: the two values of EN. -/
theorem tbindBindsDoorbell : Obligations.TbindBindsDoorbell := by
  intro n w s h hr
  rw [exec_tbind, execTbind]
  dsimp only
  rw [State.issue_ready h (decide_eq_true hr)]
  refine ⟨fun he => ?_, fun he => ?_⟩
  · rw [if_pos he]
    rfl
  · rw [if_neg (Bool.eq_false_iff.1 he)]
    rfl

end Sys2Proof.Machine
end

section
/-! Proof of the statements on the stores and the engines: overlay, dload and esc, mma, vop and cvt, and how their operations complete
(02 R25-R44; 03 R97; 04 R112-R121, R144). -/

namespace Sys2Proof.Machine

/-! ### Stores with no word in error -/

section
variable {α : Type} (k : Nat) (v w : α) (m : SMap α)

theorem insert_insert : SMap.insert k w (SMap.insert k v m) = SMap.insert k w m := by
  induction m with
  | nil => simp [SMap.insert]
  | cons e m ih =>
    simp only [SMap.insert]
    split
    · simp [SMap.insert]
    split
    · simp [SMap.insert]
    · rw [SMap.insert, if_neg ‹_›, if_neg ‹_›, ih]

theorem erase_insert : SMap.erase (SMap.insert k v m) k = SMap.erase m k := by
  induction m with
  | nil => simp [SMap.insert, SMap.erase]
  | cons e m ih =>
    simp only [SMap.insert]
    split
    · simp [SMap.erase]
    split
    next h => simp [SMap.erase, h]
    · rw [SMap.erase_cons, SMap.erase_cons, ih]

/-- A key written twice holds what was written last, unless the first writing removed it. -/
theorem set_set_of_ne [DecidableEq α] {d : α} (hv : v ≠ d) : SMap.set d (SMap.set d m k v) k w = SMap.set d m k w := by
  unfold SMap.set
  rw [if_neg hv, erase_insert, insert_insert]

end

namespace State

variable {s : State} {n : Nat}

/-- Of two changes of a nib the second stands, unless the first made the nib one that was never placed. -/
theorem setNib_setNib {x : Nib} (hx : x ≠ Nib.fresh) (y : Nib) : (s.setNib n x).setNib n y = s.setNib n y := by
  unfold setNib
  rw [set_set_of_ne _ _ _ _ hx]

/-- A nib that issues is not a fresh one. -/
theorem ne_fresh_of_issues (h : s.issues n = true) : s.nib n ≠ Nib.fresh := by
  intro hf
  rw [issues, hf] at h
  cases h

/-- An engine's operation is in flight. -/
theorem slots_ne_nil_of_engineOp {k : OpKind} {o : InFlight} (h : s.engineOp n k = some o) : (s.nib n).slots ≠ [] := by
  intro hs
  rw [engineOp, Nib.oldest, hs] at h
  split at h
  · cases h
  · cases h

/-- A nib with an operation in flight is not a fresh one. -/
theorem ne_fresh_of_slots {x : Nib} (h : x.slots ≠ []) : x ≠ Nib.fresh := fun hx => h (by rw [hx]; rfl)

theorem readStores_clean (h : (s.nib n).ecc = []) (rs : List (Nat × Nat)) : s.readStores n rs = (s, none) := by
  rw [readStores, h]
  rfl

theorem viewed_idle {rs : List (Nat × Nat)} (h : s.fetching n rs = []) : s.viewed n rs = (s, (s.nib n).mem) := by
  rw [viewed, h]
  rfl

theorem mergePart_clean (h : (s.nib n).ecc = []) (rs whole : List (Nat × Nat)) :
    s.mergePart n rs whole = (s.setNib n (s.nib n), none) := by
  have hx : { s.nib n with ecc := (s.nib n).ecc.filter fun e => !whole.any (wordWhole e.1) } = s.nib n := by
    rw [h, List.filter_nil, ← h]
  rw [mergePart, h]
  exact congrArg (fun x => (s.setNib n x, none)) hx

theorem mergeStores_clean (h : (s.nib n).ecc = []) (rs : List (Nat × Nat)) :
    s.mergeStores n rs = (s.setNib n (s.nib n), none) := mergePart_clean h rs rs

end State

/-! ### overlay, dload and esc -/

section
variable {n : NibId} {w : BitVec 64} {s : State}

theorem exec_overlay_ready (h : s.ready n 0x03 w) (hr : field w.toNat 2 0 = 0) (h64 : (field w.toNat 53 34 * 8) % 64 = 0)
    (hwell : inWell (field w.toNat 53 34 * 8) = true)
    (hrange : rangeFault (field w.toNat 53 34 * 8, 8 * (field w.toNat 24 15 * 8)) = none)
    (hdst : field w.toNat 33 25 * 8 + field w.toNat 24 15 * 8 ≤ 4096) (hloops : (s.nib n).issue.loops = [])
    (hbusy : (s.nib n).rangeBusy [(field w.toNat 53 34 * 8, 8 * (field w.toNat 24 15 * 8))] [] = false) (hecc : (s.nib n).ecc = [])
    (hfetch : s.fetching n [(field w.toNat 53 34 * 8, 8 * (field w.toNat 24 15 * 8))] = []) :
    exec (.overlay n w) s = .next (((s.updNib n fun x => { x with
      instrs := copyInstrs x.mem (field w.toNat 53 34 * 8) (field w.toNat 33 25 * 8) (field w.toNat 24 15 * 8) x.instrs
      }).progress n 0).moveIssue n (field w.toNat 14 3)) := by
  have hsrc : ¬((field w.toNat 53 34 * 8) % 64 ≠ 0 || !inWell (field w.toNat 53 34 * 8) : Bool) = true := by rw [h64, hwell]; decide
  have hend : ¬((4096 : Nat) < field w.toNat 33 25 * 8 + field w.toNat 24 15 * 8 || !(s.nib n).issue.loops.isEmpty : Bool) = true := by
    rw [hloops, decide_eq_false (Nat.not_lt.2 hdst)]
    decide
  rw [exec_overlay, execOverlay, State.issue_ready h (decide_eq_true hr)]
  dsimp only
  rw [if_neg hsrc, hrange]
  dsimp only
  rw [if_neg hend, hbusy, if_neg Bool.false_ne_true, State.readStores_clean hecc, State.viewed_idle hfetch]
  rfl

theorem exec_dload_ready (h : s.ready n 0x04 w) (hr : field w.toNat 24 0 = 0) (hrange : rangeFault (field w.toNat 44 25 * 8, 40) = none)
    (hslots : ((s.nib n).slots.any fun o => o.writesHandle (field w.toNat 53 45)) = false)
    (hbusy : (s.nib n).rangeBusy [(field w.toNat 44 25 * 8, 40)] [] = false) (hecc : (s.nib n).ecc = [])
    (hfetch : s.fetching n [(field w.toNat 44 25 * 8, 40)] = []) :
    exec (.dload n w) s = .next (if descReservedOk ((s.nib n).mem.readLE (field w.toNat 44 25 * 8) 40) then
      (s.updNib n fun x => { x with
        descs := SMap.set 0 x.descs (field w.toNat 53 45) (x.mem.readLE (field w.toNat 44 25 * 8) 40)
        escs := SMap.set 0 x.escs (field w.toNat 53 45) 0
        dloaded := SMap.set false x.dloaded (field w.toNat 53 45) true }).issued n
      else s.issueFault n 0x01 none 0) := by
  rw [exec_dload, execDload, State.issue_ready h (decide_eq_true hr)]
  dsimp only
  rw [hrange]
  dsimp only
  rw [hslots, if_neg Bool.false_ne_true, hbusy, if_neg Bool.false_ne_true, State.readStores_clean hecc]
  dsimp only
  rw [State.viewed_idle hfetch]
  dsimp only
  cases descReservedOk ((s.nib n).mem.readLE (field w.toNat 44 25 * 8) 40)
  · rw [if_pos Bool.not_false, if_neg Bool.false_ne_true]
    rfl
  · rw [if_neg (by decide), if_pos rfl]
    simp only [Issued.outcome, State.updNib]

theorem exec_esc_ready (h : s.ready n 0x05 w) (hr : field w.toNat 22 0 = 0) (hrange : rangeFault (field w.toNat 44 25 * 8, 8) = none)
    (hbusy : (s.nib n).rangeBusy [] [(field w.toNat 44 25 * 8, 8)] = false) (hecc : (s.nib n).ecc = []) :
    exec (.esc n w) s = .next ((s.updNib n fun x => { x with
      mem := if bit w.toNat 24 then x.mem.writeBytes (field w.toNat 44 25 * 8) (bytesLE 8 (SMap.get 0 x.escs (field w.toNat 53 45)))
        else x.mem
      escs := if bit w.toNat 23 then SMap.set 0 x.escs (field w.toNat 53 45) 0 else x.escs }).issued n) := by
  have hmerge (f : Nib → Nib) : (s.setNib n (s.nib n)).updNib n f = s.updNib n f := by
    rw [State.updNib, State.nib_setNib, State.setNib_setNib (State.ne_fresh_of_issues h.1), State.updNib]
  rw [exec_esc, execEsc, State.issue_ready h (decide_eq_true hr)]
  dsimp only
  cases h24 : bit w.toNat 24
  · cases h23 : bit w.toNat 23 <;> rfl
  · rw [hrange, hbusy, State.mergeStores_clean hecc, hmerge]
    cases h23 : bit w.toNat 23 <;> rfl

end

/-- Settles O8. -/
theorem overlayDloadEsc : Obligations.OverlayDloadEsc :=
  fun _ _ _ => ⟨exec_overlay_ready, exec_dload_ready, exec_esc_ready⟩

/-! ### Operations that enter a slot -/

/-- An operation takes the lowest free slot where no range of its meets one in flight. -/
theorem State.takeSlot_free {s : State} {n k : Nat} {reads writes : List (Nat × Nat)} (hk : (s.nib n).freeSlotNo = some k)
    (hb : (s.nib n).rangeBusy reads writes = false) (kind : OpKind) (w : Nat) (ts : List Tensor) (more : InFlight → InFlight) :
    s.takeSlot n kind w ts reads writes more = .go (s.setNib n { s.nib n with slots := (s.nib n).slots ++ [more
      { slot := k, kind := kind, word := w, addr := (s.nib n).issue.addr, gen := (s.nib n).tags.gen, epoch := (s.nib n).tags.epoch,
        tensors := ts, reads := reads, writes := writes }] }) := by
  rw [takeSlot]
  dsimp only
  rw [hk]
  dsimp only
  rw [if_neg (Bool.eq_false_iff.1 hb)]

section
variable {n : NibId} {w : BitVec 64} {s : State}

/-- A ready mma whose operands are in order faults where a check of its fails, and else takes a slot or waits for one. -/
theorem exec_mma_ready (h : s.ready n 0x18 w) (hr : field w.toNat 20 0 = 0) {a b d : Tensor}
    (ho : (s.nib n).operands [(field w.toNat 44 36, false), (field w.toNat 35 27, false), (field w.toNat 53 45, true)] = .ok [a, b, d]) :
    exec (.mma n w) s = Issued.outcome s n ((mmaFault d a b).getD
      (s.takeSlot n .mma w.toNat [d, a, b] (a.ranges ++ b.ranges ++ (if bit w.toNat 26 then d.ranges else [])) d.ranges id)) := by
  rw [exec_mma, execMma, State.issue_ready h (decide_eq_true hr)]
  dsimp only
  rw [ho]
  dsimp only
  cases mmaFault d a b <;> rfl

/-- A ready vop whose operands are in order faults where a check of its fails, and else takes a slot or waits for one. -/
theorem exec_vop_ready (h : s.ready n 0x19 w) (hr : vopReserved w.toNat = true) {d : Tensor} {ss : List Tensor}
    (ho : (s.nib n).operands ((field w.toNat 53 45, true) :: (vopHandles w.toNat).map fun h => (h, false)) = .ok (d :: ss)) :
    exec (.vop n w) s = Issued.outcome s n ((vopFault (field w.toNat 17 13) (bit w.toNat 12) d ss).getD
      (s.takeSlot n .vop w.toNat (d :: ss) (ss.flatMap Tensor.ranges) d.ranges id)) := by
  rw [exec_vop, execVop, State.issue_ready h hr]
  rw [ho]
  dsimp only
  cases vopFault (field w.toNat 17 13) (bit w.toNat 12) d ss <;> rfl

/-- A ready cvt of equal shapes and no scale fault takes a slot or waits for one. -/
theorem exec_cvt_ready (h : s.ready n 0x1B w) (hr : field w.toNat 30 0 = 0) {a d : Tensor}
    (ho : (s.nib n).operands [(field w.toNat 44 36, false), (field w.toNat 53 45, true)] = .ok [a, d]) (ha : a.scaleFault = false)
    (hd : d.scaleFault = false) (hext : ∀ i < 5, a.ext i = d.ext i) :
    exec (.cvt n w) s = Issued.outcome s n (s.takeSlot n .cvt w.toNat [d, a] a.ranges d.ranges id) := by
  have hfind : ([0, 1, 2, 3, 4].find? fun i => a.ext i ≠ d.ext i) = none :=
    List.find?_eq_none.2 fun i hi => by
      have h5 : i < 5 := (by decide : ∀ i ∈ [0, 1, 2, 3, 4], i < 5) i hi
      simp [hext i h5]
  rw [exec_cvt, execCvt, State.issue_ready h (decide_eq_true hr)]
  dsimp only
  rw [ho]
  dsimp only
  rw [ha, hd, if_neg Bool.false_ne_true, if_neg Bool.false_ne_true, hfind]

end

/-- Settles O16: a check that fails gives its fault, and else `State.takeSlot_free` the slot. -/
theorem engineOperationsIssue : Obligations.EngineOperationsIssue := by
  intro n w s a b d ss k hk
  refine ⟨fun h hr ho => ⟨fun hf hb => ?_, fun code g e hf => ?_⟩, fun h hr ho => ⟨fun hf hb => ?_, fun code g e hf => ?_⟩,
    fun h hr ho ha hd hext hb => ?_⟩
  · rw [exec_mma_ready h hr ho, hf, Option.getD_none, State.takeSlot_free hk hb]
    rfl
  · rw [exec_mma_ready h hr ho, hf]
    rfl
  · rw [exec_vop_ready h hr ho, hf, Option.getD_none, State.takeSlot_free hk hb]
    rfl
  · rw [exec_vop_ready h hr ho, hf]
    rfl
  · rw [exec_cvt_ready h hr ho ha hd hext, State.takeSlot_free hk hb]
    rfl

/-! ### Operations that complete -/

namespace State

section
variable (s : State) (n : Nat) (o : InFlight)

/-- What a nib fetches does not depend on its counts of progress. -/
theorem fetching_progress (u : Nat) (rs : List (Nat × Nat)) : (s.progress n u).fetching n rs = s.fetching n rs := by
  rw [fetching, progress, nib_updNib, updNib_desk, fetching]

/-- A nib that has freed a slot: the slot is gone, and of the rest only escape records and counts of progress may differ. -/
theorem nib_freeSlot : ∃ es p pa, (s.freeSlot n o).nib n = { s.nib n with
    slots := (s.nib n).slots.filter fun p => p.slot ≠ o.slot, escs := es, progress := p, progressAt := pa } := by
  have hadd (t : State) (i q k : Nat) : (if k = 0 then t else t.bump i q k).nib n = t.nib n := by split <;> rfl
  have hhalt (p : Prop) [Decidable p] (t : State) (es : SMap Nat)
      (ht : t.nib n = { s.nib n with slots := (s.nib n).slots.filter fun p => p.slot ≠ o.slot, escs := es }) :
      ∃ es p' pa, (if p then t.progress n 0 else t).nib n = { s.nib n with
        slots := (s.nib n).slots.filter fun p => p.slot ≠ o.slot, escs := es, progress := p', progressAt := pa } := by
    split
    · rw [progress, nib_updNib, ht]
      exact ⟨_, _, _, rfl⟩
    · rw [ht]
      exact ⟨_, _, _, rfl⟩
  exact hhalt _ _ _ (by rw [hadd, hadd, hadd, hadd, nib_updNib])

/-- Freeing a slot leaves whatever reads neither the nibs nor the objects. -/
theorem freeSlot_same {β : Type} (g : State → β) (hg : ∀ (s : State) ns os, g { s with nibs := ns, objs := os } = g s) :
    g (s.freeSlot n o) = g s := by
  have hadd (t : State) (i q k : Nat) : g (if k = 0 then t else t.bump i q k) = g t := by
    split
    · rfl
    · exact hg t t.nibs _
  have hupd (t : State) (f : Nib → Nib) : g (t.updNib n f) = g t := hg t _ t.objs
  have hhalt (p : Prop) [Decidable p] (t : State) : g (if p then t.progress n 0 else t) = g t := by
    split
    · exact hupd ..
    · rfl
  rw [freeSlot]
  dsimp only
  rw [hhalt, hadd, hadd, hadd, hadd, hupd]

/-- An operation with its results written. -/
theorem finishOp_eq : s.finishOp n o = (s.updNib n fun x => x.setSlot { o with written := true }).emitDone n { o with written := true } := rfl

end

/-- An operation of an engine over stores with no word in error leaves its result and finishes. -/
theorem completeOp_clean {s : State} {n : Nat} {o : InFlight} {k : Work} (hne : s.nib n ≠ Nib.fresh) (hecc : (s.nib n).ecc = [])
    (hf : s.fetching n k.srcs = []) : s.completeOp n o k = (s.updNib n fun x => { x with mem := (k.result x.mem).mem }).finishOp n { o with
      esc := (k.result (s.nib n).mem).esc, toZero := (k.result (s.nib n).mem).toZero
      saturated := (k.result (s.nib n).mem).saturated } := by
  rw [completeOp, readStores_clean hecc]
  dsimp only
  rw [viewed_idle hf]
  dsimp only
  rw [mergePart_clean hecc]
  dsimp only
  rw [nib_setNib, if_pos rfl, unview, if_pos rfl, updNib, nib_setNib, setNib_setNib hne, updNib]

/-- The same, of the unit's progress noted first. -/
theorem completeOp_progress {s : State} {n u : Nat} {o : InFlight} {k : Work} {kind : OpKind} (hop : s.engineOp n kind = some o)
    (hecc : (s.nib n).ecc = []) (hf : s.fetching n k.srcs = []) : (s.progress n u).completeOp n o k =
      ((s.progress n u).updNib n fun x => { x with mem := (k.result x.mem).mem }).finishOp n { o with
        esc := (k.result (s.nib n).mem).esc, toZero := (k.result (s.nib n).mem).toZero
        saturated := (k.result (s.nib n).mem).saturated } := by
  have hnib : (s.progress n u).nib n = { s.nib n with
      progress := SMap.upd 0 (s.nib n).progress u fun c => (c + 1) % 2 ^ 32
      progressAt := SMap.set 0 (s.nib n).progressAt u s.now } := by rw [progress, nib_updNib]
  have hne : (s.progress n u).nib n ≠ Nib.fresh := ne_fresh_of_slots (by rw [hnib]; exact slots_ne_nil_of_engineOp hop)
  rw [completeOp_clean hne (by rw [hnib]; exact hecc) (by rw [fetching_progress]; exact hf), hnib]

section
variable {s : State} {n : Nat} {o : InFlight}

/-- A finished operation without DEN frees its slot. -/
theorem finishOp_quiet (h : o.den.1 = false) :
    s.finishOp n o = (s.updNib n fun x => x.setSlot { o with written := true }).freeSlot n { o with written := true } := by
  rw [finishOp_eq, emitDone, if_pos]
  exact (congrArg (! ·) h : _)

/-- A finished operation with DEN frees its slot as its DONE token joins the queue. -/
theorem finishOp_emits (h : o.den.1 = true) (hr : (s.nib n).room o.den.2 = true) : s.finishOp n o =
    (((s.updNib n fun x => x.setSlot { o with written := true }).freeSlot n { o with written := true }).progress n o.unit).updNib n fun x =>
      x.enqueue o.den.2 (token o.gen o.epoch 1 o.addr) := by
  rw [finishOp_eq, emitDone, if_neg, if_pos]
  · rfl
  · rw [nib_updNib]
    exact hr
  · exact fun hd => Bool.false_ne_true ((congrArg (! ·) h).symm.trans hd)

/-- A finished operation whose DONE token finds no room waits. -/
theorem finishOp_waits (h : o.den.1 = true) (hr : (s.nib n).room o.den.2 = false) :
    s.finishOp n o = s.updNib n fun x => x.setSlot { o with written := true } := by
  rw [finishOp_eq, emitDone, if_neg, if_neg]
  · rw [nib_updNib]
    exact Bool.eq_false_iff.1 hr
  · exact fun hd => Bool.false_ne_true ((congrArg (! ·) h).symm.trans hd)

end

/-- Finishing an operation leaves whatever reads neither the nibs nor the objects. -/
theorem finishOp_same {β : Type} (g : State → β) (hg : ∀ (s : State) ns os, g { s with nibs := ns, objs := os } = g s) (s : State) (n : Nat)
    (o : InFlight) : g (s.finishOp n o) = g s := by
  have hupd (t : State) (f : Nib → Nib) : g (t.updNib n f) = g t := hg t _ t.objs
  cases h : o.den.1
  · rw [finishOp_quiet h, freeSlot_same _ _ _ g hg, hupd]
  cases hr : (s.nib n).room o.den.2
  · rw [finishOp_waits h hr, hupd]
  · rw [finishOp_emits h hr, hupd, progress, hupd, freeSlot_same _ _ _ g hg, hupd]

/-- Of its nib a finished operation leaves whatever reads neither the slots, the queues, the escape records nor the counts of progress. -/
theorem nib_finishOp_same {β : Type} (g : Nib → β) (hg : ∀ (x : Nib) os qs es p pa, g { x with
    slots := os, queues := qs, escs := es, progress := p, progressAt := pa } = g x) (s : State) (n : Nat) (o : InFlight) :
    g ((s.finishOp n o).nib n) = g (s.nib n) := by
  have hset (t : State) : g ((t.updNib n fun x => x.setSlot { o with written := true }).nib n) = g (t.nib n) := by
    rw [nib_updNib]
    exact hg (t.nib n) _ (t.nib n).queues (t.nib n).escs (t.nib n).progress (t.nib n).progressAt
  have hfree (t : State) : g ((t.freeSlot n { o with written := true }).nib n) = g (t.nib n) := by
    obtain ⟨es, p, pa, h⟩ := t.nib_freeSlot n { o with written := true }
    rw [h]
    exact hg (t.nib n) _ (t.nib n).queues es p pa
  cases h : o.den.1
  · rw [finishOp_quiet h, hfree, hset]
  cases hr : (s.nib n).room o.den.2
  · rw [finishOp_waits h hr, hset]
  · rw [finishOp_emits h hr, nib_updNib, progress, nib_updNib]
    exact (hg (State.nib _ n) (State.nib _ n).slots _ (State.nib _ n).escs _ _).trans ((hfree _).trans (hset s))

end State

/-- Settles O17: `State.completeOp_progress` for each engine, and the three ends of `State.finishOp`. -/
theorem engineOperationsComplete : Obligations.EngineOperationsComplete := by
  refine ⟨fun n s o k hecc => ⟨fun hop hw hf => ?_, fun hop hw hf => ?_, fun hop hw hf => ?_, fun hop hw hf => ?_, fun hop hw hf => ?_⟩,
    fun s n o => ⟨fun h => ?_, fun h hr => ?_, fun h hr => ?_, ?_, ?_, ?_, ?_⟩⟩
  · rw [exec_mmaComplete, execMmaComplete, State.mmaDone, hop]
    dsimp only
    rw [hw, ← State.completeOp_progress hop hecc hf]
  · rw [exec_vopComplete, execVopComplete, State.vopDone, hop]
    dsimp only
    rw [hw, ← State.completeOp_progress hop hecc hf]
  · rw [exec_cvtComplete, execCvtComplete, State.cvtDone, hop]
    dsimp only
    rw [hw, ← State.completeOp_progress hop hecc hf]
  · rw [exec_kappendComplete, execKappendComplete, State.kappendDone, hop]
    dsimp only
    rw [hw, ← State.completeOp_progress hop hecc hf]
  · rw [exec_kmaskComplete, execKmaskComplete, State.kmaskDone, hop]
    dsimp only
    rw [hw, ← State.completeOp_progress hop hecc hf]
  · obtain ⟨es, p, pa, hx⟩ := (s.updNib n fun x => x.setSlot { o with written := true }).nib_freeSlot n { o with written := true }
    rw [State.finishOp_quiet h, hx, State.nib_updNib]
  · obtain ⟨es, p, pa, hx⟩ := (s.updNib n fun x => x.setSlot { o with written := true }).nib_freeSlot n { o with written := true }
    rw [State.finishOp_emits h hr, State.nib_updNib, State.progress, State.nib_updNib, hx, State.nib_updNib]
    exact ⟨SMap.get_set_same .., rfl⟩
  · rw [State.finishOp_waits h hr, State.nib_updNib]
  · exact State.nib_finishOp_same Nib.mem (fun _ _ _ _ _ _ => rfl) s n o
  · exact State.nib_finishOp_same Nib.counters (fun _ _ _ _ _ _ => rfl) s n o
  · exact State.finishOp_same State.mesh (fun _ _ _ => rfl) s n o
  · exact State.finishOp_same State.desk (fun _ _ _ => rfl) s n o

end Sys2Proof.Machine
end

section
/-! SUPPORT. What the margin engine's operations on requests leave as it is (09 R285, R294-R301). -/

namespace Sys2Proof.Machine.State

/-- `g` reads nothing of what the margin engine changes when it sends, parks or completes a request: its own state, objects, quills, a
nib's queues and its mirror, and what comes with an event. -/
structure MarginBlind {β : Type} (g : State → β) : Prop where
  margin : ∀ (s : State) m, g { s with margin := m } = g s
  objs : ∀ (s : State) os, g { s with objs := os } = g s
  quills : ∀ (s : State) qs, g { s with quills := qs } = g s
  told : ∀ (s : State) a x f, g { s with agent := a, txl := x, fresh := f } = g s
  queues : ∀ (s : State) n qs, g (s.setNib n { s.nib n with queues := qs }) = g s
  mirror : ∀ (s : State) n m, g (s.setNib n { s.nib n with mirror := m }) = g s

/-- What of a nib reads neither its queues nor its mirror is blind to the margin engine. -/
theorem marginBlind_nib {β : Type} (g : Nib → β) (hq : ∀ (x : Nib) qs, g { x with queues := qs } = g x)
    (hm : ∀ (x : Nib) m, g { x with mirror := m } = g x) (n : Nat) : MarginBlind fun s => g (s.nib n) where
  margin _ _ := rfl
  objs _ _ := rfl
  quills _ _ := rfl
  told _ _ _ _ := rfl
  queues s _ qs := nib_updNib_same s g (f := fun x => { x with queues := qs }) (hq ..) n
  mirror s _ m := nib_updNib_same s g (f := fun x => { x with mirror := m }) (hm ..) n

variable {β : Type} {g : State → β} (hg : MarginBlind g)
include hg

theorem bump_blind (s : State) (i u k : Nat) : g (s.bump i u k) = g s := hg.objs s _

theorem event_blind (s : State) (c p d : Nat) : g (s.event c p d) = g s := s.eventIf_same g hg.told true c p d

theorem setRequest_blind (s : State) (i : Nat) (r : Option Request) : g (s.setRequest i r) = g s := hg.margin s _

theorem tellMargin_blind (s : State) (es kept : List MarginEvent) : g (s.tellMargin es kept) = g s := by
  induction es generalizing s kept with
  | nil => exact hg.margin s _
  | cons e es ih =>
    simp only [tellMargin]
    split
    · exact ih ..
    split
    · rw [ih, bump_blind hg, bump_blind hg]
    split
    · exact ih ..
    · rw [ih, bump_blind hg]
      exact hg.queues s e.nib _

theorem makeStale_blind (s : State) (n c : Nat) : g (s.makeStale n c) = g s := by
  simp only [makeStale]
  split
  · rfl
  · rw [event_blind hg, bump_blind hg]
    exact hg.mirror s n _

theorem mirrorDone_blind (s : State) (r : Request) (status : Nat) : g (s.mirrorDone r status) = g s := by
  simp only [mirrorDone]
  split
  · exact makeStale_blind hg ..
  split
  · exact bump_blind hg ..
  split
  · exact bump_blind hg ..
  split
  · exact (hg.mirror _ r.nib _).trans (bump_blind hg ..)
  · exact (hg.mirror _ r.nib _).trans (bump_blind hg ..)

theorem completeRequest_blind (s : State) (i status : Nat) : g (s.completeRequest i status) = g s := by
  simp only [completeRequest]
  split
  · rfl
  split
  · rw [tellMargin_blind hg]
    exact hg.margin s _
  · rw [mirrorDone_blind hg, bump_blind hg]
    exact hg.margin s _

theorem orphan_blind (s : State) (i : Nat) : g (s.orphan i) = g s := by
  simp only [orphan]
  split
  · rfl
  split
  · rw [setRequest_blind hg, bump_blind hg]
  · rw [completeRequest_blind hg, bump_blind hg]

theorem sendPacket_blind (s : State) (p : List Byte) : g (s.sendPacket p).1 = g s := by
  simp only [sendPacket]
  split
  · exact hg.margin s _
  split
  · rfl
  · exact hg.quills s _

theorem launchRequest_blind (s : State) (i : Nat) : g (s.launchRequest i) = g s := by
  simp only [launchRequest]
  split
  · rfl
  split
  · rw [setRequest_blind hg, sendPacket_blind hg]
  · rw [orphan_blind hg, setRequest_blind hg, sendPacket_blind hg]

theorem enterRequest_blind (s : State) (i : Nat) (r : Request) : g (s.enterRequest i r) = g s := by
  rw [enterRequest, bump_blind hg, setRequest_blind hg]

theorem issueRequest_blind (s : State) (n : Nat) (bs : List Byte) : g (s.issueRequest n bs) = g s := by
  have htook (p : Prop) [Decidable p] : g (if p then s else s.took) = g s := by
    split
    · rfl
    · exact hg.told s s.agent s.txl _
  have htxid (t : State) : g t.takeTxid.1 = g t := hg.margin t _
  unfold issueRequest
  extract_lets short h u t v h' r st
  have hv : g v = g s := (htxid u).trans (htook _)
  split
  · rw [completeRequest_blind hg, enterRequest_blind hg, hv]
  split
  · rw [completeRequest_blind hg, enterRequest_blind hg, hv]
  · rw [launchRequest_blind hg, enterRequest_blind hg, hv]

end Sys2Proof.Machine.State
end

section
/-! Proof of the statements on streams: send, recv and the packets of the mesh (02 R56, R57; 04 R123, R127, R130-R133). -/

namespace Sys2Proof.Machine

/-! ### send -/

namespace State

/-- A send reads its source whole where no word of it is in error and no fetch in flight writes it. -/
theorem sendBytes_clean {s : State} {n : Nat} {t : Tensor} (hecc : (s.nib n).ecc = []) (hf : s.fetching n t.rowRanges = []) :
    s.sendBytes n t = (s, t.dense (s.nib n).mem, none) := by
  rw [sendBytes, hecc]
  dsimp only [List.filter_nil, meetZeros]
  rw [viewed_idle hf]
  rfl

/-- The send that takes slot `k`, as the nib's program gives it (R133). -/
def sendOp (x : Nib) (k w : Nat) (t : Tensor) : InFlight :=
  { slot := k, kind := .send, word := w, addr := x.issue.addr, gen := x.tags.gen, epoch := x.tags.epoch,
    tensors := [t], reads := t.ranges, writes := [], left := t.denseSize }

/-- A send whose source could be read takes its slot. -/
theorem sendIssued_reads {u : State} {n k w : Nat} {t : Tensor} {x : Nib} (hi : (u.nib n).issue = x.issue) (ht : (u.nib n).tags = x.tags) :
    u.sendIssued n k w t none = .go ((u.updNib n fun x' => { x' with slots := x'.slots ++ [sendOp x k w t] }).progress n 3) := by
  rw [sendIssued, sendOp, hi, ht]

theorem launch_clean {s : State} {n k w : Nat} {t : Tensor} (hecc : (s.nib n).ecc = []) (hf : s.fetching n t.rowRanges = [])
    (mk : Nat → List Byte → Bool → Packet) : s.launch n k w t mk =
      .go (((s.inject n (packets mk (t.denseSize / 1024 + 1) 0 (t.dense (s.nib n).mem))).updNib n fun x' =>
        { x' with slots := x'.slots ++ [sendOp (s.nib n) k w t] }).progress n 3) := by
  rw [launch, sendBytes_clean hecc hf]
  exact sendIssued_reads rfl rfl

theorem sendMargin_clean {s : State} {n k w : Nat} {t : Tensor} (hecc : (s.nib n).ecc = []) (hf : s.fetching n t.rowRanges = []) :
    s.sendMargin n k w t = .go (((s.issueRequest n (t.dense (s.nib n).mem)).updNib n fun x' =>
      { x' with slots := x'.slots ++ [sendOp (s.nib n) k w t] }).progress n 3) := by
  rw [sendMargin, sendBytes_clean hecc hf]
  exact sendIssued_reads
    (issueRequest_blind (marginBlind_nib Nib.issue (fun _ _ => rfl) (fun _ _ => rfl) n) s n (t.dense (s.nib n).mem))
    (issueRequest_blind (marginBlind_nib Nib.tags (fun _ _ => rfl) (fun _ _ => rfl) n) s n (t.dense (s.nib n).mem))

end State

/-- What a send of KIND `kind` that is in order does with its message: to a nib, to a quill or to the margin engine (R130). -/
def State.sendBy (s : State) (n k w : Nat) (t : Tensor) : Nat → Issued
  | 0 => s.launch n k w t fun a bs last =>
      ⟨n, .nib (field w 42 36 * 64 + field w 35 30), (s.nib n).tags.gen, (s.nib n).tags.epoch,
        .data (field w 13 10) (64 * field w 29 14) t.denseSize (64 * field w 29 14 + a) bs last⟩
  | 1 => s.launch n k w t fun a bs _ =>
      ⟨n, .quill (field w 42 39), (s.nib n).tags.gen, (s.nib n).tags.epoch, .quill (64 * field w 29 14 + a) bs
        ((List.range (ceilDiv bs.length 64)).map fun i => t.denseAddr (a + 64 * i))⟩
  | _ => s.sendMargin n k w t

/-- A ready send whose operand, destination, engine and slot are in order goes on by its KIND. -/
theorem exec_send_ready {n : NibId} {w : BitVec 64} {s : State} {t : Tensor} {k : Nat} (h : s.ready n 0x20 w)
    (hr : sendReserved w.toNat = true) (ho : (s.nib n).operands [(field w.toNat 53 45, false)] = .ok [t]) (hs : t.scaleFault = false)
    (h0 : field w.toNat 44 43 = 0 → s.inGrid (field w.toNat 42 36) (field w.toNat 35 30) = true)
    (h1 : field w.toNat 44 43 = 1 → 64 * field w.toNat 29 14 + t.denseSize ≤ 65536 ∧
      s.landTouched (field w.toNat 42 39) (64 * field w.toNat 29 14) t.denseSize = false)
    (h2 : field w.toNat 44 43 = 2 → t.denseSize - 64 ≤ 2048 ∧ s.marginRoom = true) (hb : (s.nib n).streamBusy .sender = false)
    (hk : (s.nib n).freeSlotNo = some k) (hbusy : (s.nib n).rangeBusy t.ranges [] = false) :
    exec (.send n w) s = Issued.outcome s n (s.sendBy n k w.toNat t (field w.toNat 44 43)) := by
  have hg0 : ¬(field w.toNat 44 43 = 0 && !s.inGrid (field w.toNat 42 36) (field w.toNat 35 30) : Bool) = true := by
    simpa using h0
  have hg1 : ¬(field w.toNat 44 43 = 1 && (65536 < 64 * field w.toNat 29 14 + t.denseSize ||
      s.landTouched (field w.toNat 42 39) (64 * field w.toNat 29 14) t.denseSize) : Bool) = true := by
    simpa using h1
  have hg2 : ¬(field w.toNat 44 43 = 2 && 2048 < t.denseSize - 64 : Bool) = true := by
    simpa using fun h => (h2 h).1
  have hg3 : ¬(field w.toNat 44 43 = 2 && !s.marginRoom : Bool) = true := by
    simpa using fun h => (h2 h).2
  rw [exec_send, execSend, State.issue_ready h hr]
  dsimp only
  rw [ho]
  dsimp only
  rw [hs, if_neg Bool.false_ne_true, if_neg hg0, if_neg hg1, if_neg hg2, hb, if_neg Bool.false_ne_true, if_neg hg3, hk]
  dsimp only
  rw [hbusy, if_neg Bool.false_ne_true]
  generalize field w.toNat 44 43 = kind
  match kind with
  | 0 => rfl
  | 1 => rfl
  | _ + 2 => rfl

/-- What SEND_COMPLETE makes of a send whose flits have left. -/
theorem exec_sendComplete_left {n : NibId} {s : State} {o : InFlight} {d : PacketDest} (hop : s.engineOp n .send = some o)
    (hd : sendDest o.word = some d) (hl : s.flitsUnderway n d ≤ s.pathRoom n d) : exec (.sendComplete n) s = .next
      (if s.recovery.ended then s.updNib n fun x => { x with slots := x.slots.filter fun p => p.slot ≠ o.slot }
      else if o.stop.any (· < o.total) then s
      else (s.progress n 3).finishOp n { o with left := 0 }) := by
  have hleft : s.sendLeft n o = true := by
    rw [State.sendLeft, hd]
    exact decide_eq_true hl
  rw [exec_sendComplete, execSendComplete, State.sendDone, hop]
  dsimp only
  rw [hleft]
  rfl

/-- Settles O18: `State.launch_clean` and `State.sendMargin_clean` by KIND, and the three ends of a send. -/
theorem sendMessages : Obligations.SendMessages := by
  refine ⟨fun n w s t k h hr ho hs hb hk hbusy hecc hf o hobj => ?_, fun n s o d hop hd hl => ?_⟩
  · replace hobj : o = State.sendOp (s.nib n) k w.toNat t := hobj
    subst hobj
    refine ⟨fun hkind hgrid => ?_, fun hkind hlen hland => ?_, fun hkind hlen hroom => ?_⟩
    · rw [exec_send_ready h hr ho hs (fun _ => hgrid) (by omega) (by omega) hb hk hbusy, hkind]
      rw [State.sendBy, State.launch_clean hecc hf]
      rfl
    · rw [exec_send_ready h hr ho hs (by omega) (fun _ => ⟨hlen, hland⟩) (by omega) hb hk hbusy, hkind]
      rw [State.sendBy, State.launch_clean hecc hf]
      rfl
    · rw [exec_send_ready h hr ho hs (by omega) (by omega) (fun _ => ⟨hlen, hroom⟩) hb hk hbusy, hkind]
      rw [State.sendBy, State.sendMargin_clean hecc hf]
      · rfl
      · decide
      · decide
  · rw [exec_sendComplete_left hop hd hl]
    refine ⟨fun he hstop => ?_, fun he hstop => ?_, fun he => ?_⟩
    · have hany : ¬(o.stop.any (· < o.total)) = true := by
        cases hs : o.stop with
        | none => exact Bool.false_ne_true
        | some k => simpa using hstop k hs
      rw [he, if_neg Bool.false_ne_true, if_neg hany]
    · obtain ⟨k, hs, hlt⟩ := hstop
      have hany : (o.stop.any (· < o.total)) = true := by
        rw [hs]
        simpa using hlt
      rw [he, if_neg Bool.false_ne_true, if_pos hany]
    · rw [he, if_pos rfl]

/-! ### recv -/

/-- A ready recv whose operand, region, engine and slot are in order posts its region. -/
theorem exec_recv_ready {n : NibId} {w : BitVec 64} {s : State} {t : Tensor} {k : Nat} (h : s.ready n 0x21 w)
    (hr : recvReserved w.toNat = true) (ho : (s.nib n).operands [(field w.toNat 53 45, true)] = .ok [t]) (hs : t.scaleFault = false)
    (hland : field w.toNat 24 23 = 1 → 64 * field w.toNat 18 9 + t.denseSize ≤ 65536) (hb : (s.nib n).streamBusy .receiver = false)
    (hk : (s.nib n).freeSlotNo = some k) (hbusy : (s.nib n).rangeBusy [] t.ranges = false) :
    exec (.recv n w) s = .next (((s.updNib n fun x => { x with
      slots := x.slots ++ [{ slot := k, kind := .recv, word := w.toNat, addr := x.issue.addr, gen := x.tags.gen,
                             epoch := x.tags.epoch, tensors := [t], reads := [], writes := t.ranges,
                             left := field w.toNat 40 25 + 1 }] }).drainInbox n).issued n) := by
  have hg : ¬(field w.toNat 24 23 = 1 && 65536 < 64 * field w.toNat 18 9 + t.denseSize : Bool) = true := by
    simpa using hland
  rw [exec_recv, execRecv, State.issue_ready h hr]
  dsimp only
  rw [ho]
  dsimp only
  rw [hs, if_neg Bool.false_ne_true, if_neg hg, hb, if_neg Bool.false_ne_true, State.takeSlot_free hk hbusy]
  rfl

/-- RECV_COMPLETE of a landing buffer copies the range that has landed. -/
theorem exec_recvComplete_landed {n : NibId} {s u : State} {o : InFlight} {t : Tensor} {ts : List Tensor} {bs : List Byte}
    (hop : s.engineOp n .recv = some o) (ht : o.tensors = t :: ts) (hkind : field o.word 24 23 = 1)
    (hland : s.landed (field o.word 22 19) (64 * field o.word 18 9) t.denseSize = true)
    (hstamp : s.landStampOk n (field o.word 22 19) (64 * field o.word 18 9) t.denseSize = true)
    (hu : s.takeLanded (field o.word 22 19) (64 * field o.word 18 9) t.denseSize = (u, bs)) (hecc : (u.nib n).ecc = []) :
    exec (.recvComplete n) s = .next (((u.updNib n fun x => { x with mem := t.writeDense x.mem 0 bs }).progress n 4).finishOp n o) := by
  have hnibs : u.nib n = s.nib n := by
    have hfst := congrArg Prod.fst hu
    dsimp only at hfst
    rw [← hfst]
    rfl
  have hne : u.nib n ≠ Nib.fresh := State.ne_fresh_of_slots (by rw [hnibs]; exact State.slots_ne_nil_of_engineOp hop)
  rw [exec_recvComplete, execRecvComplete, State.recvDone, hop]
  dsimp only
  rw [ht]
  dsimp only
  rw [if_neg (by rw [hkind]; decide), hland, if_neg (by decide), hstamp, if_neg (by decide), hu]
  dsimp only
  rw [State.mergeStores_clean hecc]
  dsimp only
  rw [State.nib_setNib, State.updNib, State.nib_setNib, State.setNib_setNib hne, State.updNib]

/-- Settles O19. -/
theorem recvMessages : Obligations.RecvMessages := by
  refine ⟨fun n w s t k => exec_recv_ready, fun n s o t ts hop ht => ⟨fun hkind hleft => ?_, fun hkind hland hstamp hecc => ?_⟩⟩
  · rw [exec_recvComplete, execRecvComplete, State.recvDone, hop]
    dsimp only
    rw [ht]
    dsimp only
    rw [if_pos hkind, if_pos hleft]
  · exact exec_recvComplete_landed hop ht hkind hland hstamp rfl hecc

end Sys2Proof.Machine
end

section
/-! Proof of the statements on the reservoir instructions (04 R136, R137) and on kappend, kmask and kcommit (05 R152-R163). -/

namespace Sys2Proof.Machine

/-! ### rfetch, rstore and rwait -/

section
variable {n : NibId} {w : BitVec 64} {s : State} {t : Tensor}

/-- A transfer whose range is in order takes an entry of its queue with the desk address of R136. -/
theorem State.issueTransfer_clean {w : Nat} {store : Bool} (ho : (s.nib n).operands [(field w 53 45, !store)] = .ok [t])
    (hw : inWell t.base = true) (hs : t.scaled = false) (hva : transferVa (s.nib n) w + t.denseSize ≤ 2 ^ 47)
    (hroom : ((s.nib n).resQueue (field w 44 43)).length < 64) :
    s.issueTransfer n w store = .go (s.updNib n fun x => x.setResQueue (field w 44 43) (x.resQueue (field w 44 43) ++
      [{ word := w, va := transferVa x w, tensor := t }])) := by
  rw [issueTransfer]
  dsimp only
  rw [ho]
  dsimp only
  rw [hw, if_neg (by decide), hs, if_neg (by decide), if_neg (Nat.not_lt.2 hva), if_neg (Nat.not_le.2 hroom)]
  rfl

theorem exec_rfetch_ready (h : s.ready n 0x29 w) (hr : field w.toNat 6 0 = 0) :
    exec (.rfetch n w) s = Issued.outcome s n (s.issueTransfer n w.toNat false) := by
  rw [exec_rfetch, execRfetch, State.issue_ready h (decide_eq_true hr)]

theorem exec_rstore_ready (h : s.ready n 0x2A w) (hr : field w.toNat 6 0 = 0) :
    exec (.rstore n w) s = Issued.outcome s n (s.issueTransfer n w.toNat true) := by
  rw [exec_rstore, execRstore, State.issue_ready h (decide_eq_true hr)]

/-- A ready rwait goes on once at most N transfers are unretired. -/
theorem exec_rwait_few (h : s.ready n 0x2B w) (hr : field w.toNat 45 0 = 0)
    (hlen : ((s.nib n).resQueue (field w.toNat 53 52)).length ≤ field w.toNat 51 46) : exec (.rwait n w) s = .next (s.issued n) := by
  rw [exec_rwait, execRwait, State.issue_ready h (decide_eq_true hr)]
  dsimp only
  rw [if_pos hlen]
  rfl

/-- With more than N transfers unretired an rwait stops at an error of the oldest, and else waits. -/
theorem exec_rwait_many (h : s.ready n 0x2B w) (hr : field w.toNat 45 0 = 0) {t : Transfer} {ts : List Transfer}
    (hq : (s.nib n).resQueue (field w.toNat 53 52) = t :: ts) (hlen : field w.toNat 51 46 < ts.length + 1) :
    exec (.rwait n w) s = Issued.outcome s n
      (if t.isError && t.flight.isEmpty then
        .stop (((s.setNib n ((s.nib n).setResQueue (field w.toNat 53 52) ts)).queueTurned n (field w.toNat 53 52)).issueFault n 0x12
          none (field w.toNat 53 52 <<< 16))
      else .wait .reservoir) := by
  rw [exec_rwait, execRwait, State.issue_ready h (decide_eq_true hr)]
  dsimp only
  rw [hq, List.length_cons, if_neg (Nat.not_le.2 hlen)]

end

/-- Settles O22. -/
theorem reservoirInstructions : Obligations.ReservoirInstructions := by
  refine ⟨fun n w s => ⟨fun t h hr ho hw hs hva hroom => ?_, fun t h hr ho hw hs hva hroom => ?_,
    fun h hr => ⟨exec_rwait_few h hr, fun t ts hq hlen => ⟨fun he hf => ?_, fun hgo => ?_⟩⟩⟩, fun x w => rfl⟩
  · rw [exec_rfetch_ready h hr, State.issueTransfer_clean ho hw hs hva hroom]
    rfl
  · rw [exec_rstore_ready h hr, State.issueTransfer_clean ho hw hs hva hroom]
    rfl
  · rw [exec_rwait_many h hr hq hlen, he, hf, if_pos (by decide)]
    rfl
  · have hwait : ¬(t.isError && t.flight.isEmpty) = true := by
      simp only [Bool.and_eq_true, List.isEmpty_iff, not_and]
      exact fun he => hgo.resolve_left (by rw [he]; decide)
    rw [exec_rwait_many h hr hq hlen, if_neg hwait]
    rfl

/-! ### kappend -/

/-- R163's conditions on a kappend of a bound context. -/
def appendBarred (c : Context) (parent : Nat) (kt vt : Tensor) : Prop :=
  c.drafts = 64 ∨ c.cap ≤ c.committed + c.drafts ∨ (parent ≠ 0x7F ∧ c.drafts ≤ parent) ∨ kt.denseSize ≠ c.ek ∨ vt.denseSize ≠ c.ev ∨
    kt.scaled = true ∨ vt.scaled = true

section
variable {n : NibId} {w : BitVec 64} {s : State} {c : Context}

theorem exec_kappend_unbound (h : s.ready n 0x30 w) (hr : field w.toNat 38 31 = 0) (hr' : field w.toNat 9 0 = 0)
    (hc : c = (s.nib n).ctx (field w.toNat 53 48)) (hb : c.bound = false) :
    exec (.kappend n w) s = .next (s.issueFault n 0x0B none (field w.toNat 53 48)) := by
  rw [exec_kappend, execKappend, State.issue_ready h (by rw [hr, hr']; rfl)]
  dsimp only
  rw [← hc, hb, if_pos (by decide)]
  rfl

variable {kt vt : Tensor} (h : s.ready n 0x30 w) (hr : field w.toNat 38 31 = 0) (hr' : field w.toNat 9 0 = 0)
  (hc : c = (s.nib n).ctx (field w.toNat 53 48)) (hb : c.bound = true)
  (ho : (s.nib n).operands [(field w.toNat 47 39, false), (field w.toNat 30 22, false)] = .ok [kt, vt])

include h hr hr' hc hb ho

theorem exec_kappend_barred (hbar : appendBarred c (field w.toNat 21 15) kt vt) :
    exec (.kappend n w) s = .next (s.issueFault n 0x0B none (field w.toNat 53 48)) := by
  rw [exec_kappend, execKappend, State.issue_ready h (by rw [hr, hr']; rfl)]
  dsimp only
  rw [← hc, hb, if_neg (by decide), ho]
  dsimp only
  rw [if_pos (by simpa [appendBarred, or_assoc] using hbar)]
  rfl

theorem exec_kappend_free {k : Nat} (hk : (s.nib n).freeSlotNo = some k) (hbar : ¬appendBarred c (field w.toNat 21 15) kt vt)
    (hbusy : (s.nib n).rangeBusy (kt.ranges ++ vt.ranges)
      [c.keyAt (c.committed + c.drafts), c.valAt (c.committed + c.drafts)] = false) :
    exec (.kappend n w) s = .next (((s.setNib n { s.nib n with
      slots := (s.nib n).slots ++ [{ slot := k, kind := .kappend, word := w.toNat, addr := (s.nib n).issue.addr,
                                     gen := (s.nib n).tags.gen, epoch := (s.nib n).tags.epoch, tensors := [kt, vt],
                                     reads := kt.ranges ++ vt.ranges,
                                     writes := [c.keyAt (c.committed + c.drafts), c.valAt (c.committed + c.drafts)] }]
      }).updNib n fun x => x.setCtx (field w.toNat 53 48) { c with
        drafts := c.drafts + 1, parents := c.parents.take c.drafts ++ [field w.toNat 21 15]
        rest := c.rest.drop 1 }).issued n) := by
  rw [exec_kappend, execKappend, State.issue_ready h (by rw [hr, hr']; rfl)]
  dsimp only
  rw [← hc, hb, if_neg (by decide), ho]
  dsimp only
  rw [if_neg (by simpa [appendBarred, or_assoc] using hbar), State.takeSlot_free hk hbusy]
  rfl

end

/-! ### kmask and the draft mask -/

section
variable {n : NibId} {w : BitVec 64} {s : State} {c : Context} {t : Tensor}
variable (h : s.ready n 0x33 w) (hr : field w.toNat 33 0 = 0) (hc : c = (s.nib n).ctx (field w.toNat 53 48))
include h hr hc

theorem exec_kmask_unbound (hb : c.bound = false) :
    exec (.kmask n w) s = .next (s.issueFault n 0x0B none (field w.toNat 53 48)) := by
  rw [exec_kmask, execKmask, State.issue_ready h (decide_eq_true hr)]
  dsimp only
  rw [← hc, hb, if_pos (by decide)]
  rfl

/-- A ready kmask of a bound context takes a slot with the node table as it stands, where its destination is a mask tensor. -/
theorem exec_kmask_bound (hb : c.bound = true) (ho : (s.nib n).operands [(field w.toNat 47 39, true)] = .ok [t]) :
    exec (.kmask n w) s = Issued.outcome s n (if !maskShape t then .fault 0x0B none (field w.toNat 53 48)
      else s.takeSlot n .kmask w.toNat [t] [] t.ranges fun o => { o with nodes := c.parents.take c.drafts }) := by
  rw [exec_kmask, execKmask, State.issue_ready h (decide_eq_true hr)]
  dsimp only
  rw [← hc, hb, if_neg (by decide), ho]

end

/-- A node table whose parents come before their nodes is walked whole by any fuel above the node's number. -/
theorem ancestry_of_lt {ps : List Nat} (hps : ∀ k p, ps[k]? = some p → p = 0x7F ∨ p < k) :
    ∀ v f g, v < f → v < g → ancestry ps f v = ancestry ps g v := by
  intro v
  induction v using Nat.strongRecOn with
  | _ v ih =>
    intro f g hf hg
    obtain ⟨f, rfl⟩ := Nat.exists_eq_succ_of_ne_zero (Nat.ne_zero_of_lt hf)
    obtain ⟨g, rfl⟩ := Nat.exists_eq_succ_of_ne_zero (Nat.ne_zero_of_lt hg)
    rw [ancestry, ancestry]
    cases hv : ps[v]? with
    | none => rfl
    | some p =>
      dsimp only
      rcases hps v p hv with hroot | hlt
      · rw [if_pos hroot, if_pos hroot]
      · rw [ih p hlt f g (by omega) (by omega)]

/-- The mask shows to draft `i` itself and what it shows to its parent (R153, R156). -/
theorem ancestry_contains {ps : List Nat} (hps : ∀ k p, ps[k]? = some p → p = 0x7F ∨ p < k) {i : Nat} (hi : i < ps.length)
    (h64 : i < 64) (j : Nat) : (ancestry ps 64 i).contains j = true ↔
      j = i ∨ ∃ p, ps[i]? = some p ∧ p ≠ 0x7F ∧ (ancestry ps 64 p).contains j = true := by
  have hget : ps[i]? = some ps[i] := List.getElem?_eq_getElem hi
  rw [ancestry, hget]
  dsimp only
  by_cases hroot : ps[i] = 0x7F
  · simp [hroot]
  · have hlt : ps[i] < i := (hps i _ hget).resolve_left hroot
    rw [if_neg hroot, ancestry_of_lt hps ps[i] 63 64 (by omega) (by omega)]
    simp [hroot]

/-- The encoding of a mask element by format (R156). -/
theorem maskCode_eq (f : Fmt) (b : Bool) : maskCode f b = if b = true then (if f = .int8 then 1 else 0)
    else if f = .int8 then 0 else if f = .fp32 then 0xFF800000 else if f = .bf16 then 0xFF80 else 0xFC00 := by
  cases f <;> cases b <;> rfl

/-- Settles O23. -/
theorem kappendAndKmaskIssue : Obligations.KappendAndKmaskIssue := by
  refine ⟨fun n w s c hc => ⟨fun h hr hr' => ⟨exec_kappend_unbound h hr hr' hc, fun kt vt hb ho =>
      ⟨exec_kappend_barred h hr hr' hc hb ho, fun k hk h64 hcap hp hek hev hks hvs hbusy => ?_⟩⟩,
    fun h hr => ⟨exec_kmask_unbound h hr hc, fun t hb ho => ⟨fun hm => ?_, fun k hk hm hbusy => ?_⟩⟩⟩,
    fun ps i j hps hi h64 => ancestry_contains hps hi h64 j, fun o t ho => ?_⟩
  · refine exec_kappend_free h hr hr' hc hb ho hk ?_ hbusy
    rw [appendBarred, hks, hvs]
    simp only [Bool.false_eq_true, or_false]
    omega
  · rw [exec_kmask_bound h hr hc hb ho, hm]
    rfl
  · rw [exec_kmask_bound h hr hc hb ho, hm, State.takeSlot_free hk hbusy]
    rfl
  · refine ⟨⟨[], t.touched, t.wholeParts, fun m => mapElems t m fun i j =>
      { code := maskCode t.fmt ((ancestry o.nodes 64 i).contains j) }⟩, by rw [InFlight.kmaskWork, ho], rfl, rfl, fun m => ?_⟩
    simp only [maskCode_eq]

/-! ### kcommit -/

namespace State

section
variable {β : Type} (g : Nib → β)
variable (hg : ∀ (x : Nib) i os ws q m p a,
  g { x with issue := i, slots := os, inbox := ws, resq := q, mirror := m, progress := p, progressAt := a } = g x)
include hg

omit hg in
theorem nib_storeUe (t : State) (u : Bool) (m : Nat) : { t with recovery := { t.recovery with storeUe := u } }.nib m = t.nib m := rfl

/-- A fault leaves of each nib whatever reads none of what a fault and its abort change. -/
theorem nib_nibFault_same (s : State) (n : Nat) (f : FaultInfo) (m : Nat) : g ((s.nibFault n f).nib m) = g (s.nib m) := by
  have hn : (s.faultNoted n f).nib m = (s.setNib n (s.faulting n f)).nib m := by
    obtain ⟨os, k, hn⟩ := s.faultNoted_recordedAs n f
    rw [hn]
    rfl
  obtain ⟨u, hu⟩ := s.nibFault_eq n f
  have hblot : g (((s.faultNoted n f).blot 1).nib m) = g ((s.faultNoted n f).nib m) :=
    blot_nib_same (s := s.faultNoted n f) g (fun x i os ws q m => hg x i os ws q m x.progress x.progressAt) 1 m
  have hset : g ((s.setNib n (s.faulting n f)).nib m) = g (s.nib m) :=
    s.nib_updNib_same g (f := fun _ => s.faulting n f) (hg _ _ _ _ (s.nib n).resq (s.nib n).mirror (s.nib n).progress
      (s.nib n).progressAt) m
  rw [hu, nib_storeUe, hblot, hn, hset]

/-- So does the move of issue that follows an instruction. -/
theorem nib_issued_same (s : State) (n m : Nat) : g ((s.issued n).nib m) = g (s.nib m) := by
  have hmove (t : State) (a : Nat) : g ((t.moveIssue n a).nib m) = g (t.nib m) := by
    have hissue := t.nib_updNib_same g (n := n) (f := fun x => { x with issue := { x.issue with addr := a, hold := .none } })
      (hg _ _ (t.nib n).slots (t.nib n).inbox (t.nib n).resq (t.nib n).mirror (t.nib n).progress (t.nib n).progressAt) m
    rw [moveIssue]
    dsimp only
    split
    · exact (nib_nibFault_same g hg ..).trans hissue
    · exact hissue
  have hloops (t : State) (ls : List LoopLevel) :=
    t.nib_updNib_same g (n := n) (f := fun x => { x with issue := { x.issue with loops := ls } })
      (hg _ _ (t.nib n).slots (t.nib n).inbox (t.nib n).resq (t.nib n).mirror (t.nib n).progress (t.nib n).progressAt) m
  have hprogress : g ((s.progress n 0).nib m) = g (s.nib m) :=
    s.nib_updNib_same g (hg _ (s.nib n).issue (s.nib n).slots (s.nib n).inbox (s.nib n).resq (s.nib n).mirror _ _) m
  rw [issued, advance]
  exact (hmove ..).trans ((hloops ..).trans hprogress)

end

/-- Counting at home leaves the nibs alone. -/
theorem bumpHome_nib (s : State) (c : Context) (i k m : Nat) : (s.bumpHome c i k).nib m = s.nib m := by
  rw [bumpHome]
  split <;> rfl

/-- A commit is queued for the mirror, which leaves of each nib all but its mirror. -/
theorem noteCommit_nib_same {β : Type} (g : Nib → β) (hg : ∀ (x : Nib) m, g { x with mirror := m } = g x) (s : State) (n k i c m : Nat) :
    g ((s.noteCommit n k i c).nib m) = g (s.nib m) := by
  have hstale : g ((s.makeStale n k).nib m) = g (s.nib m) := by
    rw [makeStale]
    split
    · rfl
    · dsimp only
      rw [event_nib]
      exact s.nib_updNib_same g (f := fun x => { x with mirror := { x.mirror with
        stale := SMap.set false x.mirror.stale k true
        queue := x.mirror.queue.filter fun r => r.ctx ≠ k } }) (hg _ _) m
  rw [noteCommit]
  dsimp only
  split
  · rfl
  · split
    · exact hstale
    · exact s.nib_updNib_same g (f := fun x => { x with mirror := { x.mirror with
        queue := x.mirror.queue ++ [⟨k, i, c, 0, 0⟩] } }) (hg _ _) m

/-- A path that runs through the nodes in order moves no entry. -/
theorem moveEntries_in_order (s : State) (n : Nat) (c : Context) (m : Nat) :
    ∀ i, s.moveEntries n c i (List.range' i m) = (s, none) := by
  induction m with
  | zero => exact fun i => rfl
  | succ m ih =>
    intro i
    rw [List.range'_succ, moveEntries, if_pos rfl]
    exact ih (i + 1)

end State

/-- In order, no node is at another's place. -/
theorem count_moved_range (m : Nat) : ((List.range m).mapIdx fun i p => decide (p ≠ i)).count true = 0 := by
  refine List.count_eq_zero.2 fun h => ?_
  obtain ⟨i, hi, he⟩ := List.mem_mapIdx.1 h
  simp at he

/-- A LV of 0 commits the first N nodes where they form a chain. -/
theorem commitPath_chain {x : Nib} {c : Context} {w : Nat} (hlv : bit w 34 = false) (hn : field w 47 41 ≤ c.drafts)
    (hchain : ∀ i, i < field w 47 41 → c.parents[i]? = some (if i = 0 then 0x7F else i - 1)) :
    commitPath x c w = some (List.range (field w 47 41), field w 47 41) := by
  have hall : ((List.range (field w 47 41)).all fun i => c.parents[i]? = some (if i = 0 then 0x7F else i - 1)) = true :=
    List.all_eq_true.2 fun i hi => decide_eq_true (hchain i (List.mem_range.1 hi))
  rw [commitPath]
  dsimp only
  rw [hlv, if_pos (by decide), hall, decide_eq_true hn]
  rfl

/-- The context once `m` nodes in order have been committed (R160). -/
def Context.committing (c : Context) (m : Nat) : Context := { c with
  committed := c.committed + m
  drafts := (survivors c (List.range m)).length
  parents := survivors c (List.range m)
  rest := [] }

section
variable {n : NibId} {w : BitVec 64} {s : State} {c : Context} (h : s.ready n 0x31 w) (hr : field w.toNat 33 0 = 0)
variable (hmax : field w.toNat 47 41 ≤ 64) (hlv : bit w.toNat 34 = false) (hleaf : field w.toNat 40 35 = 0)
variable (hc : c = (s.nib n).ctx (field w.toNat 53 48)) (hb : c.bound = true) (hidle : (s.nib n).kvBusy (field w.toNat 53 48) = false)
variable (hn : field w.toNat 47 41 ≤ c.drafts)
variable (hchain : ∀ i, i < field w.toNat 47 41 → c.parents[i]? = some (if i = 0 then 0x7F else i - 1))
include h hr hmax hlv hleaf hc hb hidle hn hchain

/-- A ready kcommit of a chain moves no entry: it does nothing, or commits, counts and notes the commit. -/
theorem exec_kcommit_chain : exec (.kcommit n w) s = Issued.outcome s n
    (if field w.toNat 47 41 = 0 then .go s
    else .go (((((s.updNib n fun x => x.setCtx (field w.toNat 53 48) (c.committing (field w.toNat 47 41))).bumpHome c 0x8020
      (field w.toNat 47 41)).bumpHome c 0x8021 (c.drafts - field w.toNat 47 41 -
        (survivors c (List.range (field w.toNat 47 41))).length)).bumpHome c 0x8022 0).noteCommit n (field w.toNat 53 48) c.committed
          (field w.toNat 47 41))) := by
  have hleafOk : (if bit w.toNat 34 then field w.toNat 40 38 = 0 else field w.toNat 40 35 = 0 : Bool) = true := by
    rw [hlv, if_neg Bool.false_ne_true]
    exact decide_eq_true hleaf
  have htake : (List.range (field w.toNat 47 41)).take (field w.toNat 47 41) = List.range (field w.toNat 47 41) :=
    List.take_of_length_le (Nat.le_of_eq List.length_range)
  have hmoves : s.moveEntries n c 0 (List.range (field w.toNat 47 41)) = (s, none) := by
    rw [List.range_eq_range']
    exact s.moveEntries_in_order n c _ 0
  rw [exec_kcommit, execKcommit]
  dsimp only
  rw [State.issue_ready h (by rw [hr, decide_eq_true hmax]; simpa using hleafOk)]
  rw [← hc, hb, if_neg (by decide), hidle, if_neg Bool.false_ne_true, commitPath_chain hlv hn hchain]
  dsimp only
  rw [htake, count_moved_range, if_neg (by simp), hmoves, hlv]
  by_cases h0 : field w.toNat 47 41 = 0
  · rw [if_pos (by simp [h0]), if_pos h0]
  · rw [if_neg h0, if_neg (by simp [h0]), if_neg h0, if_neg h0]
    rfl

end

/-- Settles O25: a commit of a chain changes neither the memory nor, beyond its commit, the context. -/
theorem kcommitCommitsPath : Obligations.KcommitCommitsPath := by
  intro n w s h hr hmax hlv hleaf c hc hb hidle hn hchain
  rw [exec_kcommit_chain h hr hmax hlv hleaf hc hb hidle hn hchain]
  refine ⟨fun h0 => ?_, fun h0 => ?_⟩
  · rw [if_pos h0]
    rfl
  · rw [if_neg h0]
    refine ⟨_, rfl, ?_, ?_⟩
    · rw [State.nib_issued_same Nib.mem (fun _ _ _ _ _ _ _ _ => rfl), State.noteCommit_nib_same Nib.mem fun _ _ => rfl]
      simp only [State.bumpHome_nib, State.nib_updNib]
      rfl
    · rw [State.nib_issued_same (Nib.ctx · _) (fun _ _ _ _ _ _ _ _ => rfl), State.noteCommit_nib_same (Nib.ctx · _) fun _ _ => rfl]
      simp only [State.bumpHome_nib, State.nib_updNib]
      exact SMap.get_set_same ..

end Sys2Proof.Machine
end

section
/-! Proof of the statements on packets that reach a nib (02 R56, R57; 04 R123, R127, R131). -/

namespace Sys2Proof.Machine

namespace State

/-! ### A packet on its way to a local input -/

section
variable (s : State) (n src : Nat) (p : Packet) (rest : List Packet)

/-- Cycles held for a crossing are counted at 0x7015 and drawn from the free values. -/
theorem heldCycles_same {β : Type} (g : State → β) (hg : ∀ (t : State) k c, g (t.took.bump 0x7015 k c) = g t) (ks : List Nat) :
    g (s.heldCycles ks) = g s :=
  foldl_same g _ (fun t k => hg t k (t.free % 2 ^ 32)) ks s

/-- Flits that have moved are noted in the quires alone. -/
theorem meshMoved_same {β : Type} (g : State → β) (hg : ∀ (t : State) qs, g { t with quires := qs } = g t) (hs : List Hop) :
    g (s.meshMoved hs) = g s :=
  foldl_same g _ (fun t _ => hg t _) _ s

/-- What a packet's sender has done is noted in its counts of progress alone. -/
theorem senderMoved_same {β : Type} (g : State → β) (hg : ∀ (t : State) ns, g { t with nibs := ns } = g t) :
    g (s.senderMoved p) = g s := by
  rw [senderMoved]
  split
  · split
    · exact hg s _
    · rfl
  · rfl

theorem nib_senderMoved : ∃ pr pa, (s.senderMoved p).nib n = { s.nib n with progress := pr, progressAt := pa } := by
  rw [senderMoved]
  split
  · split
    · rw [progress]
      by_cases hn : n = p.src
      · rw [← hn, nib_updNib]
        exact ⟨_, _, rfl⟩
      · rw [nib_updNib_other _ _ hn]
        exact ⟨_, _, rfl⟩
    · exact ⟨_, _, rfl⟩
  · exact ⟨_, _, rfl⟩

/-- The packet `p` joins the local input of nib `n`, and the mesh is left with `rest` (R56, R58). -/
def packetJoins : State :=
  let w : Waiting := ⟨s.portOf src n, p⟩
  let hs := s.routeOf src (.nib n)
  let s := State.updNib { s with mesh := rest } n fun x => { x with inbox := x.inbox ++ [w] }
  ((s.meshMoved hs).senderMoved p).heldCycles (s.slowCrossings hs)

/-- A packet that joins a local input changes nibs, quires, the count of held cycles and the mesh alone. -/
theorem packetJoins_same {β : Type} (g : State → β) (hg : ∀ (t : State) ns qs, g { t with nibs := ns, quires := qs } = g t)
    (hheld : ∀ t : State, g (t.heldCycles (s.slowCrossings (s.routeOf src (.nib n)))) = g t) :
    g (s.packetJoins n src p rest) = g { s with mesh := rest } := by
  have hslow : slowCrossings (updNib { s with mesh := rest } n fun x => { x with inbox := x.inbox ++ [⟨s.portOf src n, p⟩] })
    (s.routeOf src (.nib n)) = s.slowCrossings (s.routeOf src (.nib n)) := rfl
  rw [packetJoins]
  rw [hslow, hheld, senderMoved_same _ _ g fun t ns => hg t ns t.quires, meshMoved_same _ g fun t qs => hg t t.nibs qs]
  exact hg { s with mesh := rest } _ s.quires

theorem nib_packetJoins : ∃ pr pa, (s.packetJoins n src p rest).nib n = { s.nib n with
    inbox := (s.nib n).inbox ++ [⟨s.portOf src n, p⟩], progress := pr, progressAt := pa } := by
  rw [packetJoins]
  dsimp only
  rw [heldCycles_same _ (fun t => t.nib n) fun _ _ _ => rfl]
  obtain ⟨pr, pa, h⟩ := nib_senderMoved (meshMoved
    (State.updNib { s with mesh := rest } n fun x => { x with inbox := x.inbox ++ [⟨s.portOf src n, p⟩] }) (s.routeOf src (.nib n))) n p
  rw [h, meshMoved_same _ (fun t => t.nib n) fun _ _ => rfl, nib_updNib]
  exact ⟨pr, pa, rfl⟩

/-- The packet `p` is offered to its nib, the local input empty but for it. -/
def packetOffered : State := (s.packetJoins n src p rest).updNib n fun x => { x with inbox := [] }

end

/-! ### One packet at the head of a local input -/

section
variable {s : State} {n : Nat} {w : Waiting}

/-- A packet that waits alone stays where it is. -/
theorem drainInbox_waits (hi : (s.nib n).inbox = [w])
    (h : (s.updNib n fun x => { x with inbox := [] }).localOutput n w.pkt = .waits) :
    s.drainInbox n = (s.updNib n fun x => { x with inbox := [] }).updNib n fun x => { x with inbox := [w] } := by
  rw [drainInbox, hi]
  rw [offer, if_neg (by simp), h]
  rfl

/-- A packet that is taken by a nib that goes on leaves the local input empty. -/
theorem drainInbox_taken {u : State} (hi : (s.nib n).inbox = [w])
    (h : (s.updNib n fun x => { x with inbox := [] }).localOutput n w.pkt = .taken u) (hu : (u.nib n).issue.run ≠ .faulting) :
    s.drainInbox n = u.updNib n fun x => { x with inbox := [] } := by
  rw [drainInbox, hi]
  rw [offer, if_neg (by simp), h]
  dsimp only
  rw [if_neg hu, offer]

section
variable {p : Packet} (hrun : (s.nib n).issue.run = .running) (he : s.recovery.ended = false)
include hrun he

theorem localOutput_stale (ha : (s.nib n).accepts p = false) : s.localOutput n p = .taken (s.bump 0x7016 (s.nibQuire n) 1) := by
  rw [localOutput]
  rw [hrun, if_neg (by decide), he, if_neg Bool.false_ne_true, ha, if_pos (by decide)]

theorem localOutput_signal {q v : Nat} (hb : p.body = .signal q v) (ha : (s.nib n).accepts p = true) (hr : (s.nib n).room q = true) :
    s.localOutput n p = .taken (s.updNib n fun x => x.enqueue q (token p.gen p.epoch 0 v)) := by
  rw [localOutput]
  rw [hrun, if_neg (by decide), he, if_neg Bool.false_ne_true, ha, if_neg (by decide), hb]
  dsimp only
  rw [hr, if_pos rfl]

theorem localOutput_data {q base total off : Nat} {bs : List Byte} {last : Bool} (hb : p.body = .data q base total off bs last)
    (ha : (s.nib n).accepts p = true) : s.localOutput n p = s.recvPacket n p q base total off bs last := by
  rw [localOutput]
  rw [hrun, if_neg (by decide), he, if_neg Bool.false_ne_true, ha, if_neg (by decide), hb]

end

theorem recvPacket_no_recv {q : Nat} (hq : (s.nib n).recvFor q = none) (p : Packet) (base total off : Nat) (bs : List Byte) (last : Bool) :
    s.recvPacket n p q base total off bs last = .waits := by
  rw [recvPacket, hq]

end

/-! ### A packet arrives -/

section
variable {s : State} {n src : Nat} {p : Packet} {rest : List Packet} {want : PacketBody → Bool}
variable (htake : takePacket src (.nib n) s.mesh = some (p, rest))
include htake

/-- Behind a held link nothing moves (R57). -/
theorem arrive_held (hb : s.heldBack src (.nib n) = true) : s.arrive n src want = s := by
  rw [arrive, htake]
  dsimp only
  rw [hb, Bool.or_true, if_pos rfl]

variable (hw : want p.body = true) (hb : s.heldBack src (.nib n) = false)
include hw hb

/-- A packet that may move joins the local input, which is then offered again. -/
theorem arrive_free : s.arrive n src want =
    if (((s.packetJoins n src p rest).drainInbox n).nib n).inbox.contains ⟨s.portOf src n, p⟩ then
      ((s.packetJoins n src p rest).drainInbox n).heldCycles (((s.packetJoins n src p rest).drainInbox n).fullCrossings
        (((((s.packetJoins n src p rest).drainInbox n).nib n).inbox.filter fun w => w.port ≠ 5).map Waiting.pkt))
    else (s.packetJoins n src p rest).drainInbox n := by
  rw [arrive, htake]
  dsimp only
  rw [hw, hb, if_neg (by decide)]
  rfl

variable (hi : (s.nib n).inbox = [])
include hi

/-- A packet that is taken on arrival leaves the local input empty. -/
theorem arrive_taken {u : State}
    (h : (s.packetOffered n src p rest).localOutput n p = .taken u)
    (hu : (u.nib n).issue.run ≠ .faulting) : s.arrive n src want = u.updNib n fun x => { x with inbox := [] } := by
  have hjoin : ((s.packetJoins n src p rest).nib n).inbox = [⟨s.portOf src n, p⟩] := by
    obtain ⟨pr, pa, hn⟩ := s.nib_packetJoins n src p rest
    rw [hn, hi]
    rfl
  rw [arrive_free htake hw hb, drainInbox_taken hjoin h hu, nib_updNib]
  rfl

/-- A packet that is not taken waits at the local input. -/
theorem arrive_waits (h : (s.packetOffered n src p rest).localOutput n p = .waits) :
    ∃ ks, s.arrive n src want = ((s.packetOffered n src p rest).updNib n fun x =>
      { x with inbox := [⟨s.portOf src n, p⟩] }).heldCycles ks := by
  have hjoin : ((s.packetJoins n src p rest).nib n).inbox = [⟨s.portOf src n, p⟩] := by
    obtain ⟨pr, pa, hn⟩ := s.nib_packetJoins n src p rest
    rw [hn, hi]
    rfl
  rw [arrive_free htake hw hb, drainInbox_waits hjoin h, nib_updNib]
  exact ⟨_, if_pos (by simp)⟩

omit htake hw hb in
/-- The nib to which a packet is offered: as it was, but for its counts of progress. -/
theorem nib_packet_offered : ∃ pr pa, (s.packetOffered n src p rest).nib n =
    { s.nib n with progress := pr, progressAt := pa } := by
  obtain ⟨pr, pa, hn⟩ := s.nib_packetJoins n src p rest
  refine ⟨pr, pa, ?_⟩
  rw [packetOffered, nib_updNib, hn, ← hi]

end

end State

section
variable {n src : NibId} {s : State} {p : Packet} {rest : List Packet} (htake : takePacket src (.nib n) s.mesh = some (p, rest))
variable (hb : s.heldBack src (.nib n) = false) (hi : (s.nib n).inbox = []) (hrun : (s.nib n).issue.run = .running)
variable (he : s.recovery.ended = false)

/-- What the state in which a packet is offered keeps besides the nib. -/
theorem State.packetOffered_same {β : Type} (g : State → β)
    (hg : ∀ (t : State) ns qs os f, g { t with nibs := ns, quires := qs, objs := os, fresh := f } = g t) :
    g (s.packetOffered n src p rest) = g { s with mesh := rest } :=
  (hg (s.packetJoins n src p rest) _ _ _ _).trans <|
    s.packetJoins_same n src p rest g (fun t ns qs => hg t ns qs t.objs t.fresh) fun t =>
      t.heldCycles_same g (fun t _ _ => hg t t.nibs t.quires _ _) _

theorem State.packetOffered_obj (hs : s.slowCrossings (s.routeOf src (.nib n)) = []) (i u : Nat) :
    (s.packetOffered n src p rest).obj i u = s.obj i u :=
  s.packetJoins_same n src p rest (fun t => t.obj i u) (fun _ _ _ => rfl) fun t => by rw [hs]; rfl

include htake hb hi hrun he

/-- A packet of a stamp the nib does not accept is dropped, and counted at 0x7016. -/
theorem arrive_stale {want : PacketBody → Bool} (hw : want p.body = true) (ha : (s.nib n).accepts p = false) :
    ∃ t, s.arrive n src want = t ∧ t.mesh = rest ∧ (t.nib n).inbox = [] ∧ (t.nib n).queues = (s.nib n).queues ∧
      (t.nib n).slots = (s.nib n).slots ∧ (t.nib n).mem = (s.nib n).mem ∧ (s.slowCrossings (s.routeOf src (.nib n)) = [] →
        t.obj 0x7016 (s.nibQuire n) = (s.obj 0x7016 (s.nibQuire n) + 1) % 2 ^ 64) := by
  obtain ⟨pr, pa, hx⟩ : ∃ pr pa, (s.packetOffered n src p rest).nib n = _ := State.nib_packet_offered hi
  have hquire : (s.packetOffered n src p rest).nibQuire n = s.nibQuire n :=
    State.packetOffered_same (fun t => t.nibQuire n) fun _ _ _ _ _ => rfl
  have hrecovery : (s.packetOffered n src p rest).recovery = s.recovery := State.packetOffered_same State.recovery fun _ _ _ _ _ => rfl
  have hmesh : (s.packetOffered n src p rest).mesh = rest := State.packetOffered_same State.mesh fun _ _ _ _ _ => rfl
  have hdrop := State.localOutput_stale (s := s.packetOffered n src p rest) (n := n) (p := p)
    (by rw [hx]; exact hrun) (by rw [hrecovery]; exact he) (by rw [hx]; exact ha)
  rw [hquire] at hdrop
  refine ⟨_, State.arrive_taken htake hw hb hi hdrop (by rw [State.bump_nib, hx, hrun]; decide), ?_, ?_, ?_, ?_, ?_, fun hs => ?_⟩
  · rw [State.updNib_mesh, State.bump_mesh, hmesh]
  · rw [State.nib_updNib]
  · rw [State.nib_updNib, State.bump_nib, hx]
  · rw [State.nib_updNib, State.bump_nib, hx]
  · rw [State.nib_updNib, State.bump_nib, hx]
  · rw [State.updNib_obj, State.obj_bump, State.packetOffered_obj hs]

/-- An accepted signal that has room is enqueued. -/
theorem arrive_signal {want : PacketBody → Bool} (hw : want p.body = true) {q v : Nat} (hp : p.body = .signal q v)
    (ha : (s.nib n).accepts p = true) (hroom : (s.nib n).room q = true) :
    ∃ t, s.arrive n src want = t ∧ t.mesh = rest ∧ (t.nib n).queue q = (s.nib n).queue q ++ [token p.gen p.epoch 0 v] ∧
      (t.nib n).inbox = [] ∧ (t.nib n).mem = (s.nib n).mem := by
  obtain ⟨pr, pa, hx⟩ : ∃ pr pa, (s.packetOffered n src p rest).nib n = _ := State.nib_packet_offered hi
  have hrecovery : (s.packetOffered n src p rest).recovery = s.recovery := State.packetOffered_same State.recovery fun _ _ _ _ _ => rfl
  have hmesh : (s.packetOffered n src p rest).mesh = rest := State.packetOffered_same State.mesh fun _ _ _ _ _ => rfl
  have htaken := State.localOutput_signal (s := s.packetOffered n src p rest) (n := n) (p := p)
    (by rw [hx]; exact hrun) (by rw [hrecovery]; exact he) hp (by rw [hx]; exact ha) (by rw [hx]; exact hroom)
  refine ⟨_, State.arrive_taken htake hw hb hi htaken (by rw [State.nib_updNib, hx]; simp [Nib.enqueue, hrun]), ?_, ?_, ?_, ?_⟩
  · rw [State.updNib_mesh, State.updNib_mesh, hmesh]
  · rw [State.nib_updNib, State.nib_updNib, hx]
    exact SMap.get_set_same ..
  · rw [State.nib_updNib]
  · rw [State.nib_updNib, State.nib_updNib, hx]
    rfl

/-- An accepted packet of a message waits while no recv of its queue is posted. -/
theorem arrive_no_recv {want : PacketBody → Bool} (hw : want p.body = true) {q base total off : Nat} {bs : List Byte} {last : Bool}
    (hp : p.body = .data q base total off bs last) (ha : (s.nib n).accepts p = true) (hrecv : (s.nib n).recvFor q = none) :
    ∃ t, s.arrive n src want = t ∧ t.mesh = rest ∧ (t.nib n).inbox = [⟨s.portOf src n, p⟩] ∧
      (t.nib n).queues = (s.nib n).queues ∧ (t.nib n).slots = (s.nib n).slots ∧ (t.nib n).mem = (s.nib n).mem := by
  obtain ⟨pr, pa, hx⟩ : ∃ pr pa, (s.packetOffered n src p rest).nib n = _ := State.nib_packet_offered hi
  have hrecovery : (s.packetOffered n src p rest).recovery = s.recovery := State.packetOffered_same State.recovery fun _ _ _ _ _ => rfl
  have hmesh : (s.packetOffered n src p rest).mesh = rest := State.packetOffered_same State.mesh fun _ _ _ _ _ => rfl
  have hwait := State.localOutput_data (s := s.packetOffered n src p rest) (n := n) (p := p)
    (by rw [hx]; exact hrun) (by rw [hrecovery]; exact he) hp (by rw [hx]; exact ha)
  rw [State.recvPacket_no_recv (by rw [hx]; exact hrecv)] at hwait
  obtain ⟨ks, hks⟩ := State.arrive_waits htake hw hb hi hwait
  refine ⟨_, hks, ?_⟩
  rw [State.heldCycles_same _ (fun t => t.nib n) fun _ _ _ => rfl, State.heldCycles_same _ State.mesh fun _ _ _ => rfl,
    State.nib_updNib, State.updNib_mesh, hmesh, hx]
  exact ⟨rfl, rfl, rfl, rfl, rfl⟩

end

/-- The packets that REMOTE_SIGNAL_ARRIVAL and STREAM_PACKET_ARRIVAL take. -/
def PacketBody.isSignal : PacketBody → Bool
  | .signal _ _ => true
  | _ => false

def PacketBody.isData : PacketBody → Bool
  | .data _ _ _ _ _ _ => true
  | _ => false

theorem exec_signalArrives (n src : NibId) (s : State) :
    exec (.remoteSignalArrival n src) s = .next (s.arrive n src PacketBody.isSignal) := rfl

theorem exec_dataArrives (n src : NibId) (s : State) :
    exec (.streamPacketArrival n src) s = .next (s.arrive n src PacketBody.isData) := rfl

/-- Settles O20. -/
theorem packetsArrive : Obligations.PacketsArrive := by
  intro n src s p rest htake
  rw [exec_signalArrives, exec_dataArrives]
  refine ⟨fun hb hi hrun he => ⟨fun q v hp ha hr => ?_, fun q v hp ha => ?_, fun q base total off bs last hp ha hr => ?_,
    fun q base total off bs last hp ha => ?_⟩, fun hb => ⟨?_, ?_⟩⟩
  · obtain ⟨t, h, ht⟩ := arrive_signal htake hb hi hrun he (want := PacketBody.isSignal) (by rw [hp]; rfl) hp ha hr
    exact ⟨t, congrArg Host.Outcome.next h, ht⟩
  · obtain ⟨t, h, hmesh, -, hqueues, -, -, hobj⟩ :=
      arrive_stale htake hb hi hrun he (want := PacketBody.isSignal) (by rw [hp]; rfl) ha
    exact ⟨t, congrArg Host.Outcome.next h, hmesh, hqueues, hobj⟩
  · obtain ⟨t, h, ht⟩ := arrive_no_recv htake hb hi hrun he (want := PacketBody.isData) (by rw [hp]; rfl) hp ha hr
    exact ⟨t, congrArg Host.Outcome.next h, ht⟩
  · obtain ⟨t, h, ht⟩ := arrive_stale htake hb hi hrun he (want := PacketBody.isData) (by rw [hp]; rfl) ha
    exact ⟨t, congrArg Host.Outcome.next h, ht⟩
  · exact congrArg Host.Outcome.next (State.arrive_held htake hb)
  · exact congrArg Host.Outcome.next (State.arrive_held htake hb)

/-! ### A packet and its recv -/

section
variable {s : State} {n q : Nat} {p : Packet} {base total : Nat} {o : InFlight} {t : Tensor} {ts : List Tensor}
variable (hrecv : (s.nib n).recvFor q = some o) (ht : o.tensors = t :: ts)
variable (hopen : o.partials.contains p.src = true ∨ o.admitted < o.left) (off : Nat) (bs : List Byte)
include hrecv ht hopen

/-- A message that does not fit the posted region raises STREAM_BOUNDS. -/
theorem recvPacket_unfit (hfit : t.denseSize < base + total) (last : Bool) : s.recvPacket n p q base total off bs last =
    .taken (s.nibFault n { code := 0x09, addr := o.addr, detail := q <<< 14 }) := by
  have hadmit : ¬(!o.partials.contains p.src && o.left ≤ o.admitted : Bool) = true := by
    simp only [Bool.and_eq_true, Bool.not_eq_true', decide_eq_true_eq, not_and, Nat.not_le]
    exact fun h => hopen.resolve_left (by rw [h]; decide)
  rw [State.recvPacket, hrecv]
  dsimp only
  rw [ht]
  dsimp only
  rw [if_neg hadmit, if_pos hfit]

/-- A packet that fits is written at its offset, and the recv's record moves on. -/
theorem recvPacket_fits (hfit : base + total ≤ t.denseSize) (hecc : (s.nib n).ecc = []) {last : Bool}
    (hroom : last = true → (s.nib n).room q = true) : ∃ o' u, u = ((s.setNib n (s.nib n)).updNib n fun x =>
        ({ x with mem := t.writeDense (s.nib n).mem off bs }).setSlot o').progress n 4 ∧
      s.recvPacket n p q base total off bs last = .taken (if last then u.updNib n fun x =>
        x.enqueue q (token p.gen p.epoch 2 (ceilDiv total 64)) else u) := by
  have hadmit : ¬(!o.partials.contains p.src && o.left ≤ o.admitted : Bool) = true := by
    simp only [Bool.and_eq_true, Bool.not_eq_true', decide_eq_true_eq, not_and, Nat.not_le]
    exact fun h => hopen.resolve_left (by rw [h]; decide)
  have hfull : ¬(last && !(s.nib n).room q) = true := by simpa using hroom
  rw [State.recvPacket, hrecv]
  dsimp only
  rw [ht]
  dsimp only
  rw [if_neg hadmit, if_neg (Nat.not_lt.2 hfit), if_neg hfull, State.mergeStores_clean hecc]
  dsimp only
  rw [State.nib_setNib]
  exact ⟨_, _, rfl, rfl⟩

end

/-- Settles O21: where the message does not fit, and `recvPacket_fits` for its last packet and for another. -/
theorem recvTakesPackets : Obligations.RecvTakesPackets := by
  intro n s p q base total off bs o t ts hrecv ht hopen
  refine ⟨fun hfit last => recvPacket_unfit hrecv ht hopen off bs hfit last, fun hfit hecc hroom => ?_, fun hfit hecc => ?_⟩
  · obtain ⟨o', u, hu, h⟩ := recvPacket_fits hrecv ht hopen off bs hfit hecc (last := true) fun _ => hroom
    refine ⟨_, h, ?_⟩
    rw [if_pos rfl, State.nib_updNib, hu, State.progress, State.nib_updNib, State.nib_updNib, State.nib_setNib]
    exact ⟨rfl, SMap.get_set_same ..⟩
  · obtain ⟨o', u, hu, h⟩ := recvPacket_fits hrecv ht hopen off bs hfit hecc (last := false) fun h => absurd h (by decide)
    refine ⟨_, h, ?_⟩
    rw [if_neg (by decide), hu, State.progress, State.nib_updNib, State.nib_updNib, State.nib_setNib]
    exact ⟨rfl, rfl⟩

end Sys2Proof.Machine
end

section
/-! Proof of the statements on the scrubber, the desk controller and the chunks of transfers (02 R35, R36; 06 R176-R195), and on reset. -/

namespace Sys2Proof.Machine

/-! ### The scrubber -/

namespace State

section
variable {s : State} {n : NibId} (hon : s.obj 0x4011 0 ≠ 0) (hclock : s.clocked n = true)
include hon hclock

/-- A running scrubber meets the words in error of its next row, those of the upsets among them. -/
theorem scrub_runs (us : List Upset) {ecc : SMap Nat} (hecc : noteUpsets (s.nib n).ecc us = ecc) : s.scrub n us =
    ((s.updNib n fun x => { x with ecc := ecc }).updNib n fun x => { x with scrubRow := (x.scrubRow + 1) % wellRows }).scrubWords n
      (ecc.filter fun e => wordIn e.1 (wellBase + 128 * (s.nib n).scrubRow, 128)) := by
  have hstop : ¬(s.obj 0x4011 0 = 0 || !s.clocked n : Bool) = true := by simp [hon, hclock]
  subst hecc
  rw [scrub]
  dsimp only
  have hstop' (f : Nib → Nib) : ¬((s.updNib n f).obj 0x4011 0 = 0 || !(s.updNib n f).clocked n : Bool) = true := hstop
  rw [if_neg (hstop' _), nib_updNib, nib_updNib, nib_updNib]
  rfl

end

/-- Over words without errors the scrubber moves on, and changes nothing else. -/
theorem nib_scrub_clean {s : State} {n : Nat} (hecc : (s.nib n).ecc = []) :
    ((s.updNib n fun x => { x with ecc := [] }).updNib n fun x => { x with scrubRow := (x.scrubRow + 1) % wellRows }).nib n =
      { s.nib n with scrubRow := ((s.nib n).scrubRow + 1) % wellRows } := by
  rw [nib_updNib, nib_updNib, ← hecc]

theorem scrubWords_nil (s : State) (n : Nat) : s.scrubWords n [] = s := rfl

/-- A word with one bit in error is corrected and counted (R36). -/
theorem scrubWords_single (s : State) (n w : Nat) : s.scrubWords n [(w, 1)] =
    (s.updNib n fun x => { x with ecc := SMap.set 0 x.ecc w 0 }).bump (ceCounter w) (s.nibQuire n) 1 := rfl

end State

/-- An upset of one bit in a word of the row that the scrubber reads next is noted there. -/
theorem noteUpsets_row {row i : Nat} (hrow : row < 24576) (hi : i < 16) :
    noteUpsets [] [⟨(wellBase + 128 * row) / 8 + i, 1⟩] = [(wellBase + 128 * row + 8 * i, 1)] ∧
      inWell (wellBase + 128 * row + 8 * i) = true ∧
      wordIn (wellBase + 128 * row + 8 * i) (wellBase + 128 * row, 128) = true := by
  have haddr : 8 * ((wellBase + 128 * row) / 8 + i) = wellBase + 128 * row + 8 * i := by
    rw [wellBase]
    omega
  have hwell : inWell (wellBase + 128 * row + 8 * i) = true := by
    rw [inWell, Bool.and_eq_true, decide_eq_true_eq, decide_eq_true_eq, wellBase, wellEnd]
    omega
  refine ⟨?_, hwell, ?_⟩
  · rw [noteUpsets, List.foldl_cons, List.foldl_nil, haddr, hwell, Bool.or_true, Bool.and_true, if_pos (decide_eq_true Nat.one_ne_zero)]
    rfl
  · simp only [wordIn, overlaps, Bool.and_eq_true, decide_eq_true_eq]
    omega

/-- Settles O26. -/
theorem scrubberCorrects : Obligations.ScrubberCorrects := by
  intro n s hon hclock hecc
  have hclean := State.scrub_runs hon hclock [] hecc
  rw [List.filter_nil, State.scrubWords_nil] at hclean
  refine ⟨⟨_, congrArg Host.Outcome.next hclean, ?_, fun m hm => ?_, ?_⟩, fun i hi hrow => ?_⟩
  · exact State.nib_scrub_clean hecc
  · exact (State.nib_updNib_other _ _ hm).trans (State.nib_updNib_other _ _ hm)
  · exact State.updNib_only_nibs _ _ (State.updNib_only_nibs _ _ rfl)
  · obtain ⟨hnote, hwell, hrowIn⟩ := noteUpsets_row hrow hi
    have hrun := State.scrub_runs hon hclock [⟨(wellBase + 128 * (s.nib n).scrubRow) / 8 + i, 1⟩]
      (ecc := [(wellBase + 128 * (s.nib n).scrubRow + 8 * i, 1)]) (by rw [hecc]; exact hnote)
    rw [List.filter_cons_of_pos (by exact hrowIn), List.filter_nil, State.scrubWords_single, ceCounter, if_pos hwell] at hrun
    refine ⟨_, congrArg Host.Outcome.next hrun, ?_, ?_, ?_, ?_⟩
    · rw [State.bump_nib, State.nib_updNib, State.nib_updNib, State.nib_updNib]
      simp [SMap.set, SMap.erase]
    · rw [State.bump_nib, State.nib_updNib, State.nib_updNib, State.nib_updNib]
    · rw [State.bump_nib, State.nib_updNib, State.nib_updNib, State.nib_updNib]
      rfl
    · exact State.obj_bump ..

/-! ### The desk controller -/

/-- Settles O30: each row reads whether the devices run, and its one condition. -/
theorem deskControllerRecords : Obligations.DeskControllerRecords := by
  refine ⟨fun s ch v hself => ?_, fun s ch v errors drift hself => ?_, fun s g hg => ?_⟩
  · have hruns : s.deskRuns = true := by rw [State.deskRuns, hself]; rfl
    refine ⟨fun errors t ht => ?_, ?_, ?_, ?_, ?_⟩
    · rw [exec_perBankRefresh, execPerBankRefresh, if_pos hruns, ht]
      rfl
    · rw [exec_refreshManagement, execRefreshManagement, if_pos hruns]
      rfl
    · rw [exec_wck2dqOscillatorRead, execWck2dqOscillatorRead, hruns]
      rfl
    · rw [exec_wck2dqOscillatorRead, execWck2dqOscillatorRead, Bool.and_false]
      rfl
    · rw [exec_writeLinkEccPoll, execWriteLinkEccPoll, if_pos hruns]
      rfl
  · have hruns : ¬s.deskRuns = true := by rw [State.deskRuns, hself]; decide
    refine ⟨?_, ?_, ?_, ?_⟩
    · rw [exec_perBankRefresh, execPerBankRefresh, if_neg hruns]
    · rw [exec_refreshManagement, execRefreshManagement, if_neg hruns]
    · rw [exec_wck2dqOscillatorRead, execWck2dqOscillatorRead, Bool.eq_false_iff.2 hruns]
      rfl
    · rw [exec_writeLinkEccPoll, execWriteLinkEccPoll, if_neg hruns]
  · rw [exec_translationFlushComplete, execTranslationFlushComplete, State.endFlush, hg]
    refine ⟨fun hold => ?_, fun hold => ?_⟩
    · dsimp only
      rw [hold, if_neg Bool.false_ne_true]
    · dsimp only
      rw [hold, if_pos rfl]

/-! ### Transfers of a queue -/

namespace State

section
variable (s : State) (n q i : Nat) (f : Transfer → Transfer)

theorem resQueue_updTransfer : ((s.updTransfer n q i f).nib n).resQueue q = ((s.nib n).resQueue q).modify i f := by
  rw [updTransfer, nib_updNib]
  exact SMap.get_set_same ..

variable {s n q i} in
/-- A transfer changed is found changed. -/
theorem getElem?_updTransfer {t : Transfer} (h : ((s.nib n).resQueue q)[i]? = some t) :
    (((s.updTransfer n q i f).nib n).resQueue q)[i]? = some (f t) := by
  rw [resQueue_updTransfer, List.getElem?_modify_eq, h]
  rfl

/-- A queue whose oldest transfer changes is at most unchecked. -/
theorem queueTurned_same {β : Type} (g : State → β) (hg : ∀ (t : State) m, g { t with recovery := { t.recovery with samples := m } } = g t) :
    g (s.queueTurned n q) = g s := by
  rw [queueTurned]
  split
  · split
    · exact hg s _
    · rfl
  · rfl

end

/-! ### The log of events -/

theorem lapEvent_log (s : State) (x : Session) (rs : List EventRec) (k : Nat) : (s.lapEvent x rs k).agent.log = s.agent.log := by
  rw [lapEvent]
  dsimp only
  split
  · rfl
  · rw [placeEvt]
    split <;> rfl

/-- An event is the last of the log. -/
theorem event_log_last (s : State) (c p d : Nat) :
    ((s.event c p d).agent.log.getLast?.map fun r => (r.code, r.param)) = some (c, p % 2 ^ 16) := by
  have hlast (L : List EventRec) (r : EventRec) : ((L ++ [r]).drop ((L ++ [r]).length - 64)).getLast? = some r := by
    rw [List.getLast?_drop, if_neg (by rw [List.length_append, List.length_singleton]; omega), List.getLast?_concat]
  rw [event]
  dsimp only
  split
  · rw [hlast]
    rfl
  · rw [foldl_same (fun t => t.agent.log) _ fun t x => t.lapEvent_log x _ _]
    exact congrArg _ (hlast ..)

/-! ### Reads of desk memory without errors -/

theorem expectLinks_nil (s : State) (a : Nat) : s.expectLinks a [] = s := rfl

/-- Where nothing in desk memory is in error, a read of it meets nothing and changes nothing. -/
theorem readBlocks_clean {s : State} (he : s.desk.ecc = []) (hl : s.desk.link = []) (ha : s.desk.astray = []) (p : Nat → Bool) :
    s.readBlocks p = (s, []) := by
  have hdesk : { s with desk := { s.desk with ecc := [], link := [], astray := [] } } = s := by rw [← he, ← hl, ← ha]
  rw [readBlocks]
  simp only [he, hl, ha, List.filter_nil, List.map_nil, ite_self, meetLinks, meetBlocks, List.foldl_nil, List.append_nil]
  exact Prod.ext hdesk rfl

end State

/-! ### Chunks -/

section
variable {n : NibId} {rq : RqId} {s : State}

/-- The chunk that CHUNK_START adds to a transfer, by what its translation comes to (R186). -/
def State.chunkStarted (s : State) (n : Nat) (t : Transfer) (r : State × Trans) : Chunk :=
  let was := if t.store then (t.wellAddrs t.next).map fun a => (s.nib n).mem.read a else []
  match r.2 with
  | .ok pa _ => ⟨t.next, pa, 0, s.now, r.1.desk.tlbGen, was⟩
  | .cause e => ⟨t.next, 0, e, s.now, r.1.desk.tlbGen, []⟩

/-- Lines that a started chunk recalls (R190). -/
def Trans.recall (r : Trans) (v : State) (len : Nat) (store : Bool) : State :=
  match r with
  | .ok pa true => v.claimLines pa len store
  | _ => v

/-- The next chunk of a queue that may start one starts with its translation. -/
theorem exec_chunkStart_free {i : Nat} {t : Transfer} (hstart : nextStarter 0 ((s.nib n).resQueue rq) = some i)
    (ht : ((s.nib n).resQueue rq)[i]? = some t) (hmay : s.chunksStart = true) (hroom : queueFlight ((s.nib n).resQueue rq) < 8)
    (hnew : ∀ k ∈ t.flight, k.idx ≠ t.next) {r : State × Trans} (hr : s.translate (t.chunkVa t.next) t.store = r) :
    exec (.chunkStart n rq) s = .next (r.2.recall (r.1.updTransfer n rq i fun x => { x with
      next := t.next + 1, flight := x.flight ++ [s.chunkStarted n t r] }) (t.chunkLen t.next) t.store) := by
  have hbusy : ¬(!s.chunksStart || 8 ≤ queueFlight ((s.nib n).resQueue rq) : Bool) = true := by
    simp only [hmay, Bool.not_true, Bool.false_or, decide_eq_true_eq]
    omega
  have hold : ¬(t.flight.any fun k => k.idx = t.next) = true := by simpa using hnew
  rw [exec_chunkStart, execChunkStart, State.startChunk]
  dsimp only
  rw [hstart]
  dsimp only
  rw [ht]
  dsimp only
  rw [if_neg hbusy, if_neg hold, hr]
  obtain ⟨u, tr⟩ := r
  cases tr with
  | ok pa coh => cases coh <;> rfl
  | cause e => rfl

section
variable {chunk i : Nat} {ecc : List LinkEcc} {t : Transfer} {k : Chunk}
variable (hfind : findFlight chunk 0 ((s.nib n).resQueue rq) = some (i, t, k))
variable (holder : s.olderMeets ((s.nib n).resQueue rq) i t k = false)
variable (hlines : k.cause = 0 → s.linesHeld k.pa (t.chunkLen chunk) t.store = false)
include hfind holder hlines

/-- A chunk that need not wait completes where its bytes can be moved. -/
theorem exec_chunkComplete_moves (hgoes : (s.moveChunk n t k ecc).1.recovery.ended = false) (hok : (s.moveChunk n t k ecc).2 = 0) :
    exec (.chunkComplete n rq chunk ecc) s = .next (((s.moveChunk n t k ecc).1.updTransfer n rq i fun u => { u with
      flight := u.flight.filter fun j => j.idx ≠ chunk
      done := if u.done.contains chunk then u.done else u.done ++ [chunk] }).progress n (5 + rq.val)) := by
  have hheld : ¬(k.cause = 0 && s.linesHeld k.pa (t.chunkLen chunk) t.store : Bool) = true := by simpa using hlines
  have hnow (f : Transfer → Transfer) (j : Nat) :
      (((s.moveChunk n t k ecc).1.updTransfer n rq i f).progress n j).recovery.ended = false := hgoes
  rw [exec_chunkComplete, execChunkComplete, State.completeChunk]
  dsimp only
  rw [hfind]
  dsimp only
  rw [holder, if_neg Bool.false_ne_true, if_neg hheld, if_neg (not_not_intro hok), hnow, if_neg Bool.false_ne_true]

/-- A chunk that need not wait faults where its bytes cannot be moved. -/
theorem exec_chunkFault_faults (hbad : (s.moveChunk n t k ecc).2 ≠ 0) : exec (.chunkFault n rq chunk ecc) s =
    .next ((s.moveChunk n t k ecc).1.chunkFaulted n rq i chunk (s.moveChunk n t k ecc).2) := by
  have hheld : ¬(k.cause = 0 && s.linesHeld k.pa (t.chunkLen chunk) t.store : Bool) = true := by simpa using hlines
  rw [exec_chunkFault, execChunkFault, State.faultChunk]
  dsimp only
  rw [hfind]
  dsimp only
  rw [holder, if_neg Bool.false_ne_true, if_neg hheld, if_neg hbad]

end

/-- The oldest transfer of a queue retires once it is complete with nothing in flight (R137). -/
theorem exec_transferRetire_done {t : Transfer} {ts : List Transfer} (hq : (s.nib n).resQueue rq = t :: ts) (hc : t.complete = true)
    (hf : t.flight = []) (hst : t.st = .active) (hrun : (s.nib n).issue.run = .running) : exec (.transferRetire n rq) s =
    .next (((s.updNib n fun x => x.setResQueue rq ts).progress n (5 + rq.val)).queueTurned n rq) := by
  have hgo : ((((s.updNib n fun x => x.setResQueue rq ts).progress n (5 + rq.val)).queueTurned n rq).nib n).issue.run = .running := by
    rw [State.queueTurned_same _ _ _ (fun t => (t.nib n).issue.run) fun _ _ => rfl, State.progress, State.nib_updNib, State.nib_updNib]
    exact hrun
  rw [exec_transferRetire, execTransferRetire, State.retire]
  dsimp only
  rw [hq]
  dsimp only
  rw [hc, hf, hst, if_pos (by decide), hgo, if_neg (by decide)]

end

namespace State

section
variable {s : State} {n : Nat} {t : Transfer} {k : Chunk} (hcause : k.cause = 0) (hecc : (s.nib n).ecc = [])
variable (hdesk : s.desk.ecc = []) (hlink : s.desk.link = []) (hastray : s.desk.astray = [])
include hcause hecc hdesk hlink hastray

/-- An rstore chunk whose well bytes stand as at its start writes them to desk memory. -/
theorem moveChunk_store (hstore : t.store = true)
    (hwas : k.was = [] ∨ k.was = (t.wellAddrs k.idx).map fun a => (s.nib n).mem.read a) :
    s.moveChunk n t k [] = (s.deskPut k.pa ((t.wellAddrs k.idx).map fun a => (s.nib n).mem.read a), 0) := by
  have hbytes : s.storeBytes n (t.wellAddrs k.idx) k.was = (s, (t.wellAddrs k.idx).map fun a => (s.nib n).mem.read a) := by
    have hsame : (k.was = ((t.wellAddrs k.idx).map fun a => (s.nib n).mem.read a) || k.was.isEmpty : Bool) = true := by
      rcases hwas with h | h
      · simp [h]
      · simp [← h]
    rw [storeBytes]
    dsimp only
    rw [if_pos hsame]
  rw [moveChunk]
  dsimp only
  rw [expectLinks_nil, if_neg (not_not_intro hcause), if_pos hstore, readStores_clean hecc]
  dsimp only
  rw [hbytes]
  dsimp only
  rw [deskMerge, readBlocks_clean hdesk hlink hastray]
  rfl

/-- An rfetch chunk writes the desk bytes to the well. -/
theorem moveChunk_fetch (hstore : t.store = false) : s.moveChunk n t k [] = ((s.setNib n (s.nib n)).updNib n fun x => { x with
    mem := putBytes (t.wellAddrs k.idx) (blankBytes 0 [] k.pa (s.deskBytes k.pa (t.chunkLen k.idx))) (s.nib n).mem }, 0) := by
  rw [moveChunk]
  dsimp only
  rw [expectLinks_nil, if_neg (not_not_intro hcause), hstore, if_neg Bool.false_ne_true, deskRead, readBlocks_clean hdesk hlink hastray]
  dsimp only
  rw [mergeStores_clean hecc]
  dsimp only
  rw [nib_setNib]
  rfl

end

end State

/-- With no unreadable block nothing is blanked. -/
theorem blankBytes_nil (b : Byte) (pa : Nat) (bs : List Byte) : blankBytes b [] pa bs = bs := by
  rw [blankBytes]
  refine List.ext_getElem (by simp) fun i h _ => ?_
  simp

/-- Settles O27. -/
theorem chunksMoveTransfers : Obligations.ChunksMoveTransfers := by
  refine ⟨fun n rq s => ⟨fun i t hstart ht hmay hroom hnew u hu => ⟨fun pa coh hok v hv => ?_, fun e hcause => ?_⟩,
    fun chunk ecc i t k hfind holder hlines hgoes => ⟨exec_chunkComplete_moves hfind holder hlines hgoes,
      exec_chunkFault_faults hfind holder hlines⟩, fun t ts => exec_transferRetire_done⟩,
    fun n s t k hcause hecc hdesk hlink hastray => ⟨fun hstore hwas => ?_, fun hstore => ?_⟩⟩
  · have hr : s.translate (t.chunkVa t.next) t.store = (u, .ok pa coh) := Prod.ext hu.symm hok
    rw [exec_chunkStart_free hstart ht hmay hroom hnew hr, hv]
    cases coh <;> rfl
  · have hr : s.translate (t.chunkVa t.next) t.store = (u, .cause e) := Prod.ext hu.symm hcause
    rw [exec_chunkStart_free hstart ht hmay hroom hnew hr]
    rfl
  · rw [State.moveChunk_store hcause hecc hdesk hlink hastray hstore hwas]
    exact ⟨rfl, rfl⟩
  · rw [State.moveChunk_fetch hcause hecc hdesk hlink hastray hstore, State.nib_updNib, blankBytes_nil]
    exact ⟨rfl, rfl, rfl⟩

/-! ### Chunks that time out -/

section
variable {n : NibId} {rq : RqId} {s : State} {chunk i : Nat} {t : Transfer} {k : Chunk}
variable (hfind : findFlight chunk 0 ((s.nib n).resQueue rq) = some (i, t, k))
include hfind

/-- A chunk within its 20 µs, or one that waits behind a held transfer, is left alone. -/
theorem exec_chunkTimeout_waits (h : (((s.nib n).resQueue rq).take i).any (fun u => u.isStopped && s.meets u t k) = true ∨
    s.now ≤ k.start + 20000) : exec (.chunkTimeout n rq chunk) s = .next s := by
  rw [exec_chunkTimeout, execChunkTimeout, State.timeoutChunk]
  rw [hfind]
  dsimp only
  by_cases hb : (((s.nib n).resQueue rq).take i).any (fun u => u.isStopped && s.meets u t k) = true
  · rw [if_pos hb]
  · rw [if_neg hb, if_neg (Nat.not_lt.2 (h.resolve_left hb))]

/-- A later one faults with cause DESK_UE (R192). -/
theorem exec_chunkTimeout_late (hb : (((s.nib n).resQueue rq).take i).any (fun u => u.isStopped && s.meets u t k) = false)
    (hlate : k.start + 20000 < s.now) : exec (.chunkTimeout n rq chunk) s = .next (s.chunkFaulted n rq i chunk 3) := by
  rw [exec_chunkTimeout, execChunkTimeout, State.timeoutChunk]
  rw [hfind]
  dsimp only
  rw [hb, if_neg Bool.false_ne_true, if_pos hlate]

end

namespace State

/-- The transfer of a faulted chunk, without it. -/
def withoutChunk (s : State) (n q i c : Nat) : State :=
  s.updTransfer n q i fun t => { t with flight := t.flight.filter fun j => j.idx ≠ c }

/-- A faulted chunk of an active transfer takes the action of its cause (R195). -/
theorem chunkFaulted_active {s : State} {n q i c cause : Nat} {t : Transfer} (ht : ((s.nib n).resQueue q)[i]? = some t)
    (he : s.recovery.ended = false) (hst : t.st = .active) : s.chunkFaulted n q i c cause =
      if s.obj 0x4620 cause ≠ 0 then (s.withoutChunk n q i c).endInError n q i cause
      else (s.withoutChunk n q i c).holdTransfer n q i c cause { t with flight := t.flight.filter fun j => j.idx ≠ c } := by
  have hget := getElem?_updTransfer (fun t => { t with flight := t.flight.filter fun j => j.idx ≠ c }) ht
  have hgoes : (s.withoutChunk n q i c).recovery.ended = false := he
  have hobj : (s.withoutChunk n q i c).obj 0x4620 cause = s.obj 0x4620 cause := rfl
  rw [withoutChunk] at hgoes hobj
  rw [chunkFaulted]
  rw [hget]
  dsimp only
  rw [hgoes, if_neg Bool.false_ne_true, hst]
  dsimp only
  rw [hobj, withoutChunk]

section
variable {s : State} {n q i : Nat} {t : Transfer}

theorem resQueue_bump (j u k : Nat) : ((s.bump j u k).nib n).resQueue q = (s.nib n).resQueue q := rfl

/-- A transfer that ends in error keeps what it had in flight, and is counted at 0x8037. -/
theorem endInError_transfer (ht : ((s.nib n).resQueue q)[i]? = some t) (cause : Nat) :
    (((s.endInError n q i cause).nib n).resQueue q)[i]? = some { t with st := .error cause } ∧
      (s.endInError n q i cause).obj 0x8037 0 = (s.obj 0x8037 0 + 1) % 2 ^ 64 ∧
      (s.endInError n q i cause).obj 0x8038 0 = s.obj 0x8038 0 := by
  refine ⟨getElem?_updTransfer (fun t => { t with st := .error cause }) ht, obj_bump .., ?_⟩
  exact obj_setObj_other (s.updTransfer n q i _) 0x8037 0 _ 0x8038 0 (by decide)

/-- A transfer held takes the free entry, and raises FAULT. -/
theorem holdTransfer_entry {c cause e : Nat} (hfree : s.freeEntry = some e) (ht : ((s.nib n).resQueue q)[i]? = some t) :
    ∃ u, s.holdTransfer n q i c cause t = u ∧ u.obj 0x8037 0 = s.obj 0x8037 0 ∧
      ((u.nib n).resQueue q)[i]? = some { t with st := .held cause e } ∧
      SMap.get none u.desk.entries e = some
        { nib := s.physNib n, rq := q, cause := cause, store := t.store, pos := i,
          st := if s.desk.preempt.status = 1 then 4 else 1, chunk := c, va := t.chunkVa c, time := s.now, virt := n } ∧
      (u.agent.log.getLast?.map fun r => (r.code, r.param)) = some (0x01, (e + 1) % 2 ^ 16) := by
  rw [holdTransfer, hfree]
  dsimp only
  refine ⟨_, rfl, ?_, ?_, ?_, event_log_last ..⟩
  · rw [event_obj, queueTurned_same _ _ _ (fun t => t.obj 0x8037 0) fun _ _ => rfl]
    rfl
  · rw [event_nib, queueTurned_same _ _ _ (fun t => t.nib n) fun _ _ => rfl]
    exact getElem?_updTransfer (s := s.setEntry e _) (fun t => { t with st := .held cause e }) ht
  · rw [event_desk, queueTurned_same _ _ _ State.desk fun _ _ => rfl]
    exact SMap.get_set_same none s.desk.entries e (some _)

/-- Where no entry is free the transfer ends in error, counted at 0x8038 too. -/
theorem holdTransfer_full {c cause : Nat} (hfree : s.freeEntry = none) :
    s.holdTransfer n q i c cause t = (s.bump 0x8038 0 1).endInError n q i cause := by
  rw [holdTransfer, hfree]

end
end State

/-- Settles O28. -/
theorem chunkFaultsAreHeldOrAborted : Obligations.ChunkFaultsAreHeldOrAborted := by
  intro n rq s chunk i t k hfind ht
  refine ⟨fun hb hlate he hst => ?_, exec_chunkTimeout_waits hfind⟩
  have hrest : (((s.withoutChunk n rq i chunk).nib n).resQueue rq)[i]? =
    some { t with flight := t.flight.filter fun j => j.idx ≠ chunk } := State.getElem?_updTransfer _ ht
  rw [exec_chunkTimeout_late hfind hb hlate, State.chunkFaulted_active ht he hst]
  refine ⟨fun hact => ?_, fun hact e hfree => ?_, fun hact hfree => ?_⟩
  · rw [if_pos hact]
    obtain ⟨htr, hcount, -⟩ := State.endInError_transfer hrest 3
    exact ⟨_, rfl, hcount, htr⟩
  · rw [if_neg (not_not_intro hact)]
    obtain ⟨u, hu, h⟩ := State.holdTransfer_entry (s := s.withoutChunk n rq i chunk) (c := chunk) (cause := 3) hfree hrest
    exact ⟨u, congrArg Host.Outcome.next hu, h⟩
  · rw [if_neg (not_not_intro hact), State.holdTransfer_full (s := s.withoutChunk n rq i chunk) hfree]
    obtain ⟨htr, hcount, hfull⟩ := State.endInError_transfer (s := (s.withoutChunk n rq i chunk).bump 0x8038 0 1) hrest 3
    refine ⟨_, rfl, hcount.trans ?_, hfull.trans (State.obj_bump ..), htr⟩
    exact congrArg (fun v => (v + 1) % 2 ^ 64) (State.obj_setObj_other (s.withoutChunk n rq i chunk) 0x8038 0 _ 0x8037 0 (by decide))

/-! ### Reset -/

/-- Settles O59: the state at reset is its record of defaults, whose maps list nothing. -/
theorem resetState : Obligations.ResetState := by
  refine ⟨rfl, fun n => rfl, rfl, rfl, fun c => rfl, fun q => rfl, rfl, rfl, rfl, fun q => ⟨rfl, rfl⟩, rfl, rfl, rfl, rfl, rfl, ?_,
    ⟨rfl, rfl, rfl, rfl, rfl, rfl, rfl, rfl, Nat.le_refl _, fun k hk => hk⟩, rfl, fun a => rfl, rfl, rfl⟩
  exact ⟨rfl, rfl, rfl, rfl, rfl⟩

end Sys2Proof.Machine
end

section
/-! SUPPORT. Objects of different indexes, quills and quires changed in turn (00; 07), and what an abort leaves of quills and desk memory. -/

namespace Sys2Proof.Machine

/-- Subindexes of a byte keep the objects of different indexes apart. -/
theorem objKey_ne {i j u w : Nat} (hij : i ≠ j) (hu : u < 256) (hw : w < 256) : objKey i u ≠ objKey j w := by
  rw [objKey, objKey]
  omega

theorem objKey_ne_sub {i u w : Nat} (h : u ≠ w) : objKey i u ≠ objKey i w := by
  rw [objKey, objKey]
  omega

namespace State

section
variable (s : State)

theorem obj_setObj_index {i j u w : Nat} (hij : j ≠ i) (hu : u < 256) (hw : w < 256) (v : Nat) :
    (s.setObj i u v).obj j w = s.obj j w := obj_setObj_other s i u v j w (objKey_ne hij hw hu)

theorem obj_bump_index {i j u w : Nat} (hij : j ≠ i) (hu : u < 256) (hw : w < 256) (k : Nat) :
    (s.bump i u k).obj j w = s.obj j w := s.obj_setObj_index hij hu hw _

theorem obj_setObj_sub {i u w : Nat} (h : w ≠ u) (v : Nat) : (s.setObj i u v).obj i w = s.obj i w :=
  obj_setObj_other s i u v i w (objKey_ne_sub h)

/-- Steps taken for each of a list of different items do at item `k` what the step for `k` does, where the others leave it alone. -/
theorem foldl_at {α β : Type} (g : State → β) (φ : β → β) (f : State → α → State) (k : α) (hk : ∀ t, g (f t k) = φ (g t))
    (ho : ∀ t a, a ≠ k → g (f t a) = g t) : ∀ (l : List α), l.Nodup → k ∈ l → ∀ t, g (l.foldl f t) = φ (g t) := by
  have hnone : ∀ (l : List α) (t : State), k ∉ l → g (l.foldl f t) = g t := by
    intro l
    induction l with
    | nil => exact fun _ _ => rfl
    | cons a l ih =>
      intro t hl
      rw [List.foldl_cons, ih _ (fun h => hl (List.mem_cons_of_mem a h)), ho t a fun h => hl (h ▸ List.mem_cons_self)]
  intro l
  induction l with
  | nil => exact fun _ h => absurd h (by simp)
  | cons a l ih =>
    intro hn hl t
    obtain ⟨ha, hn⟩ := List.nodup_cons.1 hn
    rw [List.foldl_cons]
    rcases List.mem_cons.1 hl with h | h
    · subst h
      rw [hnone l _ ha, hk]
    · rw [ih hn h, ho t a fun h' => ha (h' ▸ h)]

/-! ### Quills and quires -/

theorem quill_updQuill_other (q : Nat) (f : Quill → Quill) {k : Nat} (h : k ≠ q) : (s.updQuill q f).quill k = s.quill k :=
  SMap.get_set_other _ _ _ _ _ h

/-- What a change of one quill leaves alone at that quill it leaves alone at every quill. -/
theorem quill_updQuill_same {β : Type} (g : Quill → β) {q : Nat} {f : Quill → Quill} (hf : g (f (s.quill q)) = g (s.quill q)) (k : Nat) :
    g ((s.updQuill q f).quill k) = g (s.quill k) := by
  by_cases h : k = q
  · rw [h, quill_updQuill, hf]
  · rw [quill_updQuill_other _ _ _ h]

@[simp] theorem quire_updQuire (k : Nat) (f : Quire → Quire) : (s.updQuire k f).quire k = f (s.quire k) := SMap.get_set_same _ _ _ _

theorem quire_updQuire_other (q : Nat) (f : Quire → Quire) {k : Nat} (h : k ≠ q) : (s.updQuire q f).quire k = s.quire k :=
  SMap.get_set_other _ _ _ _ _ h

theorem quire_mapQuires (f : Quire → Quire) {k : Nat} (h : k < 16) : (s.mapQuires f).quire k = f (s.quire k) :=
  foldl_at (fun t => t.quire k) f _ k (fun t => t.quire_updQuire k f) (fun t _ ha => t.quire_updQuire_other _ f ha.symm) _
    List.nodup_range (List.mem_range.2 h) s

/-- A change of every quire leaves whatever does not read the quires. -/
theorem mapQuires_same {β : Type} (g : State → β) (hg : ∀ (t : State) qs, g { t with quires := qs } = g t) (f : Quire → Quire) :
    g (s.mapQuires f) = g s := foldl_same g _ (fun t _ => hg t _) _ s

/-! ### Quills and desk memory after a blot -/

/-- A quill whose owed, awaiting and holding states are dropped, with what waits at its edge ports (R391). -/
def vacatedQuill (x : Quill) : Quill :=
  { x with ruled := { x.ruled with owed := [], awaiting := [], awaitOld := [], holding := [], edge := [] } }

section
variable {β : Type} (g : Quill → β) (hg : ∀ (x : Quill) bs ow aw ao ho ed, g { x with
  blots := bs, ruled := { x.ruled with owed := ow, awaiting := aw, awaitOld := ao, holding := ho, edge := ed } } = g x)
include hg

/-- A told blot is queued on the quills that are UP. -/
theorem blotTold_quill_same (r q : Nat) : g ((s.blotTold r).quill q) = g (s.quill q) := by
  have hrelay (t : State) (i : Nat) : g ((t.relayBlot i none).quill q) = g (t.quill q) := by
    refine foldl_same (fun t => g (t.quill q)) _ (fun t k => ?_) _ _
    split
    · exact t.quill_updQuill_same g (hg _ _ (t.quill k).ruled.owed (t.quill k).ruled.awaiting (t.quill k).ruled.awaitOld
        (t.quill k).ruled.holding (t.quill k).ruled.edge) q
    · rfl
  have hpulse (p : Prop) [Decidable p] (t : State) (x : Pins) : (if p then t else { t with pins := x }).quill q = t.quill q := by
    split <;> rfl
  rw [blotTold]
  dsimp only
  rw [event_quill, hpulse, hrelay]
  rfl

/-- An abort drops what the quills owe, await and hold. -/
theorem beginAbort_quill_same (r o b q : Nat) : g ((s.beginAbort r o b).quill q) = g (s.quill q) := by
  have hrest (t : State) : t.abortRest.quill q = vacatedQuill (t.quill q) :=
    SMap.get_mapVals ({} : Quill) (fun _ => vacatedQuill) t.quills q rfl
  rw [beginAbort_eq, hrest, vacatedQuill, hg _ ((s.abortBegun r o b).stopSends.quill q).blots, stopSends_same _ (fun t => t.quill q) fun _ _ _ _ => rfl,
    abortBegun_same _ (fun t => t.quill q) fun _ _ _ _ _ _ _ => rfl]

/-- A blot of a job leaves of each quill whatever reads neither its blots nor what an abort drops of its ruled side. -/
theorem blot_quill_same (r q : Nat) : g ((s.blot r).quill q) = g (s.quill q) := by
  cases h : s.mayBlot
  · rw [s.blot_eq_self h]
  · rw [s.blot_eq h, beginAbort_quill_same _ g hg, blotTold_quill_same _ g hg]

end

/-- A blot does not write desk memory. -/
theorem blot_deskMem (r : Nat) : (s.blot r).desk.mem = s.desk.mem := by
  have hrest (t : State) : t.abortRest.desk.mem = t.desk.mem := rfl
  cases h : s.mayBlot
  · rw [s.blot_eq_self h]
  · rw [s.blot_eq h, beginAbort_eq, hrest, stopSends_same _ State.desk fun _ _ _ _ => rfl,
      abortBegun_same _ State.desk fun _ _ _ _ _ _ _ => rfl, blotTold_same _ State.desk fun _ _ _ _ _ _ _ _ => rfl]

end
end State
end Sys2Proof.Machine
end

section
/-! Proof of the statements on the reference, the quire clocks and stretching (07 R206-R213; 13 R393). -/

namespace Sys2Proof.Machine

/-! ### Loss of the reference -/

namespace State

/-- The reference is lost, up to the blot: time INVALID, no lane locked, no nib issuing (R206). -/
def refGone (s : State) : State :=
  let s := { s with time := { s.time with refOk := false, st := 4, parent := none } }
  let s := (List.range 16).foldl (fun s q => s.updQuill q fun x => { x with laneLock := false }) s
  s.mapNibs fun x => if x.issue.run = .running then { x with issue := { x.issue with run := .stopped, hold := .none } } else x

theorem loseRef_eq {s : State} (h : s.time.refOk = true) (c : RefCause) : s.loseRef c = s.refGone.blot 2 := by
  rw [loseRef, h, if_neg (by decide)]
  rfl

section
variable (s : State)

theorem refGone_same {β : Type} (g : State → β) (hg : ∀ (t : State) ns qs, g { t with nibs := ns, quills := qs } = g t) :
    g s.refGone = g { s with time := { s.time with refOk := false, st := 4, parent := none } } := by
  have hlock (t : State) : g ((List.range 16).foldl (fun s q => s.updQuill q fun x => { x with laneLock := false }) t) = g t :=
    foldl_same g _ (fun t _ => hg t t.nibs _) _ t
  exact (hg _ _ _).trans (hlock _)

theorem refGone_run (n : Nat) : (s.refGone.nib n).issue.run ≠ .running := by
  rw [refGone]
  dsimp only
  rw [nib_mapNibs _ _ _ rfl]
  split
  · exact RunState.noConfusion
  · assumption

theorem refGone_laneLock {q : Nat} (hq : q < 16) : (s.refGone.quill q).laneLock = false := by
  have hnibs (t : State) (f : Nib → Nib) : (t.mapNibs f).quill q = t.quill q := rfl
  have hlock (t : State) :
      (((List.range 16).foldl (fun s q => s.updQuill q fun x => { x with laneLock := false }) t).quill q).laneLock = false :=
    foldl_at (fun t => (t.quill q).laneLock) (fun _ => false) _ q (fun t => by rw [quill_updQuill])
      (fun t a ha => by rw [quill_updQuill_other _ _ _ ha.symm]) _ List.nodup_range (List.mem_range.2 hq) t
  rw [refGone]
  dsimp only
  rw [hnibs, hlock]

end
end State

/-- Without the reference its loss does nothing. -/
theorem exec_refLoss_lost {s : State} (h : s.time.refOk = false) (c : RefCause) : exec (.refLoss c) s = .next s := by
  rw [exec_refLoss, execRefLoss, State.loseRef, h, if_pos (by decide)]

/-- What the loss of the reference leaves (R206). -/
theorem loseRef_leaves (s : State) : (s.refGone.blot 2).time = { s.time with refOk := false, st := 4, parent := none } ∧
    (∀ n, ((s.refGone.blot 2).nib n).issue.run ≠ .running) ∧ (∀ q, q < 16 → ((s.refGone.blot 2).quill q).laneLock = false) ∧
    (s.refGone.blot 2).desk.mem = s.desk.mem ∧
    (s.mayBlot = true → (s.refGone.blot 2).binding.fn.code = .closing ∧
      (s.refGone.blot 2).recovery.abort = some ⟨s.now, 2, s.chip, (s.recovery.bseq + 1) % 256⟩) ∧
    (s.mayBlot = false → (s.refGone.blot 2).binding = s.binding ∧ (s.refGone.blot 2).recovery = s.recovery) := by
  have hmay : s.refGone.mayBlot = s.mayBlot := s.refGone_same State.mayBlot fun _ _ _ => rfl
  have hnow : s.refGone.now = s.now := s.refGone_same State.now fun _ _ _ => rfl
  have hchip : s.refGone.chip = s.chip := s.refGone_same State.chip fun _ _ _ => rfl
  have hrecovery : s.refGone.recovery = s.recovery := s.refGone_same State.recovery fun _ _ _ => rfl
  have hbinding : s.refGone.binding = s.binding := s.refGone_same State.binding fun _ _ _ => rfl
  have hdesk : s.refGone.desk = s.desk := s.refGone_same State.desk fun _ _ _ => rfl
  refine ⟨?_, fun n => ?_, fun q hq => ?_, ?_, fun h => ?_, fun h => ?_⟩
  · rw [State.blot_same _ State.time fun _ _ _ _ _ _ _ _ _ _ _ _ => rfl]
    exact s.refGone_same State.time fun _ _ _ => rfl
  · cases h : s.refGone.mayBlot
    · rw [State.blot_eq_self _ h]
      exact s.refGone_run n
    · exact State.blot_run_ne h 2 n
  · rw [State.blot_quill_same _ Quill.laneLock fun _ _ _ _ _ _ _ => rfl]
    exact s.refGone_laneLock hq
  · rw [State.blot_deskMem, hdesk]
  · rw [State.blot_code (hmay.trans h), State.blot_abort (hmay.trans h), hnow, hchip, hrecovery]
    exact ⟨rfl, rfl⟩
  · rw [State.blot_eq_self _ (hmay.trans h)]
    exact ⟨hbinding, hrecovery⟩

/-! ### A reset asked for -/

/-- Numbers of which none exceeds `b`, and `b` after them, have `b` as their greatest. -/
theorem foldl_max_concat {b : Nat} : ∀ (l : List Nat) (a : Nat), a ≤ b → (∀ x ∈ l, x ≤ b) → (l ++ [b]).foldl max a = b
  | [], _, ha, _ => Nat.max_eq_right ha
  | x :: l, _, ha, hl => foldl_max_concat l _ (Nat.max_le.2 ⟨ha, hl x List.mem_cons_self⟩) fun y hy => hl y (List.mem_cons_of_mem x hy)

namespace State

/-- During an abort or a record no step begins. -/
theorem pumpSteps_waits {s : State} (h : s.recovery.abort.isSome = true ∨ s.recovery.record.isSome = true) : s.pumpSteps = s := by
  rw [pumpSteps]
  dsimp only
  rw [if_pos]
  rcases h with h | h
  · rw [h, Bool.true_or, Bool.true_or]
  · rw [h, Bool.or_true, Bool.true_or]

/-- A reset of step 3 that follows lower ones begins its record first. -/
theorem pumpSteps_records {s : State} {ts : List ResetStep} {t : ResetStep} (ha : s.recovery.abort = none) (hr : s.recovery.record = none)
    (hret : s.recovery.retired = none) (hw : s.recovery.wanted = ts ++ [t]) (ht : t.step = 3) (hlow : ∀ u ∈ ts, u.step < 3)
    (hrecent : s.recentRecord = false) (hwritable : s.blotWritable s.blotBase = true) :
    s.pumpSteps = s.beginRecord 1 t.cause t.start := by
  have hmax : (s.recovery.wanted.map ResetStep.step).foldl max 0 = 3 := by
    rw [hw, List.map_append, List.map_singleton, ht]
    refine foldl_max_concat _ _ (by omega) fun x hx => ?_
    obtain ⟨u, hu, rfl⟩ := List.mem_map.1 hx
    exact Nat.le_of_lt (hlow u hu)
  have hfind : (s.recovery.wanted.find? fun u => decide (u.step = 3)) = some t := by
    rw [hw, List.find?_append, List.find?_eq_none.2 fun u hu => by simpa using Nat.ne_of_lt (hlow u hu), Option.none_or,
      List.find?_cons_of_pos (by simpa using ht)]
  have hrecord : (s.beginRecord 1 t.cause t.start).recovery.record.isSome = true := by
    rw [beginRecord, hwritable]
    rfl
  rw [pumpSteps]
  dsimp only
  rw [ha, hr, hret, hmax, hfind]
  simp only [Option.isSome_none, Bool.false_and, Bool.or_self, Bool.false_eq_true, if_false]
  rw [ht, if_pos (Nat.le_refl 3), hrecent, if_neg Bool.false_ne_true, if_pos hrecord]

/-- A quire clock whose condition holds stops, and is counted (R211). -/
def clockStopped (s : State) (k : Nat) (cause : ClockFail) : State :=
  ((s.failSample k cause).updQuire k fun x => { x with running := false, locked := cause.keepsLock }).bump 0x7026 k 1

theorem failClock_eq {s : State} {k : Nat} {cause : ClockFail} (hr : (s.quire k).running = true) (hf : s.clockFails k cause = true) :
    s.failClock k cause = ((s.clockStopped k cause).blot 2).wantReset 3 0xFFFF 0 4 := by
  rw [failClock, hr, hf, if_neg (by decide)]
  rfl

theorem failClock_idle {s : State} {k : Nat} {cause : ClockFail} (h : (s.quire k).running = false ∨ s.clockFails k cause = false) :
    s.failClock k cause = s := by
  rw [failClock, if_pos]
  rcases h with h | h <;> rw [h] <;> simp

/-- What the stop of a clock leaves besides its quire and its count. -/
theorem clockStopped_same {β : Type} (g : State → β) (hg : ∀ (t : State) qs os, g { t with quires := qs, objs := os } = g t)
    (s : State) (k : Nat) (cause : ClockFail) : g (s.clockStopped k cause) = g s := by
  have hsample : g (s.failSample k cause) = g s := by
    cases cause with
    | margin x => exact hg s _ s.objs
    | lock => rfl
    | both x => exact hg s _ s.objs
  exact (hg (s.failSample k cause) _ _).trans hsample

theorem failSample_obj (s : State) (k : Nat) (cause : ClockFail) (i u : Nat) : (s.failSample k cause).obj i u = s.obj i u := by
  cases cause <;> rfl

end State

/-- The return of the reference, up to the reset it asks for (R206). -/
def State.refBack (s : State) : State :=
  mapQuires { s with time := { s.time with refOk := true, st := 0, adj := s.time.integ, good := 0, stepped := false } } fun x =>
    { x with locked := true }

theorem exec_refReturn_lost {s : State} (h : s.time.refOk = false) :
    exec .refReturn s = .next (s.refBack.wantReset 3 0xFFFF 0 8).pumpSteps := by
  rw [exec_refReturn, execRefReturn, State.regainRef, h]
  rfl

theorem exec_clockMargin_fails {s : State} {k : QuireId} {c : ClockFail} (hr : (s.quire k).running = true)
    (hf : s.clockFails k c = true) :
    exec (.clockMargin k c) s = .next (((s.clockStopped k c).blot 2).wantReset 3 0xFFFF 0 4).pumpSteps := by
  rw [exec_clockMargin, execClockMargin, State.failClock_eq hr hf]

theorem State.refBack_same {β : Type} (g : State → β) (hg : ∀ (t : State) qs, g { t with quires := qs } = g t) (s : State) :
    g s.refBack = g { s with time := { s.time with refOk := true, st := 0, adj := s.time.integ, good := 0, stepped := false } } :=
  State.mapQuires_same _ g hg _

/-- What the return of the reference leaves, and when its reset begins (R206, R393). -/
theorem regainRef_leaves (s : State) {u : State} (hu : u = s.refBack.wantReset 3 0xFFFF 0 8) :
    u.time = { s.time with refOk := true, st := 0, adj := s.time.integ, good := 0, stepped := false } ∧
    (∀ k, k < 16 → (u.quire k).locked = true) ∧ u.nibs = s.nibs ∧ u.objs = s.objs ∧
    u.recovery = { s.recovery with wanted := s.recovery.wanted ++ [⟨3, 0xFFFF, 0, 8, s.now⟩] } ∧
    (s.recovery.abort.isSome = true ∨ s.recovery.record.isSome = true → u.pumpSteps = u) ∧
    (s.recovery.abort = none → s.recovery.record = none → s.recovery.retired = none → (∀ t ∈ s.recovery.wanted, t.step < 3) →
      u.recentRecord = false → u.blotWritable u.blotBase = true → u.pumpSteps = u.beginRecord 1 8 s.now) := by
  have hrecovery : s.refBack.recovery = s.recovery := State.refBack_same State.recovery (fun _ _ => rfl) s
  have hnow : s.refBack.now = s.now := State.refBack_same State.now (fun _ _ => rfl) s
  have hwait (t : State) : (t.wantReset 3 0xFFFF 0 8).time = t.time ∧ (t.wantReset 3 0xFFFF 0 8).nibs = t.nibs ∧
      (t.wantReset 3 0xFFFF 0 8).objs = t.objs ∧ ∀ k, (t.wantReset 3 0xFFFF 0 8).quire k = t.quire k := ⟨rfl, rfl, rfl, fun _ => rfl⟩
  obtain ⟨htime, hnibs, hobjs, hquire⟩ := hwait s.refBack
  have hwant : u.recovery = { s.recovery with wanted := s.recovery.wanted ++ [⟨3, 0xFFFF, 0, 8, s.now⟩] } := by
    rw [hu, State.wantReset, hrecovery, hnow]
  refine ⟨?_, fun k hk => ?_, ?_, ?_, hwant, fun h => ?_, fun ha hr hret hlow hrecent hwritable => ?_⟩
  · rw [hu, htime]
    exact State.refBack_same State.time (fun _ _ => rfl) s
  · rw [hu, hquire, State.refBack, State.quire_mapQuires _ _ hk]
  · rw [hu, hnibs]
    exact State.refBack_same State.nibs (fun _ _ => rfl) s
  · rw [hu, hobjs]
    exact State.refBack_same State.objs (fun _ _ => rfl) s
  · exact State.pumpSteps_waits (by rw [hwant]; exact h)
  · exact State.pumpSteps_records (t := ⟨3, 0xFFFF, 0, 8, s.now⟩) (by rw [hwant]; exact ha) (by rw [hwant]; exact hr)
      (by rw [hwant]; exact hret) (by rw [hwant]) rfl hlow hrecent hwritable

/-- What the stop of a quire clock leaves (R211). -/
theorem failClock_leaves (s : State) (k : QuireId) (c : ClockFail) {u : State}
    (hu : u = ((s.clockStopped k c).blot 2).wantReset 3 0xFFFF 0 4) :
    (u.quire k.val).running = false ∧ (u.quire k.val).locked = c.keepsLock ∧
    u.obj 0x7026 k.val = (s.obj 0x7026 k.val + 1) % 2 ^ 64 ∧
    u.recovery.wanted = s.recovery.wanted ++ [⟨3, 0xFFFF, 0, 4, s.now⟩] ∧
    (s.mayBlot = true → u.pumpSteps = u ∧ u.binding.fn.code = .closing ∧ (∀ n, (u.nib n).issue.run ≠ .running) ∧
      u.recovery.abort = some ⟨s.now, 2, s.chip, (s.recovery.bseq + 1) % 256⟩) ∧
    (s.mayBlot = false → u.binding = s.binding ∧ u.nibs = s.nibs ∧ u.recovery.abort = s.recovery.abort) := by
  have hmay : (s.clockStopped k c).mayBlot = s.mayBlot := State.clockStopped_same State.mayBlot (fun _ _ _ => rfl) s k c
  have hnow : (s.clockStopped k c).now = s.now := State.clockStopped_same State.now (fun _ _ _ => rfl) s k c
  have hrecovery : (s.clockStopped k c).recovery = s.recovery := State.clockStopped_same State.recovery (fun _ _ _ => rfl) s k c
  have hbinding : (s.clockStopped k c).binding = s.binding := State.clockStopped_same State.binding (fun _ _ _ => rfl) s k c
  have hnibs : (s.clockStopped k c).nibs = s.nibs := State.clockStopped_same State.nibs (fun _ _ _ => rfl) s k c
  have hobj : (s.clockStopped k c).obj 0x7026 k = (s.obj 0x7026 k + 1) % 2 ^ 64 := by
    rw [State.clockStopped, State.obj_bump, ← s.failSample_obj k c]
    rfl
  have hchip : (s.clockStopped k c).chip = s.chip := by
    rw [State.chip, State.clockStopped, State.obj_bump_index _ (by decide) (by omega) (by decide), State.chip, ← s.failSample_obj k c]
    rfl
  have hquire : u.quire k = { (s.failSample k c).quire k with running := false, locked := c.keepsLock } := by
    have hsame : u.quire k = (s.clockStopped k c).quire k := by
      rw [hu]
      exact State.blot_same _ (fun t => t.quire k) (fun _ _ _ _ _ _ _ _ _ _ _ _ => rfl) 2
    have hbump (t : State) (j : Nat) : (t.bump 0x7026 j 1).quire k = t.quire k := rfl
    rw [hsame, State.clockStopped, hbump, State.quire_updQuire]
  have hcount : u.obj 0x7026 k = (s.clockStopped k c).obj 0x7026 k := by
    rw [hu]
    exact State.blot_obj _ (objKey_ne (by decide) (by omega) (by decide)) (objKey_ne (by decide) (by omega) (by decide)) 2
  have hnow' : ((s.clockStopped k c).blot 2).now = s.now :=
    (State.blot_same _ State.now (fun _ _ _ _ _ _ _ _ _ _ _ _ => rfl) 2).trans hnow
  refine ⟨by rw [hquire], by rw [hquire], hcount.trans hobj, ?_, fun h => ?_, fun h => ?_⟩
  · have hwanted : ((s.clockStopped k c).blot 2).recovery.wanted = s.recovery.wanted := by
      cases hb : (s.clockStopped k c).mayBlot
      · rw [State.blot_eq_self _ hb, hrecovery]
      · obtain ⟨a, bs, ks, hr⟩ := State.blot_recovery hb 2
        rw [hr, hrecovery]
    rw [hu, State.wantReset, hwanted, hnow']
  · have habort : u.recovery.abort = some ⟨s.now, 2, s.chip, (s.recovery.bseq + 1) % 256⟩ := by
      rw [← hnow, ← hchip, ← hrecovery, ← State.blot_abort (hmay.trans h) 2, hu]
      rfl
    refine ⟨State.pumpSteps_waits (.inl (by rw [habort]; rfl)), ?_, fun n => ?_, habort⟩
    · rw [hu]
      exact State.blot_code (hmay.trans h) 2
    · rw [hu]
      exact State.blot_run_ne (hmay.trans h) 2 n
  · rw [State.blot_eq_self _ (hmay.trans h)] at hu
    rw [hu]
    refine ⟨hbinding, hnibs, ?_⟩
    rw [← hrecovery]
    rfl

/-- Settles O31. -/
theorem referenceAndClockFailures : Obligations.ReferenceAndClockFailures := by
  refine ⟨fun c s h => ?_, fun c s h => exec_refLoss_lost h c, fun s h => ?_, fun k c s => ⟨fun hr hf => ?_, fun h => ?_⟩⟩
  · refine ⟨_, congrArg Host.Outcome.next (State.loseRef_eq h c), loseRef_leaves s⟩
  · exact ⟨_, exec_refReturn_lost h, regainRef_leaves s rfl⟩
  · exact ⟨_, exec_clockMargin_fails hr hf, failClock_leaves s k c rfl⟩
  · rw [exec_clockMargin, execClockMargin, State.failClock_idle h]

/-! ### Margins -/

/-- The least of a list and a first number: none of them is below it, and it is one of them. -/
theorem foldl_min_spec {α : Type} (f : α → Int) : ∀ (l : List α) (a : Int), (l.foldl (fun m x => min m (f x)) a ≤ a ∧
    ∀ x ∈ l, l.foldl (fun m x => min m (f x)) a ≤ f x) ∧
    (l.foldl (fun m x => min m (f x)) a = a ∨ ∃ x ∈ l, l.foldl (fun m x => min m (f x)) a = f x)
  | [], a => ⟨⟨Int.le_refl a, fun _ h => absurd h (by simp)⟩, .inl rfl⟩
  | y :: l, a => by
    obtain ⟨⟨hle, hall⟩, hmem⟩ := foldl_min_spec f l (min a (f y))
    rw [List.foldl_cons]
    refine ⟨⟨Int.le_trans hle (Int.min_le_left ..), fun x hx => ?_⟩, ?_⟩
    · rcases List.mem_cons.1 hx with h | h
      · rw [h]
        exact Int.le_trans hle (Int.min_le_right ..)
      · exact hall x h
    · rcases hmem with h | ⟨x, hx, h⟩
      · rcases Int.le_total a (f y) with h' | h'
        · exact .inl (h.trans (Int.min_eq_left h'))
        · exact .inr ⟨y, List.mem_cons_self, h.trans (Int.min_eq_right h')⟩
      · exact .inr ⟨x, List.mem_cons_of_mem y hx, h⟩

/-- The margin of a cycle is the smallest of its slacks. -/
theorem marginOf_spec (x : Slacks) : (∀ i : Fin 12, marginOf x ≤ x[i]) ∧ ∃ i : Fin 12, marginOf x = x[i] := by
  obtain ⟨⟨hle, hall⟩, hmem⟩ := foldl_min_spec id x.toList x[0]
  refine ⟨fun i => hall x[i] (by simp), ?_⟩
  rcases hmem with h | ⟨y, hy, h⟩
  · exact ⟨0, h⟩
  · obtain ⟨i, hi, he⟩ := List.mem_iff_getElem.1 hy
    have hi' : i < 12 := by simpa using hi
    exact ⟨⟨i, hi'⟩, h.trans (by simpa using he.symm)⟩

/-- The lowest margin of a list of cycles is one of theirs, and none is below it. -/
theorem lowestMargin_iff (xs : List Slacks) (m : Int) :
    lowestMargin xs = some m ↔ (∃ x ∈ xs, marginOf x = m) ∧ ∀ x ∈ xs, m ≤ marginOf x := by
  cases xs with
  | nil => simp [lowestMargin]
  | cons x xs =>
    obtain ⟨⟨hle, hall⟩, hmem⟩ := foldl_min_spec marginOf xs (marginOf x)
    rw [lowestMargin, Option.some_inj]
    generalize xs.foldl (fun m y => min m (marginOf y)) (marginOf x) = l at hle hall hmem
    have hmin : ∀ y ∈ x :: xs, l ≤ marginOf y := fun y hy => (List.mem_cons.1 hy).elim (fun h => h ▸ hle) (hall y)
    have hin : ∃ y ∈ x :: xs, marginOf y = l := by
      rcases hmem with h | ⟨y, hy, h⟩
      · exact ⟨x, List.mem_cons_self, h.symm⟩
      · exact ⟨y, List.mem_cons_of_mem x hy, h.symm⟩
    refine ⟨fun h => h ▸ ⟨hin, hmin⟩, fun ⟨⟨y, hy, he⟩, hm⟩ => ?_⟩
    obtain ⟨z, hz, hl⟩ := hin
    exact Int.le_antisymm (he ▸ hmin y hy) (hl ▸ hm z hz)

/-- Eight good cycles end the list exactly where its last eight are good. -/
theorem eightGood_iff (xs : List Slacks) :
    eightGood xs = true ↔ ∃ ys zs, xs = ys ++ zs ∧ zs.length = 8 ∧ ∀ z ∈ zs, 15 ≤ marginOf z := by
  rw [eightGood, Bool.and_eq_true, decide_eq_true_eq, List.all_eq_true]
  refine ⟨fun ⟨hlen, hall⟩ => ?_, ?_⟩
  · refine ⟨xs.take (xs.length - 8), xs.drop (xs.length - 8), (List.take_append_drop ..).symm, ?_, fun z hz => ?_⟩
    · rw [List.length_drop]
      omega
    · exact of_decide_eq_true (hall z hz)
  · rintro ⟨ys, zs, rfl, hlen, hall⟩
    refine ⟨by rw [List.length_append]; omega, fun z hz => decide_eq_true (hall z ?_)⟩
    rwa [List.length_append, hlen, Nat.add_sub_cancel, List.drop_left] at hz

/-! ### Stretching -/

namespace State

section
variable {s : State} {k : Nat}

/-- A sampled cycle changes the margins its quire shows alone. -/
theorem quire_samples (xs : List Slacks) : ∃ m u, (xs.foldl (fun s x => s.sample k x) s).quire k =
    { s.quire k with nominal := m, inUse := u } := by
  induction xs generalizing s with
  | nil => exact ⟨_, _, rfl⟩
  | cons x xs ih =>
    obtain ⟨m, u, h⟩ := ih (s := s.sample k x)
    refine ⟨m, u, ?_⟩
    rw [List.foldl_cons, h, sample, quire_updQuire]

theorem samples_same {β : Type} (g : State → β) (hg : ∀ (t : State) qs, g { t with quires := qs } = g t) (xs : List Slacks) :
    g (xs.foldl (fun s x => s.sample k x) s) = g s := foldl_same g _ (fun t _ => hg t _) _ s

theorem updQuire_updQuire_quires (f h : Quire → Quire) : { (s.updQuire k f).updQuire k h with quires := s.quires } = s := rfl

end

section
variable (s : State) (k : Fin 16) (c : Nat)

theorem keepCount_same {β : Type} (g : State → β) (hg : ∀ (t : State) v, g (t.setObj 0x7022 k v) = g t) : g (s.keepCount k) = g s := by
  rw [keepCount]
  split
  · exact hg s _
  · rfl

/-- A count that fits its object is kept there where it is the highest. -/
theorem keepCount_obj : (s.keepCount k).obj 0x7022 k =
    if s.obj 0x7022 k < (s.quire k).count then (s.quire k).count % 2 ^ 32 else s.obj 0x7022 k := by
  rw [keepCount]
  split
  · rw [obj_setObj]
  · rfl

theorem quire_addStretch : (s.addStretch k c).quire k = { s.quire k with count := (s.quire k).count + c } := by
  have hkeep (t : State) : (t.keepCount k).quire k = t.quire k := t.keepCount_same k (fun t => t.quire k) fun _ _ => rfl
  have hbump (t : State) : (t.bump 0x7021 k c).quire k = t.quire k := rfl
  rw [addStretch, hkeep, hbump, quire_updQuire]

theorem addStretch_same {β : Type} (g : State → β) (hg : ∀ (t : State) qs, g { t with quires := qs } = g t)
    (h1 : ∀ (t : State) v, g (t.setObj 0x7021 k v) = g t) (h2 : ∀ (t : State) v, g (t.setObj 0x7022 k v) = g t) :
    g (s.addStretch k c) = g s := by
  rw [addStretch, keepCount_same _ _ g h2, bump, h1, updQuire, hg]

theorem addStretch_obj {i u : Nat} (h1 : i ≠ 0x7021) (h2 : i ≠ 0x7022) (hu : u < 256) : (s.addStretch k c).obj i u = s.obj i u :=
  s.addStretch_same k c (fun t => t.obj i u) (fun _ _ => rfl) (fun t v => t.obj_setObj_index h1 (by omega) hu v)
    fun t v => t.obj_setObj_index h2 (by omega) hu v

theorem addStretch_total : (s.addStretch k c).obj 0x7021 k = (s.obj 0x7021 k + c) % 2 ^ 64 := by
  rw [addStretch, keepCount_same _ _ (fun t => t.obj 0x7021 k) fun t v => t.obj_setObj_index (by decide) (by omega) (by omega) v,
    obj_bump]
  rfl

theorem addStretch_highest (h : (s.quire k).count + c < 2950) :
    (s.addStretch k c).obj 0x7022 k = max (s.obj 0x7022 k) ((s.quire k).count + c) := by
  have hcount : (((s.updQuire k fun x => { x with count := x.count + c }).bump 0x7021 k c).quire k).count = (s.quire k).count + c := by
    have hbump (t : State) (i : Nat) : (t.bump i k c).quire k = t.quire k := rfl
    rw [hbump, quire_updQuire]
  have hobj : ((s.updQuire k fun x => { x with count := x.count + c }).bump 0x7021 k c).obj 0x7022 k = s.obj 0x7022 k :=
    obj_bump_index (s.updQuire k _) (by decide) (by omega) (by omega) c
  rw [addStretch, keepCount_obj, hcount, hobj, Nat.mod_eq_of_lt (by omega)]
  split <;> omega

/-- The line's count goes on below 2,950, or once it has been noted. -/
theorem noteOverrun_below (h : (s.quire k).overrun = true ∨ (s.quire k).count < 2950) : s.noteOverrun k = s := by
  rw [noteOverrun]
  dsimp only
  rw [if_pos (by simpa using h)]

/-- A count that reaches 2,950 is noted at 0x7023, up to the pen-lift it requests (R213). -/
def overrunNoted : State := (s.updQuire k fun x => { x with overrun := true }).bump 0x7023 k 1

theorem noteOverrun_reached (h : (s.quire k).overrun = false) (hc : 2950 ≤ (s.quire k).count) :
    s.noteOverrun k = if s.planApplied && !((List.range 16).any fun j => (s.quire j).overrun) && s.recovery.abort.isNone then
      ((s.overrunNoted k).bump 0x8040 0 1).requestPenlift 2 else s.overrunNoted k := by
  have hcopy : (s.overrunNoted k).planApplied = s.planApplied := by
    have hplan : (s.overrunNoted k).planCopy = s.planCopy := obj_bump_index _ (by decide) (by omega) (by decide) 1
    rw [planApplied, hplan]
    rfl
  rw [overrunNoted] at hcopy
  rw [noteOverrun]
  dsimp only
  rw [if_neg (by simpa [h] using hc), hcopy]
  rfl

/-- A pen-lift request announces a line and queues blocks on the quills. -/
theorem requestPenlift_same {β : Type} (g : State → β) (hg : ∀ (t : State) l qs, g { t with lines := l, quills := qs } = g t) (t : State)
    (cause : Nat) : g (t.requestPenlift cause) = g t := by
  have hrelay (u : State) (a : Announced) : g (u.relayPenlift a none) = g u := by
    refine foldl_same g _ (fun v q => ?_) _ _
    split
    · exact hg v v.lines _
    · rfl
  rw [requestPenlift]
  dsimp only
  split
  · rfl
  · exact (hrelay ..).trans (hg t _ t.quills)

/-- A line not announced yet is. -/
theorem requestPenlift_announced {t : State} {cause : Nat} (ha : t.recovery.abort = none)
    (hn : ∀ a ∈ t.lines.announced, a.line ≠ t.line + 2) :
    (t.requestPenlift cause).lines.announced = t.lines.announced ++ [⟨t.line + 2, t.jobTag, t.chip, cause⟩] := by
  have hrelay (u : State) (a : Announced) : (u.relayPenlift a none).lines = u.lines := by
    refine foldl_same lines _ (fun v q => ?_) _ _
    split <;> rfl
  have hnew : ¬(t.recovery.abort.isSome ||
      t.lines.announced.any (fun b => b.line = t.line + 2 && b.tag = t.jobTag) : Bool) = true := by
    simpa [ha] using fun a h he => absurd he (hn a h)
  rw [requestPenlift]
  dsimp only
  rw [if_neg hnew, hrelay]

theorem overrunNoted_obj {i u : Nat} (hi : i ≠ 0x7023) (hu : u < 256) : (s.overrunNoted k).obj i u = s.obj i u :=
  obj_bump_index (s.updQuire k _) hi (by omega) hu 1

/-- What the note of an overrun leaves of its quire and of the objects. -/
theorem noteOverrun_counts (h : (s.quire k).overrun = false) (hc : 2950 ≤ (s.quire k).count) :
    ((s.noteOverrun k).quire k).overrun = true ∧ (s.noteOverrun k).obj 0x7023 k = (s.obj 0x7023 k + 1) % 2 ^ 64 ∧
      ∀ i u, i ≠ 0x7023 → i ≠ 0x8040 → u < 256 → (s.noteOverrun k).obj i u = s.obj i u := by
  have hquire : ((s.overrunNoted k).quire k).overrun = true := by
    have hbump (t : State) : (t.bump 0x7023 k 1).quire k = t.quire k := rfl
    rw [overrunNoted, hbump, quire_updQuire]
  have hliftQuire (t : State) : (t.requestPenlift 2).quire k = t.quire k :=
    requestPenlift_same (fun t => t.quire k) (fun _ _ _ => rfl) t 2
  have hliftObj (t : State) (i u : Nat) : (t.requestPenlift 2).obj i u = t.obj i u :=
    requestPenlift_same (fun t => t.obj i u) (fun _ _ _ => rfl) t 2
  have hbump (t : State) : (t.bump 0x8040 0 1).quire k = t.quire k := rfl
  rw [noteOverrun_reached s k h hc]
  split
  · refine ⟨?_, ?_, fun i u hi hi' hu => ?_⟩
    · rw [hliftQuire, hbump, hquire]
    · rw [hliftObj, obj_bump_index _ (by decide) (by decide) (by omega), overrunNoted, obj_bump]
      rfl
    · rw [hliftObj, obj_bump_index _ hi' (by decide) hu, overrunNoted_obj s k hi hu]
  · refine ⟨hquire, ?_, fun i u hi _ hu => overrunNoted_obj s k hi hu⟩
    rw [overrunNoted, obj_bump]
    rfl

/-- The pen-lift that an overrun requests while a plan is applied, where no other quire has (R213). -/
theorem noteOverrun_lifts (h : (s.quire k).overrun = false) (hc : 2950 ≤ (s.quire k).count) (hp : s.planApplied = true)
    (ha : s.recovery.abort = none) (hall : ∀ j, j < 16 → (s.quire j).overrun = false)
    (hn : ∀ a ∈ s.lines.announced, a.line ≠ s.line + 2) :
    (s.noteOverrun k).lines.announced = s.lines.announced ++ [⟨s.line + 2, s.jobTag, s.chip, 2⟩] ∧
      (s.noteOverrun k).obj 0x8040 0 = (s.obj 0x8040 0 + 1) % 2 ^ 64 := by
  have hnone : ((List.range 16).any fun j => (s.quire j).overrun) = false :=
    List.any_eq_false.2 fun j hj => by rw [hall j (List.mem_range.1 hj)]; decide
  have htag : ((s.overrunNoted k).bump 0x8040 0 1).jobTag = s.jobTag := by
    rw [jobTag, obj_bump_index _ (by decide) (by decide) (by decide), overrunNoted_obj s k (by decide) (by decide), jobTag]
  have hchip : ((s.overrunNoted k).bump 0x8040 0 1).chip = s.chip := by
    rw [chip, obj_bump_index _ (by decide) (by decide) (by decide), overrunNoted_obj s k (by decide) (by decide), chip]
  have hlift := requestPenlift_announced (t := (s.overrunNoted k).bump 0x8040 0 1) (cause := 2) ha hn
  have hobj : (((s.overrunNoted k).bump 0x8040 0 1).requestPenlift 2).obj 0x8040 0 = _ :=
    requestPenlift_same (fun t => t.obj 0x8040 0) (fun _ _ _ => rfl) _ 2
  rw [noteOverrun_reached s k h hc, hp, hnone, ha, if_pos (by decide), hlift, hobj, obj_bump, overrunNoted_obj s k (by decide) (by decide),
    htag, hchip]
  exact ⟨rfl, rfl⟩

/-- Without a plan no pen-lift is requested. -/
theorem noteOverrun_lines (hp : s.planApplied = false) : (s.noteOverrun k).lines = s.lines := by
  by_cases h : (s.quire k).overrun = true ∨ (s.quire k).count < 2950
  · rw [noteOverrun_below s k h]
  · obtain ⟨h, hc⟩ := not_or.1 h
    rw [noteOverrun_reached s k (Bool.eq_false_iff.2 h) (Nat.not_lt.1 hc), hp, Bool.false_and, Bool.false_and, if_neg Bool.false_ne_true]
    rfl

/-- Cycles counted while a clock stretches change neither the plan nor the state that a pen-lift reads. -/
theorem addStretch_plan : (s.addStretch k c).planApplied = s.planApplied := by
  have hplan : (s.addStretch k c).planCopy = s.planCopy := s.addStretch_obj k c (by decide) (by decide) (by decide)
  have hquills : (s.addStretch k c).quills = s.quills := s.addStretch_same k c quills (fun _ _ => rfl) (fun _ _ => rfl) fun _ _ => rfl
  rw [planApplied, hplan, copyActive, hquills]
  rfl

theorem addStretch_overrun (j : Nat) : ((s.addStretch k c).quire j).overrun = (s.quire j).overrun := by
  by_cases h : j = k
  · rw [h, quire_addStretch]
  · have hkeep (t : State) : (t.keepCount k).quire j = t.quire j := t.keepCount_same k (fun t => t.quire j) fun _ _ => rfl
    have hbump (t : State) : (t.bump 0x7021 k c).quire j = t.quire j := rfl
    rw [addStretch, hkeep, hbump, quire_updQuire_other _ _ _ h]

end
end State

/-! ### The rows of stretching -/

section
variable {k : QuireId} {s : State}

theorem exec_stretchStart_running (x : Slacks) (hr : (s.quire k).running = true) : ∃ t, exec (.stretchStart k x) s = .next t ∧
    { t with quires := s.quires } = s ∧ t.quire k.val = { s.quire k.val with
      nominal := marginOf x
      inUse := 2 * marginOf x + (if (s.quire k.val).stretching then 125 else 0)
      stretching := (s.quire k.val).stretching || decide (marginOf x < 15) } := by
  rw [exec_stretchStart, execStretchStart, State.startStretch, if_pos hr]
  by_cases h : marginOf x < 15
  · refine ⟨_, congrArg Host.Outcome.next (if_pos h), rfl, ?_⟩
    rw [State.quire_updQuire, State.sample, State.quire_updQuire, decide_eq_true h, Bool.or_true]
  · refine ⟨_, congrArg Host.Outcome.next (if_neg h), rfl, ?_⟩
    rw [State.sample, State.quire_updQuire, decide_eq_false h, Bool.or_false]

theorem exec_stretchStart_stopped (x : Slacks) (hr : (s.quire k).running = false) : exec (.stretchStart k x) s = .next s := by
  rw [exec_stretchStart, execStretchStart, State.startStretch, hr, if_neg Bool.false_ne_true]

theorem exec_stretch_still (c : Nat) (xs : List Slacks) (h : (s.quire k).stretching = false) :
    exec (.stretchOverrun k c) s = .next s ∧ exec (.stretchEnd k ⟨c, xs⟩) s = .next s := by
  rw [exec_stretchOverrun, execStretchOverrun, exec_stretchEnd, execStretchEnd, State.endStretch, h, if_neg Bool.false_ne_true,
    if_neg Bool.false_ne_true]
  exact ⟨rfl, rfl⟩

theorem exec_stretchOverrun_stretching (c : Nat) (h : (s.quire k).stretching = true) :
    exec (.stretchOverrun k c) s = .next ((s.addStretch k c).noteOverrun k) := by
  rw [exec_stretchOverrun, execStretchOverrun, if_pos h]

theorem exec_stretchEnd_stretching (c : Nat) (xs : List Slacks) (h : (s.quire k).stretching = true) :
    exec (.stretchEnd k ⟨c, xs⟩) s = .next (let t := xs.foldl (fun s x => s.sample k x) ((s.addStretch k c).noteOverrun k)
      if eightGood xs then t.updQuire k fun x => { x with stretching := false } else t) := by
  rw [exec_stretchEnd, execStretchEnd, State.endStretch, if_pos h]

/-- While the count of the line is below 2,950, what a report of stretched cycles leaves. -/
theorem stretch_below {c : Nat} (xs : List Slacks) (hs : (s.quire k).stretching = true) (hlow : (s.quire k).count + c < 2950) :
    (∃ t, exec (.stretchOverrun k c) s = .next t ∧ t.obj 0x7021 k.val = (s.obj 0x7021 k.val + c) % 2 ^ 64 ∧
      t.obj 0x7022 k.val = max (s.obj 0x7022 k.val) ((s.quire k.val).count + c) ∧
      t.quire k.val = { s.quire k.val with count := (s.quire k.val).count + c }) ∧
    ∃ t, exec (.stretchEnd k ⟨c, xs⟩) s = .next t ∧ t.obj 0x7021 k.val = (s.obj 0x7021 k.val + c) % 2 ^ 64 ∧
      t.obj 0x7022 k.val = max (s.obj 0x7022 k.val) ((s.quire k.val).count + c) ∧
      (t.quire k.val).count = (s.quire k.val).count + c ∧ (t.quire k.val).stretching = !eightGood xs := by
  have hnote : (s.addStretch k c).noteOverrun k = s.addStretch k c :=
    State.noteOverrun_below _ _ (.inr (by rw [State.quire_addStretch]; exact hlow))
  rw [exec_stretchOverrun_stretching c hs, exec_stretchEnd_stretching c xs hs, hnote]
  refine ⟨⟨_, rfl, s.addStretch_total k c, s.addStretch_highest k c hlow, s.quire_addStretch k c⟩, _, rfl, ?_⟩
  obtain ⟨m, u, hquire⟩ := (s.addStretch k c).quire_samples (k := k) xs
  have hobj (i v : Nat) : (xs.foldl (fun s x => s.sample k x) (s.addStretch k c)).obj i v = (s.addStretch k c).obj i v :=
    State.samples_same (fun t => t.obj i v) (fun _ _ => rfl) xs
  rw [State.quire_addStretch] at hquire
  have hupd (t : State) (f : Quire → Quire) (i v : Nat) : (t.updQuire k f).obj i v = t.obj i v := rfl
  cases hg : eightGood xs
  · rw [if_neg Bool.false_ne_true, hobj, hobj, hquire]
    exact ⟨s.addStretch_total k c, s.addStretch_highest k c hlow, rfl, hs⟩
  · rw [if_pos rfl, hupd, hupd, State.quire_updQuire, hobj, hobj, hquire]
    exact ⟨s.addStretch_total k c, s.addStretch_highest k c hlow, rfl, rfl⟩

/-- The report that reaches 2,950 (R213). -/
theorem stretch_reached {c : Nat} (hs : (s.quire k).stretching = true) (ho : (s.quire k).overrun = false)
    (hhigh : 2950 ≤ (s.quire k).count + c) :
    ∃ t, exec (.stretchOverrun k c) s = .next t ∧ (t.quire k.val).overrun = true ∧
      t.obj 0x7021 k.val = (s.obj 0x7021 k.val + c) % 2 ^ 64 ∧ t.obj 0x7023 k.val = (s.obj 0x7023 k.val + 1) % 2 ^ 64 ∧
      (s.planApplied = true → s.recovery.abort = none → (∀ j, j < 16 → (s.quire j).overrun = false) →
        (∀ a ∈ s.lines.announced, a.line ≠ s.line + 2) →
        t.lines.announced = s.lines.announced ++ [⟨s.line + 2, s.jobTag, s.chip, 2⟩] ∧
          t.obj 0x8040 0 = (s.obj 0x8040 0 + 1) % 2 ^ 64) ∧
      (s.planApplied = false → t.lines = s.lines) := by
  have ho' : ((s.addStretch k c).quire k).overrun = false := by rw [State.addStretch_overrun, ho]
  have hc' : 2950 ≤ ((s.addStretch k c).quire k).count := by rw [State.quire_addStretch]; exact hhigh
  have hsame {β : Type} (g : State → β) (hg : ∀ (t : State) qs os, g { t with quires := qs, objs := os } = g t) :
    g (s.addStretch k c) = g s :=
      s.addStretch_same k c g (fun t qs => hg t qs t.objs) (fun t _ => hg t t.quires _) fun t _ => hg t t.quires _
  have hobj {i u : Nat} (h1 : i ≠ 0x7021) (h2 : i ≠ 0x7022) (hu : u < 256) := s.addStretch_obj k c h1 h2 hu
  obtain ⟨hover, hnoted, hrest⟩ := State.noteOverrun_counts _ _ ho' hc'
  refine ⟨_, exec_stretchOverrun_stretching c hs, hover, ?_, ?_, fun hp ha hall hn => ?_, fun hp => ?_⟩
  · rw [hrest _ _ (by decide) (by decide) (by omega), State.addStretch_total]
  · rw [hnoted, hobj (by decide) (by decide) (by omega)]
  · have hlines : (s.addStretch k c).lines = s.lines := hsame State.lines fun _ _ _ => rfl
    have hline : (s.addStretch k c).line = s.line := hsame State.line fun _ _ _ => rfl
    have hrecovery : (s.addStretch k c).recovery = s.recovery := hsame State.recovery fun _ _ _ => rfl
    have htag : (s.addStretch k c).jobTag = s.jobTag := hobj (by decide) (by decide) (by decide)
    have hchip : (s.addStretch k c).chip = s.chip := hobj (by decide) (by decide) (by decide)
    obtain ⟨hann, hcount⟩ := State.noteOverrun_lifts _ _ ho' hc' ((s.addStretch_plan k c).trans hp) (by rw [hrecovery, ha])
      (fun j hj => by rw [State.addStretch_overrun, hall j hj]) (by rw [hlines, hline]; exact hn)
    rw [hann, hcount, hlines, hline, htag, hchip, hobj (by decide) (by decide) (by decide)]
    exact ⟨rfl, rfl⟩
  · rw [State.noteOverrun_lines _ _ ((s.addStretch_plan k c).trans hp)]
    exact hsame State.lines fun _ _ _ => rfl

end

/-! ### Margin reports -/

/-- The lowest margin of a microsecond is recorded at 0x7024, and at 0x7025 where it is the first or the lowest (R209). -/
def State.marginKept (s : State) (k : Nat) (m : Int) : State :=
  let t := s.setObj 0x7024 k (unsigned 32 m)
  let t := if !(s.quire k).marginSeen || m < signed 32 (t.obj 0x7025 k) then t.setObj 0x7025 k (unsigned 32 m) else t
  t.updQuire k fun x => { x with marginSeen := true }

theorem State.marginKept_same {β : Type} (g : State → β) (hg : ∀ (t : State) qs os, g { t with quires := qs, objs := os } = g t)
    (s : State) (k : Nat) (m : Int) : g (s.marginKept k m) = g s := by
  have hif (p : Prop) [Decidable p] (t : State) (v : Nat) : g (if p then t.setObj 0x7025 k v else t) = g t := by
    split
    · exact hg t t.quires _
    · rfl
  have hupd (t : State) (f : Quire → Quire) : g (t.updQuire k f) = g t := hg t _ t.objs
  rw [State.marginKept]
  rw [hupd, hif]
  exact hg s s.quires _

theorem State.marginKept_obj (s : State) (k : QuireId) (m : Int) : (s.marginKept k m).obj 0x7024 k = unsigned 32 m ∧
    ((s.quire k).marginSeen = false ∨ m < signed 32 (s.obj 0x7025 k) → (s.marginKept k m).obj 0x7025 k = unsigned 32 m) ∧
    ∀ i u, i ≠ 0x7024 → i ≠ 0x7025 → u < 256 → (s.marginKept k m).obj i u = s.obj i u := by
  have hupd (t : State) (f : Quire → Quire) (i u : Nat) : (t.updQuire k f).obj i u = t.obj i u := rfl
  have hold : (s.setObj 0x7024 k (unsigned 32 m)).obj 0x7025 k = s.obj 0x7025 k :=
    State.obj_setObj_index _ (by decide) (by omega) (by omega) _
  have hif {i u : Nat} (hi : i ≠ 0x7025) (hu : u < 256) (p : Prop) [Decidable p] (t : State) (v : Nat) :
      (if p then t.setObj 0x7025 k v else t).obj i u = t.obj i u := by
    split
    · exact State.obj_setObj_index _ hi (by omega) hu v
    · rfl
  rw [State.marginKept]
  rw [hold, hupd, hupd, hif (by decide) (by omega), State.obj_setObj]
  refine ⟨rfl, fun h => ?_, fun i u h4 h5 hu => ?_⟩
  · rw [if_pos (by simpa using h), State.obj_setObj]
  · rw [hupd, hif h5 hu, State.obj_setObj_index _ h4 (by omega) hu]

/-- A margin is kept, and told once a line where it is below the threshold. -/
theorem State.recordMargin_eq (s : State) (k : Nat) (m : Int) : s.recordMargin k m =
    if m < signed 32 ((s.marginKept k m).obj 0x4704 0) && (s.quire k).marginTold ≠ some (s.marginKept k m).line then
      ((s.marginKept k m).updQuire k fun x => { x with marginTold := some (s.marginKept k m).line }).event 0x02 k (unsigned 64 m)
    else s.marginKept k m := by
  rw [recordMargin, marginKept]

section
variable {k : QuireId} {s : State} {xs : List Slacks} {m : Int}

theorem exec_marginLow_nil : exec (.marginLow k []) s = .next s := rfl

/-- A microsecond with samples records their lowest margin. -/
theorem exec_marginLow_lowest (h : lowestMargin xs = some m) :
    exec (.marginLow k xs) s = .next ((xs.foldl (fun s x => s.sample k x) s).recordMargin k m) := by
  rw [exec_marginLow, execMarginLow, State.endMicrosecond, h]

/-- What the record of a margin leaves (R209). -/
theorem recordMargin_leaves (s : State) (k : QuireId) (m : Int) :
    (s.recordMargin k m).obj 0x7024 k = unsigned 32 m ∧ (s.recordMargin k m).nibs = s.nibs ∧
    ((s.quire k).marginSeen = false ∨ m < signed 32 (s.obj 0x7025 k) → (s.recordMargin k m).obj 0x7025 k = unsigned 32 m) ∧
    (signed 32 (s.obj 0x4704 0) ≤ m ∨ (s.quire k).marginTold = some s.line → (s.recordMargin k m).agent = s.agent) ∧
    (m < signed 32 (s.obj 0x4704 0) → (s.quire k).marginTold ≠ some s.line →
      ((s.recordMargin k m).agent.log.getLast?.map fun r => (r.code, r.param)) = some (0x02, k.val) ∧
        ((s.recordMargin k m).quire k).marginTold = some s.line) := by
  obtain ⟨hlow, hlowest, hrest⟩ := s.marginKept_obj k m
  have hnibs : (s.marginKept k m).nibs = s.nibs := State.marginKept_same State.nibs (fun _ _ _ => rfl) s k m
  have hagent : (s.marginKept k m).agent = s.agent := State.marginKept_same State.agent (fun _ _ _ => rfl) s k m
  have hline : (s.marginKept k m).line = s.line := State.marginKept_same State.line (fun _ _ _ => rfl) s k m
  rw [State.recordMargin_eq, hrest _ _ (by decide) (by decide) (by decide), hline]
  by_cases htold : m < signed 32 (s.obj 0x4704 0) ∧ (s.quire k).marginTold ≠ some s.line
  · have hupd (t : State) (f : Quire → Quire) (i u : Nat) : (t.updQuire k f).obj i u = t.obj i u ∧ (t.updQuire k f).nibs = t.nibs :=
      ⟨rfl, rfl⟩
    have hquire (t : State) (c p d : Nat) : (t.event c p d).quire k = t.quire k := by
      rw [State.quire, State.event_quires, State.quire]
    rw [if_pos (by simpa using htold), State.event_obj, State.event_obj, State.event_nibs, (hupd _ _ _ _).1, (hupd _ _ _ _).1,
      (hupd _ _ 0 0).2, State.event_log_last, hquire, State.quire_updQuire]
    refine ⟨hlow, hnibs, hlowest, fun h => absurd h (by rw [not_or]; exact ⟨Int.not_le.2 htold.1, htold.2⟩), fun _ _ => ⟨?_, rfl⟩⟩
    rw [Nat.mod_eq_of_lt (by omega)]
  · rw [if_neg (by simpa using htold)]
    exact ⟨hlow, hnibs, hlowest, fun _ => hagent, fun h h' => absurd ⟨h, h'⟩ htold⟩

end

/-- Settles O32. -/
theorem quiresStretch : Obligations.QuiresStretch := by
  refine ⟨marginOf_spec, lowestMargin_iff, eightGood_iff, fun k s => ⟨exec_stretchStart_running, exec_stretchStart_stopped,
    fun c xs hs ho => ⟨fun hlow => stretch_below xs hs hlow, fun hhigh => stretch_reached hs ho hhigh⟩,
    fun c xs h => exec_stretch_still c xs h, fun xs m h => ⟨_, exec_marginLow_lowest h, ?_⟩, exec_marginLow_nil⟩⟩
  have hleaves := recordMargin_leaves (xs.foldl (fun s x => s.sample k x) s) k m
  obtain ⟨a, b, hquire⟩ := s.quire_samples (k := k) xs
  have hobj (i u : Nat) : (xs.foldl (fun s x => s.sample k x) s).obj i u = s.obj i u :=
    State.samples_same (fun t => t.obj i u) (fun _ _ => rfl) xs
  have hnibs : (xs.foldl (fun s x => s.sample k x) s).nibs = s.nibs := State.samples_same State.nibs (fun _ _ => rfl) xs
  have hline : (xs.foldl (fun s x => s.sample k x) s).line = s.line := State.samples_same State.line (fun _ _ => rfl) xs
  have hagent : (xs.foldl (fun s x => s.sample k x) s).agent = s.agent := State.samples_same State.agent (fun _ _ => rfl) xs
  rw [hquire, hobj, hobj, hnibs, hline, hagent] at hleaves
  exact hleaves

end Sys2Proof.Machine
end

section
/-! Proof of the statement on ticks and line boundaries (07 R212, R215, R223; 08 R236), and refutation of the one on loss of time (07 R224). -/

namespace Sys2Proof.Machine

namespace State

/-! ### A line boundary of an unanchored root -/

theorem foldl_same_mem {α β : Type} (g : State → β) (f : State → α → State) (l : List α) (hf : ∀ s, ∀ a ∈ l, g (f s a) = g s) (s : State) :
    g (l.foldl f s) = g s := by
  induction l generalizing s with
  | nil => rfl
  | cons a l ih =>
    rw [List.foldl_cons, ih (fun s b hb => hf s b (List.mem_cons_of_mem a hb)), hf s a List.mem_cons_self]

section
variable (s : State) {β : Type} (g : State → β)

/-- The end of the counts changes the quires and 0x7022 alone. -/
theorem endCounts_same (hq : ∀ (t : State) qs, g { t with quires := qs } = g t)
    (ho : ∀ (t : State) (k v : Nat), k < 16 → g (t.setObj 0x7022 k v) = g t) : g s.endCounts = g s := by
  refine foldl_same_mem g _ _ (fun t k hk => ?_) s
  rw [endCount, updQuire, hq]
  exact t.keepCount_same (k := ⟨k, List.mem_range.1 hk⟩) g fun t v => ho t k v (List.mem_range.1 hk)

theorem turnMaps_same (hq : ∀ (t : State) qs, g { t with quills := qs } = g t) (b : Bool) : g (s.turnMaps b) = g s :=
  foldl_same g _ (fun t _ => hq t _) _ s

/-- The report of the exchanges changes the quills and 0x6021 alone. -/
theorem closeExchanges_same (hq : ∀ (t : State) qs, g { t with quills := qs } = g t)
    (ho : ∀ (t : State) (k v : Nat), k < 16 → g (t.setObj 0x6021 k v) = g t) : g s.closeExchanges = g s := by
  have hif (t : State) (p : Prop) [Decidable p] (k v : Nat) (hk : k < 16) : g (if p then t else t.setObj 0x6021 k v) = g t := by
    split
    · rfl
    · exact ho t k v hk
  refine foldl_same_mem g _ _ (fun t k hk => ?_) s
  exact (hq _ _).trans (hif t _ k _ (List.mem_range.1 hk))

theorem forget_same (hq : ∀ (t : State) a qs, g { t with lines := { t.lines with announced := a }, quills := qs } = g t) (line : Nat) : g (s.forget line) = g s := by
  have hfold (t : State) (m : Nat) : g ((List.range 16).foldl (fun s q => s.updRuled q fun p =>
      { p with got := p.got.filter fun e => m ≤ e.1 }) t) = g t := foldl_same g _ (fun t _ => hq t t.lines.announced _) _ t
  exact (hq _ _ _).trans (hfold s _)

end

/-- The count of a quire as a line boundary leaves it. -/
theorem quire_endCounts (s : State) {k : Nat} (hk : k < 16) : (s.endCounts.quire k).count = 0 :=
  foldl_at (fun t => (t.quire k).count) (fun _ => 0) _ k (fun t => by rw [endCount, quire_updQuire])
    (fun t a ha => by
      rw [endCount, quire_updQuire_other _ _ _ ha.symm]
      rw [keepCount]
      split <;> rfl) _
    List.nodup_range (List.mem_range.2 hk) s

/-- A number that a quire's count replaces where the count is higher (R213). -/
def higher (v c : Nat) : Nat := if v < c then c % 2 ^ 32 else v

/-- The highest count of a line, once the line has ended. -/
theorem obj_endCounts (s : State) {k : Nat} (hk : k < 16) : s.endCounts.obj 0x7022 k = higher (s.obj 0x7022 k) (s.quire k).count := by
  have hkeep (t : State) : ((t.keepCount k).quire k) = t.quire k := t.keepCount_same ⟨k, hk⟩ (fun t => t.quire k) fun _ _ => rfl
  have hupd (t : State) (a : Nat) (f : Quire → Quire) : (t.updQuire a f).obj 0x7022 k = t.obj 0x7022 k := rfl
  have hpair : (s.endCounts.obj 0x7022 k, (s.endCounts.quire k).count) = (higher (s.obj 0x7022 k) (s.quire k).count, 0) :=
    foldl_at (fun t => (t.obj 0x7022 k, (t.quire k).count)) (fun p => (higher p.1 p.2, 0)) endCount k
    (fun t => by
      rw [endCount, quire_updQuire, hupd]
      exact Prod.ext (t.keepCount_obj ⟨k, hk⟩) rfl)
    (fun t a ha => by
      rw [endCount, quire_updQuire_other _ _ _ ha.symm, hupd, keepCount]
      split
      · exact Prod.ext (obj_setObj_sub t ha.symm _) rfl
      · rfl) _ List.nodup_range (List.mem_range.2 hk) s
  exact (Prod.mk.inj hpair).1

/-- A root without an anchor at a line boundary: VALID unless it is INVALID, and not steered (R223). -/
def rootTime (t : TimeState) : TimeState :=
  let t := if t.st = 4 then t else { t with st := 2, parent := none }
  { t with adj := {}, ptp := { t.ptp with status := 0 } }

theorem servoLine_root {s : State} (hr : s.isRoot = true) (h : s.obj 0x2707 0 = 0) :
    s.servoLine = (let t := closeExchanges { s with time := rootTime s.time }
      { t with time := { t.time with ptp := { t.time.ptp with sum := 0, count := 0 } } }) := by
  have hreport : s.reportAnchor = s := by
    rw [reportAnchor]
    rw [h]
    rfl
  have hobj (t : TimeState) : ({ s with time := t } : State).obj 0x2707 0 = 0 := h
  rw [servoLine, hreport, hr, if_pos rfl, rootLine]
  dsimp only
  rw [hobj, if_pos rfl, rootTime]

/-- A line that no pen-lift names fires. -/
theorem fireLine_changes (s : State) : ∃ c p f, s.fireLine = { s with lines := { s.lines with
    fired := s.lines.fired + 1, counting := c, planLine := p, firstOn := f } } := by
  rw [fireLine]
  dsimp only
  rw [countPlanLine]
  split
  · exact ⟨_, _, _, rfl⟩
  · split
    · exact ⟨_, _, _, rfl⟩
    · exact ⟨_, _, _, rfl⟩

end State

/-! ### Ticks and boundaries -/

/-- A tick with the reference adds its units and keeps the rest (R215). -/
theorem exec_timeClockTick_runs {s : State} (h : s.time.refOk = true) : exec .timeClockTick s = .next { s with time := { s.time with
    clock := s.time.clock + ((tickUnits s.time.adj).add s.time.carry).floor.toNat
    carry := ((tickUnits s.time.adj).add s.time.carry).add
      (Frac.ofInt (-((((tickUnits s.time.adj).add s.time.carry).floor.toNat : Nat) : Int)))
    ticks := s.time.ticks + 1 } } := by
  rw [exec_timeClockTick, execTimeClockTick, State.tick, h, if_neg (by decide)]

/-- The units of an uncorrected tick: 0.5 ns. -/
theorem uncorrected_tick : ((tickUnits {}).add {}).floor.toNat = 2 ^ 31 := by decide

theorem exec_lineBoundary_early {s : State} (h : s.line ≤ s.time.lineDone) : exec (.lineBoundary []) s = .next s := by
  rw [exec_lineBoundary, execLineBoundary, State.beginLine]
  dsimp only
  rw [if_pos h]

/-- The counts have ended, the line that begins is noted, and the stroke-use maps are turned. -/
def State.lineTurned (s : State) : State :=
  let t := s.endCounts
  State.turnMaps { t with time := { t.time with lineDone := s.line } } (!s.lifted s.time.lineDone)

theorem exec_lineBoundary_late {s : State} (h : s.time.lineDone < s.line) : exec (.lineBoundary []) s = .next
    ((if s.lineTurned.servoLine.lifted s.line then s.lineTurned.servoLine.applyLift s.line else s.lineTurned.servoLine.fireLine).forget
      s.line) := by
  have hnone : s.countCycles [] = s := rfl
  rw [exec_lineBoundary, execLineBoundary, State.beginLine]
  dsimp only
  rw [if_neg (Nat.not_le.2 h), State.lineTurned, hnone]

section
variable (s : State) {β : Type} (g : State → β)

theorem State.lineTurned_same (hq : ∀ (t : State) qs xs, g { t with quires := qs, quills := xs } = g t)
    (hl : ∀ (t : State) l, g { t with time := { t.time with lineDone := l } } = g t)
    (ho : ∀ (t : State) (k v : Nat), k < 16 → g (t.setObj 0x7022 k v) = g t) : g s.lineTurned = g s := by
  rw [State.lineTurned]
  dsimp only
  rw [State.turnMaps_same _ g fun t xs => hq t t.quires xs, hl, State.endCounts_same _ g (fun t qs => hq t qs t.quills) ho]

/-- Where its time is not read, the servo of an unanchored root changes the quills and 0x6021 alone. -/
theorem State.servoLine_same (hr : s.isRoot = true) (h : s.obj 0x2707 0 = 0)
    (hq : ∀ (t : State) xs, g { t with quills := xs } = g t) (ht : ∀ (t : State) x, g { t with time := x } = g t)
    (ho : ∀ (t : State) (k v : Nat), k < 16 → g (t.setObj 0x6021 k v) = g t) : g s.servoLine = g s := by
  rw [State.servoLine_root hr h]
  dsimp only
  rw [ht, State.closeExchanges_same _ g hq ho, ht]

end

/-- Settles O33. -/
theorem timeGoesOn : Obligations.TimeGoesOn := by
  refine ⟨fun s h => exec_timeClockTick_runs h, fun s h ha hc => ⟨_, exec_timeClockTick_runs h, ?_⟩,
    fun s h => exec_lineBoundary_early h, fun s hlate hroot hfree hlift => ⟨_, exec_lineBoundary_late hlate, ?_⟩⟩
  · rw [ha, hc, uncorrected_tick]
  have hobj {i u : Nat} (hi : i ≠ 0x7022) (hu : u < 256) : s.lineTurned.obj i u = s.obj i u :=
    s.lineTurned_same (fun t => t.obj i u) (fun _ _ _ => rfl) (fun _ _ => rfl) fun t k v hk => t.obj_setObj_index hi (by omega) hu v
  have hroot' : s.lineTurned.isRoot = true := by
    rw [State.isRoot, State.chip, hobj (by decide) (by decide), hobj (by decide) (by decide)]
    exact hroot
  have hfree' : s.lineTurned.obj 0x2707 0 = 0 := (hobj (by decide) (by decide)).trans hfree
  have hlines : s.lineTurned.servoLine.lines = s.lines :=
    (s.lineTurned.servoLine_same State.lines hroot' hfree' (fun _ _ => rfl) (fun _ _ => rfl) fun _ _ _ _ => rfl).trans
      (s.lineTurned_same State.lines (fun _ _ _ => rfl) (fun _ _ => rfl) fun _ _ _ _ => rfl)
  have hnot : ¬s.lineTurned.servoLine.lifted s.line = true := by
    rw [State.lifted, hlines]
    exact Bool.eq_false_iff.1 hlift
  have htime : s.lineTurned.time = { s.time with lineDone := s.line } := by
    rw [State.lineTurned]
    dsimp only
    rw [State.turnMaps_same _ State.time fun _ _ => rfl, State.endCounts_same _ State.time (fun _ _ => rfl) fun _ _ _ _ => rfl]
  have htime' : s.lineTurned.servoLine.time = { State.rootTime { s.time with lineDone := s.line } with
      ptp := { (State.rootTime { s.time with lineDone := s.line }).ptp with sum := 0, count := 0 } } := by
    rw [State.servoLine_root hroot' hfree']
    dsimp only
    rw [State.closeExchanges_same _ State.time (fun _ _ => rfl) fun _ _ _ _ => rfl, htime]
  obtain ⟨c, p, f, hfire⟩ := s.lineTurned.servoLine.fireLine_changes
  rw [if_neg hnot, hfire]
  refine ⟨?_, ?_, ?_, ?_, fun k hk => ?_, fun k hk => ?_⟩
  · rw [State.forget_same _ State.time fun _ _ _ => rfl, htime', State.rootTime]
    split <;> rfl
  · rw [State.forget_same _ State.time fun _ _ _ => rfl, htime', State.rootTime]
    split <;> rfl
  · rw [State.forget_same _ State.time fun _ _ _ => rfl, htime', State.rootTime]
    split
    · assumption
    · rfl
  · rw [State.forget_same _ (fun t => t.lines.fired) fun _ _ _ => rfl]
    dsimp only
    rw [hlines]
  · rw [State.forget_same _ (fun t => t.quire k) fun _ _ _ => rfl]
    have hquires : s.lineTurned.servoLine.quire k = s.lineTurned.quire k :=
      s.lineTurned.servoLine_same (fun t => t.quire k) hroot' hfree' (fun _ _ => rfl) (fun _ _ => rfl) fun _ _ _ _ => rfl
    have hset (t : State) (x : TimeState) : ({ t with time := x } : State).quire k = t.quire k := rfl
    have hmaps (t : State) (b : Bool) : (t.turnMaps b).quire k = t.quire k := t.turnMaps_same (fun t => t.quire k) (fun _ _ => rfl) b
    have hturned : s.lineTurned.quire k = s.endCounts.quire k := by
      unfold State.lineTurned
      exact (hmaps _ _).trans (hset _ _)
    have hfired (t : State) (l : Lines) : ({ t with lines := l } : State).quire k = t.quire k := rfl
    rw [hfired, hquires, hturned, s.quire_endCounts hk]
  · rw [State.forget_same _ (fun t => t.obj 0x7022 k) fun _ _ _ => rfl]
    have hservo : s.lineTurned.servoLine.obj 0x7022 k = s.lineTurned.obj 0x7022 k :=
      s.lineTurned.servoLine_same (fun t => t.obj 0x7022 k) hroot' hfree' (fun _ _ => rfl) (fun _ _ => rfl) fun t j v hj =>
        t.obj_setObj_index (by decide) (by omega) (by omega) v
    have hset (t : State) (x : TimeState) : ({ t with time := x } : State).obj 0x7022 k = t.obj 0x7022 k := rfl
    have hmaps (t : State) (b : Bool) : (t.turnMaps b).obj 0x7022 k = t.obj 0x7022 k :=
      t.turnMaps_same (fun t => t.obj 0x7022 k) (fun _ _ => rfl) b
    have hturned : s.lineTurned.obj 0x7022 k = s.endCounts.obj 0x7022 k := by
      unfold State.lineTurned
      exact (hmaps _ _).trans (hset _ _)
    have hfired (t : State) (l : Lines) : ({ t with lines := l } : State).obj 0x7022 k = t.obj 0x7022 k := rfl
    rw [hfired, hservo, hturned, s.obj_endCounts hk, State.higher]

/-! ### Loss of time -/

/-- A module with a parent of no quill of it, whose subindex at 0x6022 is the object 0x8042:00. -/
def strayParent : State := { State.reset with
  objs := SMap.set none [] (objKey 0x2706 0) (some 1)
  time := { State.reset.time with st := 1, parent := some 2105344, ticks := 4000 }
  quills := SMap.set {} [] 2105344 { link := .up } }

/-- Refutes O34: the blocks missing from a parent are counted at 0x6022 under its number, and a parent beyond the module's 16 quills, which
the statement does not bar, has there the object 0x8042:00, which then rises by 5. -/
theorem not_timeIsHeldAndLost : ¬ Obligations.TimeIsHeldAndLost := by
  intro h
  obtain ⟨t, hexec, -, -, -, hcount⟩ := h.2.2.1 strayParent (by decide) (by decide) (by decide)
  have hfive : exec .timeParentLoss strayParent = .next t → t.obj 0x8042 0 = 5 := by
    intro he
    injection he with he
    rw [← he]
    decide
  have hold : strayParent.obj 0x8042 0 = 0 := by decide
  rw [hfive hexec, hold] at hcount
  exact absurd hcount (by decide)

end Sys2Proof.Machine
end

section
/-! Proof of the statement on the decisions of strokes (08 R235-R260). -/

namespace Sys2Proof.Machine

namespace State

/-! ### The ruled side of a quill -/

section
variable (s : State)

@[simp] theorem ruled_updRuled (q : Nat) (f : RuledPort → RuledPort) : (s.updRuled q f).ruled q = f (s.ruled q) :=
  congrArg Quill.ruled (s.quill_updQuill q _)

theorem ruled_updRuled_other (q : Nat) (f : RuledPort → RuledPort) {k : Nat} (h : k ≠ q) : (s.updRuled q f).ruled k = s.ruled k :=
  congrArg Quill.ruled (s.quill_updQuill_other q _ h)

/-- What a change of one ruled side leaves alone there it leaves alone at every quill. -/
theorem ruled_updRuled_same {β : Type} (g : RuledPort → β) {q : Nat} {f : RuledPort → RuledPort} (hf : g (f (s.ruled q)) = g (s.ruled q))
    (k : Nat) : g ((s.updRuled q f).ruled k) = g (s.ruled k) :=
  s.quill_updQuill_same (fun x => g x.ruled) hf k

theorem ruled_requestPenlift (c k : Nat) : (s.requestPenlift c).ruled k = s.ruled k := by
  have hrelay (t : State) (a : Announced) : (t.relayPenlift a none).ruled k = t.ruled k := by
    refine foldl_same (fun t => t.ruled k) _ (fun t q => ?_) _ _
    split
    · exact t.quill_updQuill_same Quill.ruled rfl k
    · rfl
  rw [requestPenlift]
  dsimp only
  split
  · rfl
  · rw [hrelay]
    rfl

/-! ### The stroke that a quill has decided -/

section
variable (p : RuledPort)

theorem decided_put (rs : List Nat) (off : Nat) (bs : List Byte) (g e n : Nat) (fr : List Nat) :
    (p.put rs off bs g e n fr).decided = p.decided := by
  have hstamp (as : List Nat) : ∀ (u : RuledPort) (b : Nat), (u.stampBlocks rs g e n b as).decided = u.decided := by
    induction as with
    | nil => exact fun _ _ => rfl
    | cons a as ih =>
      intro u b
      rw [RuledPort.stampBlocks, ih]
      split <;> rfl
  exact hstamp fr _ _

end

/-- The stroke decided last. -/
def decidedAt (q : Nat) : Nat := (s.ruled q).decided

variable (q : Nat)

theorem decidedAt_updRuled {f : RuledPort → RuledPort} (hf : ∀ p, (f p).decided = p.decided) (k : Nat) :
    (s.updRuled k f).decidedAt q = s.decidedAt q := s.ruled_updRuled_same RuledPort.decided (hf _) q

@[simp] theorem decidedAt_bump (i u k : Nat) : (s.bump i u k).decidedAt q = s.decidedAt q := rfl
@[simp] theorem decidedAt_took : s.took.decidedAt q = s.decidedAt q := rfl
@[simp] theorem decidedAt_requestPenlift (c : Nat) : (s.requestPenlift c).decidedAt q = s.decidedAt q :=
  congrArg RuledPort.decided (s.ruled_requestPenlift c q)
@[simp] theorem decidedAt_blot (r : Nat) : (s.blot r).decidedAt q = s.decidedAt q :=
  s.blot_quill_same (fun x => x.ruled.decided) (fun _ _ _ _ _ _ _ => rfl) r q

theorem noteOccupancy_same {β : Type} (g : State → β) (k : Nat) (hg : ∀ (t : State) v, g (t.setObj 0x6048 k v) = g t) :
    g (s.noteOccupancy k) = g s := by
  rw [noteOccupancy]
  split
  · exact hg s _
  · rfl

/-- What a frame that leaves changes: its ruled side, the counts of frames and the occupancy. -/
theorem emit_same {β : Type} (g : State → β) (t : Turn) (f : Frame)
    (hr : ∀ (u : State) h, (∀ p : RuledPort, ∃ a b c, h p = { p with out := some f, uses := a, usesNext := b, kept := c }) →
      g (u.updRuled t.q h) = g u) (ht : ∀ u : State, g u.took = g u)
    (ho : ∀ (u : State) i v, i = 0x6033 ∨ i = 0x6035 ∨ i = 0x6048 → g (u.setObj i t.q v) = g u) : g (s.emit t f) = g s := by
  have htook (p : Prop) [Decidable p] (u : State) : g (if p then u.took else u) = g u := by
    split
    · exact ht u
    · rfl
  have hocc (p : Prop) [Decidable p] (u : State) : g (if p then u.noteOccupancy t.q else u) = g u := by
    split
    · exact u.noteOccupancy_same g t.q fun u v => ho u _ v (by simp)
    · rfl
  have hbump (u : State) (i j : Nat) (hi : i = 0x6033 ∨ i = 0x6035 ∨ i = 0x6048) : g (u.bump i t.q j) = g u := ho u i _ hi
  have hcu (p : Prop) [Decidable p] (u : State) : g (if p then u.bump 0x6035 t.q 1 else u) = g u := by
    split
    · exact hbump u _ 1 (by simp)
    · rfl
  have hcount (p c : Prop) [Decidable p] [Decidable c] (u : State) :
      g (if p then (if c then (u.bump 0x6033 t.q 1).bump 0x6035 t.q 1 else u.bump 0x6033 t.q 1) else u) = g u := by
    split
    · rw [hcu, hbump _ _ _ (by simp)]
    · rfl
  rw [emit]
  dsimp only
  rw [hcount, hocc, hr _ _ fun p => ⟨_, _, _, rfl⟩, htook]

@[simp] theorem decidedAt_emit (t : Turn) (f : Frame) : (s.emit t f).decidedAt q = s.decidedAt q := by
  refine s.emit_same (fun u => u.decidedAt q) t f (fun u h hh => u.decidedAt_updRuled q (fun p => ?_) t.q) (fun _ => rfl)
    fun _ _ _ _ => rfl
  obtain ⟨a, b, c, h⟩ := hh p
  rw [h]

theorem decidedAt_noteTurn (t : Turn) {f : RuledPort → RuledPort} (hf : ∀ p, (f p).decided = p.decided) :
    (s.noteTurn t f).decidedAt q = s.decidedAt q := by
  rw [noteTurn]
  split
  · rfl
  · exact decidedAt_updRuled s q hf t.q

@[simp] theorem decidedAt_emitVoid (t : Turn) (why : Nat) : (s.emitVoid t why).decidedAt q = s.decidedAt q := s.decidedAt_emit ..

@[simp] theorem decidedAt_emitLate (t : Turn) : (s.emitLate t).decidedAt q = s.decidedAt q := by
  rw [emitLate]
  have hlate : (((s.noteTurn t fun p => p.setOwed t.pk true).bump 0x6034 t.q 1).emitVoid t 1).decidedAt q = s.decidedAt q := by
    rw [decidedAt_emitVoid, decidedAt_bump, decidedAt_noteTurn]
    exact fun _ => rfl
  split
  · rw [decidedAt_requestPenlift, decidedAt_bump, hlate]
  · exact hlate

@[simp] theorem decidedAt_drainEdge (n k : Nat) : (drainEdge n k s).decidedAt q = s.decidedAt q := by
  induction n generalizing s with
  | zero => rfl
  | succ n ih =>
    rw [drainEdge]
    split
    · rfl
    · split
      · dsimp only
        split
        · rfl
        · rw [ih, decidedAt_updRuled]
          exact fun _ => decided_put ..
      · rw [ih, decidedAt_updRuled]
        exact fun _ => rfl

@[simp] theorem decidedAt_emitData (t : Turn) (bs : List Byte) : (s.emitData t bs).decidedAt q = s.decidedAt q := by
  rw [emitData]
  rw [offerEdge, decidedAt_drainEdge, decidedAt_emit, decidedAt_updRuled, decidedAt_noteTurn]
  · exact fun _ => rfl
  · exact fun _ => rfl

@[simp] theorem decidedAt_holdInput (t : Turn) (f : Frame) : (s.holdInput t f).decidedAt q = s.decidedAt q := by
  rw [holdInput, decidedAt_updRuled]
  exact fun _ => rfl

@[simp] theorem decidedAt_emitHeld (t : Turn) : (s.emitHeld t).decidedAt q = s.decidedAt q := by
  rw [emitHeld]
  rw [decidedAt_emitData, decidedAt_updRuled]
  exact fun _ => rfl

@[simp] theorem decidedAt_blotTurn (t : Turn) (r : Nat) : (s.blotTurn t r).decidedAt q = s.decidedAt q := by simp [blotTurn]
@[simp] theorem decidedAt_overrunTurn (t : Turn) : (s.overrunTurn t).decidedAt q = s.decidedAt q := by simp [overrunTurn]

@[simp] theorem decidedAt_originate (t : Turn) : (s.originate t).decidedAt q = s.decidedAt q := by
  rw [originate]
  split
  · simp
  · split <;> simp

/-- An input is taken from what its quill holds, and changes nothing else. -/
theorem input_same {β : Type} (g : State → β) (hg : ∀ (u : State) k (m : RuledPort → SMap (Option RxInput)), g (u.updRuled k fun p => { p with got := m p }) = g u) (t : Turn) :
    g (s.input t).1 = g s := by
  rw [input]
  dsimp only
  split
  · rfl
  · split
    · rfl
    · split
      · rfl
      · exact hg s _ (fun p => SMap.set none p.got _ _)

@[simp] theorem decidedAt_input (t : Turn) : (s.input t).1.decidedAt q = s.decidedAt q :=
  s.input_same (fun u => u.decidedAt q) (fun u k m => by rw [decidedAt_updRuled]; exact fun _ => rfl) t

@[simp] theorem decidedAt_forward (t : Turn) : (s.forward t).decidedAt q = s.decidedAt q := by
  rw [forward]
  dsimp only
  split <;> simp [voidForeign]

@[simp] theorem decidedAt_combineInput (t : Turn) : (s.combineInput t).1.decidedAt q = s.decidedAt q := by
  rw [combineInput]
  split
  · simp
  · split
    · simp
    · split <;> simp

@[simp] theorem decidedAt_combinePrimary (t : Turn) (f : Option Frame) (why : Nat) :
    (s.combinePrimary t f why).decidedAt q = s.decidedAt q := by
  unfold combinePrimary
  dsimp only
  split
  · simp
  · split
    · split
      · rw [decidedAt_updRuled, decidedAt_holdInput, decidedAt_emitHeld]
        exact fun _ => rfl
      · simp
      · simp
      · simp
    · split
      · split <;> simp
      · split <;> simp

@[simp] theorem decidedAt_combineCatchUp (t : Turn) (f : Option Frame) (why : Nat) :
    (s.combineCatchUp t f why).decidedAt q = s.decidedAt q := by
  have hstray (u : State) (p : Prop) [Decidable p] : (if p then u.bump 0x8054 0 1 else u).decidedAt q = u.decidedAt q := by
    split <;> rfl
  unfold combineCatchUp
  dsimp only
  split
  · simp [hstray]
  · split
    · split
      · simp [hstray]
      · split <;> simp
    · split
      · split <;> simp
      · split <;> simp

@[simp] theorem decidedAt_combine (t : Turn) : (s.combine t).decidedAt q = s.decidedAt q := by
  rw [combine]
  split
  · simp
  · split <;> simp

/-- The entry of a stroke acts without another decision. -/
theorem decidedAt_actTurn (t : Turn) : (s.actTurn t).decidedAt q = s.decidedAt q := by
  rw [actTurn]
  split
  · split <;> simp
  · simp
  · split <;> simp
  · simp

theorem decidedAt_emitPause (t : Turn) : (s.emitPause t).decidedAt q = s.decidedAt q := by
  rw [emitPause]
  split <;> simp [voidForeign]

end

/-! ### Frames that leave -/

section
variable (s : State) (t : Turn)

/-- The ruled side that a frame leaves from: the frame is its output, and uses and kept copies are noted. -/
theorem ruled_emit (f : Frame) : ∃ a b c, (s.emit t f).ruled t.q = { s.ruled t.q with out := some f, uses := a, usesNext := b, kept := c } := by
  have htook (p : Prop) [Decidable p] (u : State) : (if p then u.took else u).ruled t.q = u.ruled t.q := by split <;> rfl
  have hocc (p : Prop) [Decidable p] (u : State) : (if p then u.noteOccupancy t.q else u).ruled t.q = u.ruled t.q := by
    split
    · exact u.noteOccupancy_same (fun u => u.ruled t.q) t.q fun _ _ => rfl
    · rfl
  have hcount (p c : Prop) [Decidable p] [Decidable c] (u : State) :
      (if p then (if c then (u.bump 0x6033 t.q 1).bump 0x6035 t.q 1 else u.bump 0x6033 t.q 1) else u).ruled t.q = u.ruled t.q := by
    split
    · split <;> rfl
    · rfl
  rw [emit]
  dsimp only
  rw [hcount, hocc, ruled_updRuled, htook]
  exact ⟨_, _, _, rfl⟩

/-- A turn's entry states are noted in its ruled side alone. -/
theorem noteTurn_same {β : Type} (g : State → β) {f : RuledPort → RuledPort} (hg : ∀ u : State, g (u.updRuled t.q f) = g u) :
    g (s.noteTurn t f) = g s := by
  rw [noteTurn]
  split
  · rfl
  · exact hg s

theorem ruled_noteTurn (f : RuledPort → RuledPort) :
    (s.noteTurn t f).ruled t.q = if s.planAhead t.line then s.ruled t.q else f (s.ruled t.q) := by
  rw [noteTurn]
  split
  · rfl
  · rw [ruled_updRuled]

theorem inst_updRuled {q : Nat} {f : RuledPort → RuledPort} (hf : ∀ p, (f p).sent = p.sent) : (s.updRuled q f).inst t = s.inst t := by
  have hahead : (s.updRuled q f).planAhead t.line = s.planAhead t.line := rfl
  rw [inst, inst, hahead, s.ruled_updRuled_same RuledPort.sent (hf _)]

/-- DATA that leaves with nothing waiting at the edge port. -/
theorem ruled_emitData (he : (s.ruled t.q).edge = []) (bs : List Byte) : ∃ a b c, (s.emitData t bs).ruled t.q =
    { (if s.planAhead t.line then s.ruled t.q else ((s.ruled t.q).countSent t.pk).setOwed t.pk false).depart t.region with
      out := some (s.dataFrame t.line t.pk t.cu t.region ((s.ruled t.q).lastStamp (regBase t.region) (regLen t.region)) bs (s.inst t))
      uses := a, usesNext := b, kept := c } := by
  obtain ⟨a, b, c, h⟩ := ((s.noteTurn t fun p => (p.countSent t.pk).setOwed t.pk false).updRuled t.q fun p => p.depart t.region).ruled_emit t
    (s.dataFrame t.line t.pk t.cu t.region ((s.ruled t.q).lastStamp (regBase t.region) (regLen t.region)) bs (s.inst t))
  rw [ruled_updRuled, ruled_noteTurn] at h
  have hedge : ((((s.noteTurn t fun p => (p.countSent t.pk).setOwed t.pk false).updRuled t.q fun p => p.depart t.region).emit t
      (s.dataFrame t.line t.pk t.cu t.region ((s.ruled t.q).lastStamp (regBase t.region) (regLen t.region)) bs (s.inst t))).ruled t.q).edge
        = [] := by
    rw [h, ← he]
    split <;> rfl
  rw [ruled] at hedge
  refine ⟨a, b, c, ?_⟩
  rw [emitData]
  dsimp only
  rw [offerEdge, hedge]
  exact h

/-- A count of the quill changes nothing that the frames of an entry carry. -/
theorem voidFrame_bump {i q : Nat} (h1 : 0x2801 ≠ i) (h3 : 0x2803 ≠ i) (hA : 0x2A00 ≠ i) (hq : q < 256) (k line pk : Nat) (cu : Bool)
    (why inst : Nat) : (s.bump i q k).voidFrame line pk cu why inst = s.voidFrame line pk cu why inst := by
  have hobj {j : Nat} (hj : j ≠ i) : (s.bump i q k).obj j 0 = s.obj j 0 := s.obj_bump_index hj hq (by decide) k
  have htag : (s.bump i q k).jobTag = s.jobTag := hobj h1
  have hchip : (s.bump i q k).chip = s.chip := hobj hA
  have hline : (s.bump i q k).planLineOf line = s.planLineOf line := rfl
  have hbits : (s.bump i q k).originBits line pk = s.originBits line pk := by
    unfold originBits
    rw [hobj h3, htag, hchip, hline]
  unfold voidFrame
  rw [hbits]

/-- The state in which VOID LATE leaves: the entry owed, and counted at 0x6034. -/
def lateNoted : State := (s.noteTurn t fun p => p.setOwed t.pk true).bump 0x6034 t.q 1

theorem lateNoted_same {β : Type} (g : State → β) (hr : ∀ u : State, g (u.updRuled t.q fun p => p.setOwed t.pk true) = g u)
    (ho : ∀ (u : State) v, g (u.setObj 0x6034 t.q v) = g u) : g (s.lateNoted t) = g s :=
  (ho _ _).trans (s.noteTurn_same t g hr)

variable (hq : t.q < 16)
include hq

/-- VOID LATE leaves; where no later stroke can carry the DATA, a pen-lift is requested. -/
theorem emitLate_eq : s.emitLate t = if t.lastChance then
    (((s.lateNoted t).emit t (s.voidFrame t.line t.pk t.cu 1 (s.inst t))).bump 0x8051 0 1).requestPenlift 1
    else (s.lateNoted t).emit t (s.voidFrame t.line t.pk t.cu 1 (s.inst t)) := by
  have hinst : (s.lateNoted t).inst t = s.inst t :=
    s.lateNoted_same t (fun u => u.inst t) (fun u => u.inst_updRuled t fun _ => rfl) fun _ _ => rfl
  have hvoid (n : Nat) : (s.lateNoted t).voidFrame t.line t.pk t.cu 1 n = s.voidFrame t.line t.pk t.cu 1 n := by
    rw [lateNoted, voidFrame_bump _ (by decide) (by decide) (by decide) (by omega)]
    exact s.noteTurn_same t (fun u => u.voidFrame t.line t.pk t.cu 1 n) fun _ => rfl
  rw [emitLate, ← lateNoted, emitVoid, hinst, hvoid]

theorem ruled_emitLate : ∃ a b c, (s.emitLate t).ruled t.q =
    { (if s.planAhead t.line then s.ruled t.q else (s.ruled t.q).setOwed t.pk true) with
      out := some (s.voidFrame t.line t.pk t.cu 1 (s.inst t)), uses := a, usesNext := b, kept := c } := by
  have hnoted : (s.lateNoted t).ruled t.q = if s.planAhead t.line then s.ruled t.q else (s.ruled t.q).setOwed t.pk true :=
    s.ruled_noteTurn t fun p => p.setOwed t.pk true
  have hbump (u : State) : (u.bump 0x8051 0 1).ruled t.q = u.ruled t.q := rfl
  obtain ⟨a, b, c, h⟩ := (s.lateNoted t).ruled_emit t (s.voidFrame t.line t.pk t.cu 1 (s.inst t))
  rw [hnoted] at h
  refine ⟨a, b, c, ?_⟩
  rw [s.emitLate_eq t hq]
  split
  · rw [ruled_requestPenlift, hbump, h]
  · exact h

/-- A frame that leaves is counted at no other object than those of frames. -/
theorem emit_obj {i u : Nat} (h3 : i ≠ 0x6033) (h5 : i ≠ 0x6035) (h8 : i ≠ 0x6048) (hu : u < 256) (f : Frame) :
    (s.emit t f).obj i u = s.obj i u := by
  refine s.emit_same (fun v => v.obj i u) t f (fun _ _ _ => rfl) (fun _ => rfl) fun v j n hj => ?_
  refine v.obj_setObj_index ?_ (by omega) hu n
  rcases hj with rfl | rfl | rfl <;> assumption

theorem emitLate_obj : (s.emitLate t).obj 0x6034 t.q = (s.obj 0x6034 t.q + 1) % 2 ^ 64 := by
  have hnoted : (s.lateNoted t).obj 0x6034 t.q = (s.obj 0x6034 t.q + 1) % 2 ^ 64 := by
    rw [lateNoted, obj_bump, s.noteTurn_same t (fun u => u.obj 0x6034 t.q) fun _ => rfl]
  have hlift (v : State) : (v.requestPenlift 1).obj 0x6034 t.q = v.obj 0x6034 t.q :=
    requestPenlift_same (fun u => u.obj 0x6034 t.q) (fun _ _ _ => rfl) v 1
  rw [s.emitLate_eq t hq]
  split
  · rw [hlift, obj_bump_index _ (by decide) (by decide) (by omega), emit_obj _ t hq (by decide) (by decide) (by decide) (by omega), hnoted]
  · rw [emit_obj _ t hq (by decide) (by decide) (by decide) (by omega), hnoted]

end

/-! ### Inputs -/

/-- The input of an entry, and whether the line before an apply would have sent it, where its quill holds `got` (R238). -/
def inputFrom (s : State) (t : Turn) (got : SMap (Option RxInput)) : Option Frame × Bool :=
  let arr := entArr t.entry
  let i := s.firedIndex t.line
  let early : Bool := t.st < arr
  let newPlan : Bool := s.planAhead t.line && s.binding.fn.code = .on
  if early && (newPlan || s.onAhead t.line || s.lines.firstFired = some i || s.lines.firstOn = some i) then (none, true)
  else if early && i = 0 then (none, false)
  else
    match SMap.get none got ((if early then i - 1 else i) * 1024 + arr) with
    | none => (none, false)
    | some g => (if g.lost || decide ((384 * (t.stroke : Int)) < g.arrival + 576) then none else some g.frame, false)

/-- The DATA frame that an input is to a COMBINE entry, or the VREASON of a VOID one (R251). -/
def inputMeans (t : Turn) (p : Option Frame × Bool) : Option Frame × Nat :=
  match p.1 with
  | none => (none, if p.2 then 0 else 2)
  | some f => if f.kind ≠ 0 then (none, f.why) else if combineOk t.region f then (some f, 0) else (none, 2)

section
variable (s : State) (t : Turn)

theorem input_snd : (s.input t).2 = s.inputFrom t (s.ruled (entInq t.entry)).got := by
  rw [input, inputFrom]
  dsimp only
  split
  · rfl
  · split
    · rfl
    · generalize SMap.get none (s.ruled (entInq t.entry)).got _ = g
      cases g <;> rfl

theorem combineInput_snd : (s.combineInput t).2 = inputMeans t (s.input t).2 := by
  rw [combineInput, inputMeans]
  generalize s.input t = r
  obtain ⟨u, f, b⟩ := r
  cases f with
  | none => rfl
  | some f =>
    dsimp only
    split
    · rfl
    · split <;> rfl

/-- Where a COMBINE entry's input is a DATA frame, it is the input taken. -/
theorem combineInput_some {f : Frame} (h : (s.combineInput t).2 = (some f, 0)) : (s.combineInput t).1 = (s.input t).1 := by
  rw [combineInput] at h ⊢
  generalize s.input t = r at h ⊢
  obtain ⟨u, g, b⟩ := r
  cases g with
  | none => exact absurd (congrArg Prod.fst h) (by simp)
  | some g =>
    dsimp only at h ⊢
    split
    · rfl
    · rw [if_neg ‹_›] at h
      split
      · rfl
      · rw [if_neg ‹_›] at h
        exact absurd (congrArg Prod.fst h) (by simp)

/-- An input taken leaves of each ruled side whatever does not read what it holds. -/
theorem ruled_input {β : Type} (g : RuledPort → β) (hg : ∀ (p : RuledPort) m, g { p with got := m } = g p) (k : Nat) :
    g ((s.input t).1.ruled k) = g (s.ruled k) :=
  s.input_same (fun u => g (u.ruled k)) (fun u _ _ => u.ruled_updRuled_same g (hg _ _) k) t

end

/-! ### The decision of a stroke -/

/-- Quill `q` takes the decision of stroke `d`. -/
def turnBegun (s : State) (q d : Nat) : State :=
  s.updRuled q fun p => { p with decided := d, outBefore := p.out.map fun f => (p.decided, f) }

/-- The entry of a stroke acts, or its line is lifted (R256, R259). -/
def turnActs (s : State) (t : Turn) : State :=
  if s.lifted t.line then s.emitPause t
  else
    let u :=
      match s.keptLost t with
      | some f => (s.bump 0x603B t.q 1).emit t (sealFrame (setField f.hdr.toNat 247 247 1) f.payload f.inst)
      | none => s.actTurn t
    if t.cu then u.updRuled t.q fun p => { p with kept := SMap.set none p.kept t.pk none } else u

section
variable (s : State) (t : Turn)

theorem decidedAt_turnActs (q : Nat) : (s.turnActs t).decidedAt q = s.decidedAt q := by
  have hact : (match s.keptLost t with
      | some f => (s.bump 0x603B t.q 1).emit t (sealFrame (setField f.hdr.toNat 247 247 1) f.payload f.inst)
      | none => s.actTurn t).decidedAt q = s.decidedAt q := by
    split
    · rw [decidedAt_emit, decidedAt_bump]
    · rw [decidedAt_actTurn]
  rw [turnActs]
  split
  · exact s.decidedAt_emitPause q t
  · dsimp only
    split
    · rw [decidedAt_updRuled]
      · exact hact
      · exact fun _ => rfl
    · exact hact

theorem turnActs_lifted (h : s.lifted t.line = true) : s.turnActs t = s.emitPause t := by
  rw [turnActs, if_pos h]

/-- A primary entry in a line that is not lifted. -/
theorem turnActs_primary (h : s.lifted t.line = false) (hcu : t.cu = false) : s.turnActs t = s.actTurn t := by
  have hkept : s.keptLost t = none := by
    rw [keptLost, hcu]
    rfl
  rw [turnActs, h, if_neg Bool.false_ne_true, hkept]
  dsimp only
  rw [hcu, if_neg Bool.false_ne_true]

end

end State

/-- The latest stroke whose decision instant has come is decided. -/
theorem exec_strokeDecision_due {q : QuillId} {s : State} {d : Nat} (hd : d = (s.now + 16) / 24) (h : (s.ruled q).decided < d) {t : Turn}
    (ht : t = ⟨q, d, d / 1024, d % 1024, SMap.get 0 ((s.quill q).plan (s.planOf (d / 1024))).tx (d % 1024),
      SMap.get 0 ((s.quill q).plan (s.planOf (d / 1024))).bufs
        (entBuf (SMap.get 0 ((s.quill q).plan (s.planOf (d / 1024))).tx (d % 1024)))⟩) :
    exec (.strokeDecision q) s = .next ((s.turnBegun q d).turnActs t) := by
  subst ht
  subst hd
  rw [exec_strokeDecision, execStrokeDecision, State.decideStroke]
  dsimp only
  rw [if_neg (Nat.not_le.2 h)]
  rfl

section
variable {q : QuillId} {s : State} {d : Nat} {t : Turn}

/-- The entry that decides is as it was before the decision. -/
theorem State.turnBegun_same {β : Type} (g : RuledPort → β) (hg : ∀ (p : RuledPort) a b, g { p with decided := a, outBefore := b } = g p)
    (s : State) (q d k : Nat) : g ((s.turnBegun q d).ruled k) = g (s.ruled k) :=
  s.ruled_updRuled_same g (hg _ _ _) k

theorem State.inst_turnBegun (s : State) (q d : Nat) (t : Turn) : (s.turnBegun q d).inst t = s.inst t :=
  s.inst_updRuled t fun _ => rfl

theorem State.localPart_turnBegun (s : State) (q d : Nat) (t : Turn) : (s.turnBegun q d).localPart t = s.localPart t :=
  State.turnBegun_same (fun p => p.land.readBytes (regBase t.region) (regLen t.region)) (fun _ _ _ => rfl) s q d t.q

theorem State.input_turnBegun (s : State) (q d : Nat) (t : Turn) : ((s.turnBegun q d).input t).2 = (s.input t).2 := by
  have hfrom (m : SMap (Option RxInput)) : (s.turnBegun q d).inputFrom t m = s.inputFrom t m := rfl
  rw [State.input_snd, State.turnBegun_same RuledPort.got (fun _ _ _ => rfl), hfrom, ← State.input_snd]

/-- What a frame leaves as its quill's output. -/
theorem State.out_emit (s : State) (t : Turn) (f : Frame) : ((s.emit t f).ruled t.q).out = some f := by
  obtain ⟨a, b, c, h⟩ := s.ruled_emit t f
  rw [h]

/-- What ORIGINATE leaves of a region that is ready (R253). -/
theorem State.originate_ready (hcu : t.cu = false) (hready : (s.ruled t.q).ready t.region = true) :
    s.originate t = s.emitData t (s.localPart t) := by
  rw [State.originate]
  rw [hcu, Bool.false_and, if_neg Bool.false_ne_true, if_pos hready]

theorem State.originate_late (hcu : t.cu = false) (hready : (s.ruled t.q).ready t.region = false) : s.originate t = s.emitLate t := by
  rw [State.originate]
  rw [hcu, Bool.false_and, if_neg Bool.false_ne_true, hready, if_neg Bool.false_ne_true]

theorem State.forward_input {f : Frame} (h : (s.input t).2.1 = some f) : s.forward t = (s.input t).1.emit t f := by
  rw [State.forward]
  dsimp only
  rw [h]

/-- COMBINE of a DATA input whose region is ready and holds nothing: the sum leaves (R252). -/
theorem State.combine_sum {f : Frame} (hcu : t.cu = false) (hin : (s.combineInput t).2 = (some f, 0))
    (hready : (s.ruled t.q).ready t.region = true) (hhold : (s.ruled t.q).isHolding t.pk = false) :
    s.combine t = (s.input t).1.emitData t ((s.input t).1.combined t f.payload) := by
  have hready' : ((s.input t).1.ruled t.q).ready t.region = true :=
    (s.ruled_input t (fun p => p.ready t.region) (fun _ _ => rfl) t.q).trans hready
  have hhold' : (s.input t).1.holds t = false := by
    rw [State.holds, s.ruled_input t (fun p => p.isHolding t.pk) (fun _ _ => rfl) t.q, hhold, Bool.and_false]
  rw [State.combine]
  rw [hin, s.combineInput_some t hin, hcu, if_neg (by simp), if_neg Bool.false_ne_true]
  unfold State.combinePrimary
  dsimp only
  rw [if_neg (by simp), hhold', if_neg Bool.false_ne_true, if_pos hready']

/-- The line of a lifted entry: VOID PAUSE (R259). -/
theorem State.emitPause_own (h : entOp t.entry ≠ 2) : s.emitPause t = s.emitVoid t 3 := by
  rw [State.emitPause, if_neg h]

theorem State.emitPause_forward (h : entOp t.entry = 2) :
    s.emitPause t = (s.voidForeign t.line t.cu 3).1.emit t (s.voidForeign t.line t.cu 3).2 := by
  rw [State.emitPause, if_pos h]

/-- VOID LATE with no later chance requests a pen-lift (R257). -/
theorem State.emitLate_lines (hq : t.q < 16) :
    (t.lastChance = false → (s.emitLate t).lines = s.lines) ∧
    (t.lastChance = true → s.recovery.abort = none → (∀ a ∈ s.lines.announced, a.line ≠ s.line + 2) →
      (s.emitLate t).lines.announced = s.lines.announced ++ [⟨s.line + 2, s.jobTag, s.chip, 1⟩]) := by
  have hsame {β : Type} (g : State → β) (hg : ∀ (u : State) qs os f, g { u with quills := qs, objs := os, fresh := f } = g u) (f : Frame) :
      g ((s.lateNoted t).emit t f) = g s := by
    rw [State.emit_same _ g t f (fun u _ _ => hg u _ u.objs u.fresh) (fun u => hg u u.quills u.objs _) fun u _ _ _ => hg u u.quills _ u.fresh]
    exact s.lateNoted_same t g (fun u => hg u _ u.objs u.fresh) fun u _ => hg u u.quills _ u.fresh
  have hobj {i : Nat} (h1 : i ≠ 0x6033) (h2 : i ≠ 0x6034) (h3 : i ≠ 0x6035) (h4 : i ≠ 0x6048) (h5 : i ≠ 0x8051) (f : Frame) :
      (((s.lateNoted t).emit t f).bump 0x8051 0 1).obj i 0 = s.obj i 0 := by
    rw [State.obj_bump_index _ h5 (by decide) (by decide), State.emit_obj _ t hq h1 h3 h4 (by decide)]
    exact s.lateNoted_same t (fun u => u.obj i 0) (fun _ => rfl) fun u v => u.obj_setObj_index h2 (by omega) (by decide) v
  rw [s.emitLate_eq t hq]
  refine ⟨fun h => ?_, fun h ha hn => ?_⟩
  · rw [h, if_neg Bool.false_ne_true]
    exact hsame State.lines (fun _ _ _ _ => rfl) _
  · rw [if_pos h]
    have hlines := hsame State.lines (fun _ _ _ _ => rfl) (s.voidFrame t.line t.pk t.cu 1 (s.inst t))
    have hline := hsame State.line (fun _ _ _ _ => rfl) (s.voidFrame t.line t.pk t.cu 1 (s.inst t))
    have hrecovery := hsame State.recovery (fun _ _ _ _ => rfl) (s.voidFrame t.line t.pk t.cu 1 (s.inst t))
    have hbump (u : State) : (u.bump 0x8051 0 1).lines = u.lines ∧ (u.bump 0x8051 0 1).line = u.line ∧
      (u.bump 0x8051 0 1).recovery = u.recovery := ⟨rfl, rfl, rfl⟩
    obtain ⟨hbl, hbn, hbr⟩ := hbump ((s.lateNoted t).emit t (s.voidFrame t.line t.pk t.cu 1 (s.inst t)))
    rw [State.requestPenlift_announced (by rw [hbr, hrecovery, ha]) (by rw [hbl, hbn, hlines, hline]; exact hn), hbl, hbn, hlines, hline,
      State.jobTag, State.chip, hobj (by decide) (by decide) (by decide) (by decide) (by decide),
      hobj (by decide) (by decide) (by decide) (by decide) (by decide)]
    rfl

end

/-- What an entry does, by its OP (R238). -/
theorem State.actTurn_idle (s : State) (t : Turn) (h : entOp t.entry = 0) : s.actTurn t = s.emitVoid t 0 := by
  rw [State.actTurn, h]
  rfl

theorem State.actTurn_originate (s : State) (t : Turn) (h : entOp t.entry = 1) (hruns : s.ownRuns t.line = true) : s.actTurn t = s.originate t := by
  rw [State.actTurn, h]
  exact if_pos hruns

theorem State.actTurn_forward (s : State) (t : Turn) (h : entOp t.entry = 2) : s.actTurn t = s.forward t := by
  rw [State.actTurn, h]
  rfl

theorem State.actTurn_combine (s : State) (t : Turn) (h : entOp t.entry = 4) (hruns : s.ownRuns t.line = true) : s.actTurn t = s.combine t := by
  rw [State.actTurn, h]
  exact if_pos hruns

theorem RuledPort.isOwed_setOwed (p : RuledPort) (pk : Nat) (v : Bool) : (p.setOwed pk v).isOwed pk = v :=
  SMap.get_set_same ..

theorem RuledPort.sent_countSent (p : RuledPort) (pk : Nat) : SMap.get 0 (p.countSent pk).sent pk = (SMap.get 0 p.sent pk + 1) % 2 ^ 32 :=
  SMap.get_set_same ..

/-- ORIGINATE of a region that is ready: its DATA leaves, its FULL marks clear, and the entry owes nothing. -/
theorem State.ruled_originate_ready (s : State) (t : Turn) (hcu : t.cu = false)
    (hready : (s.ruled t.q).ready t.region = true) (hedge : (s.ruled t.q).edge = []) :
    ((s.originate t).ruled t.q).out = some (s.dataFrame t.line t.pk false t.region
        ((s.ruled t.q).lastStamp (regBase t.region) (regLen t.region)) (s.localPart t) (s.inst t)) ∧
      ((s.originate t).ruled t.q).full = ((s.ruled t.q).depart t.region).full ∧
      (s.planAhead t.line = false → ((s.originate t).ruled t.q).isOwed t.pk = false ∧
        SMap.get 0 ((s.originate t).ruled t.q).sent t.pk = (s.inst t + 1) % 2 ^ 32) := by
  obtain ⟨a, b, c, h⟩ := s.ruled_emitData t hedge (s.localPart t)
  rw [s.originate_ready hcu hready, h, hcu]
  refine ⟨rfl, ?_, fun hp => ?_⟩
  · rw [RuledPort.depart]
    dsimp only
    split <;> rfl
  · rw [hp, if_neg Bool.false_ne_true, State.inst, hp, if_neg Bool.false_ne_true]
    exact ⟨((s.ruled t.q).countSent t.pk).isOwed_setOwed t.pk false, (s.ruled t.q).sent_countSent t.pk⟩

/-- ORIGINATE of a region that is not ready: VOID LATE leaves and the entry is owed. -/
theorem State.ruled_originate_late (s : State) (t : Turn) (hq : t.q < 16) (hcu : t.cu = false)
    (hready : (s.ruled t.q).ready t.region = false) :
    ((s.originate t).ruled t.q).out = some (s.voidFrame t.line t.pk false 1 (s.inst t)) ∧
      (s.planAhead t.line = false → ((s.originate t).ruled t.q).isOwed t.pk = true) := by
  obtain ⟨a, b, c, h⟩ := s.ruled_emitLate t hq
  rw [s.originate_late hcu hready, h, hcu]
  refine ⟨rfl, fun hp => ?_⟩
  rw [hp, if_neg Bool.false_ne_true]
  exact (s.ruled t.q).isOwed_setOwed t.pk true

/-- COMBINE of a DATA input with a region that is ready: the sum is what the entry sends (R252). -/
theorem State.out_combine_sum (s : State) (t : Turn) {f : Frame} (hcu : t.cu = false) (hin : (s.combineInput t).2 = (some f, 0))
    (hready : (s.ruled t.q).ready t.region = true) (hhold : (s.ruled t.q).isHolding t.pk = false) (hedge : (s.ruled t.q).edge = []) :
    ((s.combine t).ruled t.q).out = some (s.dataFrame t.line t.pk false t.region
      ((s.ruled t.q).lastStamp (regBase t.region) (regLen t.region)) (s.combined t f.payload) (s.inst t)) := by
  have hp {β : Type} (g : RuledPort → β) (hg : ∀ (p : RuledPort) m, g { p with got := m } = g p) : g ((s.input t).1.ruled t.q) = g (s.ruled t.q) :=
    s.ruled_input t g hg t.q
  have hlocal : (s.input t).1.localPart t = s.localPart t := hp (fun p => p.land.readBytes (regBase t.region) (regLen t.region)) fun _ _ => rfl
  have hsum : (s.input t).1.combined t f.payload = s.combined t f.payload := by rw [State.combined, State.combined, hlocal]
  have hinst : (s.input t).1.inst t = s.inst t := s.input_same (fun u => u.inst t) (fun u _ _ => u.inst_updRuled t fun _ => rfl) t
  have hdata (st : Nat × Nat) (bs : List Byte) (n : Nat) :
      (s.input t).1.dataFrame t.line t.pk false t.region st bs n = s.dataFrame t.line t.pk false t.region st bs n :=
    s.input_same (fun u => u.dataFrame t.line t.pk false t.region st bs n) (fun _ _ _ => rfl) t
  obtain ⟨a, b, c, h⟩ := (s.input t).1.ruled_emitData t ((hp RuledPort.edge fun _ _ => rfl).trans hedge) (s.combined t f.payload)
  rw [s.combine_sum hcu hin hready hhold, hsum, h, hcu, hdata, hinst,
    hp (fun p => p.lastStamp (regBase t.region) (regLen t.region)) fun _ _ => rfl]

theorem State.combineInput_turnBegun (s : State) (q d : Nat) (t : Turn) : ((s.turnBegun q d).combineInput t).2 = (s.combineInput t).2 := by
  rw [State.combineInput_snd, State.combineInput_snd, State.input_turnBegun]

/-- Settles O35: the turn's own state is the decided one, and each OP's row gives the frame that becomes the quill's output. -/
theorem strokesSend : Obligations.StrokesSend := by
  intro q s d hd
  refine ⟨fun h => ?_, fun h c e t hc he ht => ?_⟩
  · subst hd
    rw [exec_strokeDecision, execStrokeDecision, State.decideStroke]
    dsimp only
    rw [if_pos h]
  have htq : t.q = q := by rw [ht]
  have htl : t.line = d / 1024 := by rw [ht]
  have hte : t.entry = e := by rw [ht]
  have hcut (hcu : entCu e = false) : t.cu = false := by rw [Turn.cu, hte, hcu]
  have hpk (hcu : entCu e = false) : t.pk = d % 1024 := by
    rw [Turn.pk, hte, entPrimary, hcu, if_neg Bool.false_ne_true, ht]
  have hinst := s.inst_turnBegun q d t
  have hvoid (pk : Nat) (cu : Bool) (why n : Nat) :
      (s.turnBegun q d).voidFrame (d / 1024) pk cu why n = s.voidFrame (d / 1024) pk cu why n := rfl
  have hahead : (s.turnBegun q d).planAhead (d / 1024) = s.planAhead (d / 1024) := rfl
  have hedge : ((s.turnBegun q d).ruled q).edge = (s.ruled q).edge := State.turnBegun_same RuledPort.edge (fun _ _ _ => rfl) s q d q
  have hready (r : Nat) : ((s.turnBegun q d).ruled q).ready r = (s.ruled q).ready r :=
    State.turnBegun_same (fun p => p.ready r) (fun _ _ _ => rfl) s q d q
  have hstamp (r : Nat) : ((s.turnBegun q d).ruled q).lastStamp (regBase r) (regLen r) = (s.ruled q).lastStamp (regBase r) (regLen r) :=
    State.turnBegun_same (fun p => p.lastStamp (regBase r) (regLen r)) (fun _ _ _ => rfl) s q d q
  have hfull : (((s.turnBegun q d).ruled q).depart t.region).full = ((s.ruled q).depart t.region).full :=
    State.turnBegun_same (fun p => (p.depart t.region).full) (fun _ _ _ => rfl) s q d q
  have hdata (n : Nat) (st : Nat × Nat) (bs : List Byte) : (s.turnBegun q d).dataFrame (d / 1024) (d % 1024) false t.region st bs n =
      s.dataFrame (d / 1024) (d % 1024) false t.region st bs n := rfl
  have hlift : (s.turnBegun q d).lifted (d / 1024) = s.lifted (d / 1024) := rfl
  have hruns : (s.turnBegun q d).ownRuns (d / 1024) = s.ownRuns (d / 1024) := rfl
  have hacts (hl : s.lifted (d / 1024) = false) (hcu : entCu e = false) :
      (s.turnBegun q d).turnActs t = (s.turnBegun q d).actTurn t :=
    (s.turnBegun q d).turnActs_primary t (by rw [htl, hlift, hl]) (hcut hcu)
  refine ⟨_, exec_strokeDecision_due hd h (t := t) (by rw [ht, he, hc]), ?_, ?_⟩
  · have hdec : ((s.turnBegun q d).ruled q).decided = d := by
      rw [State.turnBegun, State.ruled_updRuled]
    exact ((s.turnBegun q d).decidedAt_turnActs t q).trans hdec
  refine ⟨fun hl hop => ?_, fun hl hop => ?_, fun hl hcu => ⟨fun hop => ?_, fun hop hrun hr he => ?_, fun hop hrun hr => ?_, fun f hop hin => ?_,
    fun f hop hrun hin hr hhold he => ?_⟩⟩
  · rw [State.turnActs_lifted _ _ (by rw [htl, hlift, hl]), State.emitPause_own (by rw [hte]; exact hop), State.emitVoid, hinst, htl, hvoid, ← htq]
    exact State.out_emit ..
  · rw [State.turnActs_lifted _ _ (by rw [htl, hlift, hl]), State.emitPause_forward (by rw [hte]; exact hop), htl, ← htq]
    exact State.out_emit ..
  · rw [hacts hl hcu, State.actTurn_idle _ t (by rw [hte, hop]), State.emitVoid, hinst, htl, hpk hcu, hcut hcu, hvoid, ← htq]
    exact State.out_emit ..
  · rw [hacts hl hcu, State.actTurn_originate _ t (by rw [hte, hop]) (by rw [htl, hruns, hrun])]
    have hleaves := (s.turnBegun q d).ruled_originate_ready t (hcut hcu) (by rw [htq, hready, hr]) (by rw [htq, hedge, he])
    rw [htq, htl, hpk hcu, hinst, hstamp, State.localPart_turnBegun, hdata, hfull, hahead] at hleaves
    exact hleaves
  · have hr' : ((s.turnBegun q d).ruled t.q).ready t.region = false := by rw [htq, hready, hr]
    rw [hacts hl hcu, State.actTurn_originate _ t (by rw [hte, hop]) (by rw [htl, hruns, hrun])]
    have hlate := (s.turnBegun q d).ruled_originate_late t (by omega) (hcut hcu) hr'
    rw [htq, htl, hpk hcu, hinst, hvoid, hahead] at hlate
    obtain ⟨hout, howed⟩ := hlate
    have hobj := (s.turnBegun q d).emitLate_obj t (by omega)
    obtain ⟨hmore, hlast⟩ := (s.turnBegun q d).emitLate_lines (t := t) (by omega)
    have hchance : t.lastChance = !entHasCu e := by rw [Turn.lastChance, hte, hcu, Bool.false_or]
    have hlines : (s.turnBegun q d).lines = s.lines ∧ (s.turnBegun q d).line = s.line ∧ (s.turnBegun q d).recovery = s.recovery ∧
      (s.turnBegun q d).jobTag = s.jobTag ∧ (s.turnBegun q d).chip = s.chip := ⟨rfl, rfl, rfl, rfl, rfl⟩
    obtain ⟨hl1, hl2, hl3, hl4, hl5⟩ := hlines
    rw [htq] at hobj
    rw [hchance, hl1] at hmore
    rw [hchance, hl1, hl2, hl3, hl4, hl5] at hlast
    refine ⟨hout, howed, ?_, fun hm => ?_, fun hm => ?_⟩
    · rw [State.originate_late (hcut hcu) hr', hobj]
      rfl
    · rw [State.originate_late (hcut hcu) hr', hmore (by rw [hm]; rfl)]
    · rw [State.originate_late (hcut hcu) hr']
      exact hlast (by rw [hm]; rfl)
  · rw [hacts hl hcu, State.actTurn_forward _ t (by rw [hte, hop]), State.forward_input (f := f) (by rw [State.input_turnBegun, hin]), ← htq]
    exact State.out_emit ..
  · rw [hacts hl hcu, State.actTurn_combine _ t (by rw [hte, hop]) (by rw [htl, hruns, hrun])]
    have hhold' : ((s.turnBegun q d).ruled q).isHolding (d % 1024) = (s.ruled q).isHolding (d % 1024) :=
      State.turnBegun_same (fun p => p.isHolding (d % 1024)) (fun _ _ _ => rfl) s q d q
    have hsum : (s.turnBegun q d).combined t f.payload = s.combined t f.payload := by
      rw [State.combined, State.combined, State.localPart_turnBegun]
    have hout := (s.turnBegun q d).out_combine_sum t (hcut hcu) (by rw [State.combineInput_turnBegun, hin]) (by rw [htq, hready, hr])
      (by rw [htq, hpk hcu, hhold', hhold]) (by rw [htq, hedge, he])
    rw [htq, htl, hpk hcu, hdata, hstamp, hsum, hinst] at hout
    exact hout

end Sys2Proof.Machine
end

section
/-! Proofs of the statements on arriving ruled frames, packets to landing buffers and pen-lift blocks (08 R242-R260). -/

namespace Sys2Proof.Machine

namespace State

/-! ### What the handling of a stroke leaves alone -/

section
variable {β : Type} (g : State → β) (q : Nat)
  (hu : ∀ (t : State) f, (∀ p, (f p).rxDone = p.rxDone) → g (t.updRuled q f) = g t)
  (ho : ∀ (t : State) i u, i = 0x6037 ∨ i = 0x8053 ∨ i = 0x8054 → u = q ∨ u = 0 → g (t.bump i u 1) = g t)
  (hb : ∀ (t : State) r, g (t.blot r) = g t)
include hu ho hb

theorem landData_same (s : State) (pk : Nat) (cu : Bool) (r : Nat) (f : Frame) : g (s.landData q pk cu r f) = g s := by
  rw [landData]
  split
  · exact ho s _ _ (.inr (.inr rfl)) (.inr rfl)
  · split
    · exact hb s 6
    · split
      · exact (hb _ 5).trans (ho s _ _ (.inr (.inl rfl)) (.inr rfl))
      · rw [hu, setAwait, hu, hu]
        · exact fun _ => rfl
        · exact fun _ => rfl
        · exact fun _ => rfl

omit ho in
theorem landVoid_same (s : State) (pk : Nat) (cu hascu : Bool) (why : Nat) : g (s.landVoid q pk cu hascu why) = g s := by
  have hawait (v : Bool) : g (s.setAwait q pk v) = g s := hu s _ fun _ => rfl
  unfold landVoid
  dsimp only
  split
  · exact hb s 6
  · split
    · split
      · rfl
      · split
        · exact hawait _
        · exact hb s 6
    · split
      · exact hawait _
      · exact hawait _
      · split
        · exact hawait _
        · exact hb s 6

theorem landNow_same (s : State) (st e r : Nat) (f : Option Frame) : g (s.landNow q st e r f) = g s := by
  unfold landNow
  split
  · exact landVoid_same g q hu hb ..
  · split
    · exact landData_same g q hu ho hb ..
    · exact landVoid_same g q hu hb ..

theorem land_same (s : State) (st e r line : Nat) (f : Option Frame) : g (s.land q st e r line f) = g s := by
  rw [land]
  split
  · rfl
  · split
    · rw [hu _ RuledPort.swapOld fun _ => rfl, landNow_same g q hu ho hb, hu _ RuledPort.swapOld fun _ => rfl]
    · exact landNow_same g q hu ho hb ..

omit hb in
theorem hold_same (s : State) (st e line : Nat) (f : Option Frame) (arrival : Int) : g (s.hold q st e line f arrival) = g s := by
  unfold hold
  split
  · split
    · exact ho s _ _ (.inr (.inr rfl)) (.inr rfl)
    · rfl
  · split
    · rfl
    · exact hu s _ fun _ => rfl

omit hu hb in
theorem screen_same (s : State) (line : Nat) (f : Option Frame) : g (s.screen q line f).1 = g s := by
  unfold screen
  split
  · split
    · exact ho s _ _ (.inl rfl) (.inl rfl)
    · rfl
  · rfl

omit ho hb in
theorem report_same (s : State) (lost : Bool) : g (s.report q lost) = g s := hu s _ fun _ => rfl

/-- A stroke that is handled notes that it is, and changes ruled sides, its counts and, by a blot, the job. -/
theorem receiveStroke_same (s : State) (a : Nat) (f : Option Frame) (arrival : Int) :
    g (s.receiveStroke q a f arrival) = g (s.updRuled q fun p => { p with rxDone := a }) := by
  rw [receiveStroke]
  dsimp only
  split
  · exact report_same g q hu ..
  · split
    · rw [report_same g q hu, hold_same g q hu ho]
    · rw [report_same g q hu, land_same g q hu ho hb, screen_same g q ho]
    · split
      · rw [report_same g q hu, hold_same g q hu ho]
      · rw [report_same g q hu, land_same g q hu ho hb, hold_same g q hu ho, screen_same g q ho]
    · rw [report_same g q hu]
      split
      · rfl
      · exact ho _ _ _ (.inl rfl) (.inl rfl)

end

section
variable (s : State) (q : Nat)

theorem rxDone_receiveStroke (a : Nat) (f : Option Frame) (arrival : Int) : ((s.receiveStroke q a f arrival).ruled q).rxDone = a := by
  rw [receiveStroke_same (fun t => (t.ruled q).rxDone) q (fun t f hf => t.ruled_updRuled_same RuledPort.rxDone (hf _) q) (fun _ _ _ _ _ => rfl)
    fun t r => t.blot_quill_same (fun x => x.ruled.rxDone) (fun _ _ _ _ _ _ _ => rfl) r q, ruled_updRuled]

theorem missing_receiveStroke (a : Nat) (f : Option Frame) (arrival : Int) :
    ((s.receiveStroke q a f arrival).quill q).port.missing = (s.quill q).port.missing := by
  have hu (t : State) (f : RuledPort → RuledPort) : ((t.updRuled q f).quill q).port.missing = (t.quill q).port.missing :=
    t.quill_updQuill_same (fun x => x.port.missing) rfl q
  rw [receiveStroke_same (fun t => (t.quill q).port.missing) q (fun t f _ => hu t f) (fun _ _ _ _ _ => rfl)
    fun t r => t.blot_quill_same (fun x => x.port.missing) (fun _ _ _ _ _ _ _ => rfl) r q, hu]

variable (hq : q < 16)
include hq

theorem lostCount_receiveStroke (a : Nat) (f : Option Frame) (arrival : Int) :
    (s.receiveStroke q a f arrival).obj 0x6036 q = s.obj 0x6036 q := by
  refine receiveStroke_same (fun t => t.obj 0x6036 q) q (fun _ _ _ => rfl) (fun t i u hi hu => ?_) (fun t r => ?_) s a f arrival
  · refine t.obj_bump_index ?_ ?_ (by omega) 1
    · rcases hi with rfl | rfl | rfl <;> decide
    · rcases hu with rfl | rfl <;> omega
  · exact t.blot_obj (objKey_ne (by decide) (by omega) (by decide)) (objKey_ne (by decide) (by omega) (by decide)) r

/-- A lost stroke is counted at 0x6036 and handled (R242). -/
theorem loseStroke_counts (a : Nat) : (s.loseStroke q a).obj 0x6036 q = (s.obj 0x6036 q + 1) % 2 ^ 64 ∧
    ((s.loseStroke q a).ruled q).rxDone = a ∧ ((s.loseStroke q a).quill q).port.missing = (s.quill q).port.missing := by
  have hbump : ((s.bump 0x6036 q 1).quill q).port.missing = (s.quill q).port.missing := rfl
  rw [loseStroke, lostCount_receiveStroke _ q hq, obj_bump, missing_receiveStroke, rxDone_receiveStroke, hbump]
  exact ⟨rfl, rfl, rfl⟩

omit hq

/-- The FEC's counts change its two objects and the quill's link port. -/
theorem countFec_same {β : Type} (g : State → β) (ho : ∀ (t : State) i v, i = 0x6042 ∨ i = 0x6043 → g (t.setObj i q v) = g t)
    (hp : ∀ (t : State) (f : LinkPort → LinkPort), g (t.updQuill q fun x => { x with port := f x.port }) = g t)
    (stroke : Nat) (fec : FecReport) (lo hi : Nat) : g (s.countFec q stroke fec lo hi) = g s := by
  have hcount (p : Prop) [Decidable p] (i k : Nat) (h : i = 0x6042 ∨ i = 0x6043) (t : State) : g (if p then t else t.bump i q k) = g t := by
    split
    · rfl
    · exact ho t i _ h
  rw [countFec]
  split
  · rfl
  · exact (hp _ fun y => y.noteFraming stroke _).trans ((hcount _ _ _ (.inr rfl) _).trans (hcount _ _ _ (.inl rfl) s))

/-- The recorded offsets change their two objects and the quill's note of them. -/
theorem noteOffset_same {β : Type} (g : State → β) (ho : ∀ (t : State) i v, i = 0x6038 ∨ i = 0x6039 → g (t.setObj i q v) = g t)
    (hp : ∀ t : State, g (t.updRuled q fun p => { p with offSeen := true }) = g t) (off : Int) : g (s.noteOffset q off) = g s := by
  have hcount (p : Prop) [Decidable p] (i v : Nat) (h : i = 0x6038 ∨ i = 0x6039) (t : State) : g (if p then t.setObj i q v else t) = g t := by
    split
    · exact ho t i v h
    · rfl
  rw [noteOffset]
  exact (hcount _ _ _ (.inr rfl) _).trans ((hcount _ _ _ (.inl rfl) _).trans (hp s))

theorem signedOffset_countFec (hq : q < 16) (stroke : Nat) (fec : FecReport) (lo hi : Nat) :
    (s.countFec q stroke fec lo hi).obj 0x6021 q = s.obj 0x6021 q := by
  refine s.countFec_same q (fun t => t.obj 0x6021 q) (fun t i v h => t.obj_setObj_index ?_ (by omega) (by omega) v) (fun _ _ => rfl) stroke fec lo hi
  rcases h with rfl | rfl <;> decide

end

/-! ### A DATA frame that lands -/

end State

/-- The ruled side of a quill whose region takes the payload of a DATA frame (R246, R249). -/
def RuledPort.takes (p : RuledPort) (pk r : Nat) (f : Frame) : RuledPort :=
  let p := (p.fill (regBase r) (f.payload.take (regLen r)) f.gen f.epoch).setLanded (regBase r) (f.payload.take (regLen r)).length
  { p with awaiting := SMap.set false p.awaiting pk false, expect := SMap.upd 0 p.expect pk fun c => (c + 1) % 2 ^ 32 }

theorem RuledPort.awaiting_takes (p : RuledPort) (pk r : Nat) (f : Frame) : SMap.get false (p.takes pk r f).awaiting pk = false :=
  SMap.get_set_same false p.awaiting pk false

theorem RuledPort.expect_takes (p : RuledPort) (pk r : Nat) (f : Frame) :
    SMap.get 0 (p.takes pk r f).expect pk = (SMap.get 0 p.expect pk + 1) % 2 ^ 32 := SMap.get_set_same ..

namespace State
section
variable (s : State) (q : Nat) {c : Calendar} {a e r : Nat} {f : Frame}

theorem landData_primary {pk : Nat} (hinst : f.inst = SMap.get 0 (s.ruled q).expect pk)
    (hland : (wordsOf (regBase r) (regLen r)).any (s.ruled q).isLanded = false) :
    (s.landData q pk false r f).nibs = s.nibs ∧ (s.landData q pk false r f).recovery = s.recovery ∧
      (s.landData q pk false r f).ruled q = (s.ruled q).takes pk r f := by
  rw [landData]
  dsimp only
  rw [Bool.false_and, if_neg Bool.false_ne_true, if_neg (not_not_intro hinst), hland, if_neg Bool.false_ne_true, setAwait, ruled_updRuled,
    ruled_updRuled, ruled_updRuled]
  exact ⟨rfl, rfl, rfl⟩

/-- A DATA frame for the module at a TERMINATE entry of the job lands (R246, R250, R254). -/
theorem receiveStroke_lands (hc : c = (s.quill q).plan (s.planOf (a / 1024))) (he : e = SMap.get 0 c.rx (a % 1024))
    (hr : r = SMap.get 0 c.bufs (entBuf e)) (hk : f.kind = 0) (hop : entOp e = 3) (hcu : entCu e = false) (hl : s.lifted (a / 1024) = false)
    (hruns : s.ownRuns (a / 1024) = true) (happly : s.lines.applyLine ≤ a / 1024) (haddr : s.addressed f = true)
    (hinst : f.inst = SMap.get 0 (s.ruled q).expect (a % 1024))
    (hland : (wordsOf (regBase r) (regLen r)).any (s.ruled q).isLanded = false) (arrival : Int) :
    (s.receiveStroke q a (some f) arrival).nibs = s.nibs ∧ (s.receiveStroke q a (some f) arrival).recovery = s.recovery ∧
      ∃ b d, (s.receiveStroke q a (some f) arrival).ruled q = { (s.ruled q).takes (a % 1024) r f with rxDone := b, rlost := d } := by
  have hdone (t : RuledPort) (g : Nat) : { t with rxDone := g }.takes (a % 1024) r f = { t.takes (a % 1024) r f with rxDone := g } := rfl
  have hentry : entPrimary e (a % 1024) = a % 1024 := by rw [entPrimary, hcu, if_neg Bool.false_ne_true]
  have hlifted (g : RuledPort → RuledPort) : (s.updRuled q g).lifted (a / 1024) = s.lifted (a / 1024) := rfl
  have hown (g : RuledPort → RuledPort) : (s.updRuled q g).ownRuns (a / 1024) = s.ownRuns (a / 1024) := rfl
  have haddressed (g : RuledPort → RuledPort) : (s.updRuled q g).addressed f = s.addressed f := rfl
  have hlines (g : RuledPort → RuledPort) : (s.updRuled q g).lines = s.lines := rfl
  obtain ⟨hn, hrec, hruled⟩ := (s.updRuled q fun p => { p with rxDone := a }).landData_primary q (pk := a % 1024) (r := r) (f := f)
    (by rw [ruled_updRuled]; exact hinst) (by rw [ruled_updRuled]; exact hland)
  have hscreen : (s.updRuled q fun p => { p with rxDone := a }).screen q (a / 1024) (some f) =
      (s.updRuled q fun p => { p with rxDone := a }, some f) := by
    rw [screen]
    exact if_neg (by rw [haddressed, haddr]; simp)
  have hterm : s.receiveStroke q a (some f) arrival =
      ((s.updRuled q fun p => { p with rxDone := a }).landData q (a % 1024) false r f).report q false := by
    rw [receiveStroke]
    dsimp only
    rw [hlifted, hl, if_neg Bool.false_ne_true, ← hc, ← he, hop]
    rw [hscreen, land, hown, hruns, ← hr]
    dsimp only
    rw [hlines, if_neg (by simp), if_neg (Nat.not_lt.2 happly), landNow]
    rw [if_pos hk, hentry, hcu]
    rfl
  rw [hterm, report, ruled_updRuled, hruled, ruled_updRuled, hdone]
  exact ⟨hn, hrec, _, _, rfl⟩

end

/-- The stroke that follows the latest handled one has none before it to lose. -/
theorem loseUpTo_next (s : State) (q : Nat) : s.loseUpTo q ((s.ruled q).rxDone + 1) = s := by
  rw [loseUpTo, Nat.add_sub_cancel_left, Nat.sub_self]
  rfl

end State

/-! ### A frame that is heard -/

/-- What is noted of a frame heard in its window: its FEC counts and its offset (R242, R271). -/
def State.heard (s : State) (q stroke : Nat) (fec : FecReport) (off : Int) : State := (s.countFec q stroke fec 0 12).noteOffset q off

section
variable (s : State) (q stroke : Nat) (fec : FecReport) (off : Int)

theorem State.heard_same {β : Type} (g : State → β)
    (ho : ∀ (t : State) i v, i = 0x6038 ∨ i = 0x6039 ∨ i = 0x6042 ∨ i = 0x6043 → g (t.setObj i q v) = g t)
    (hp : ∀ (t : State) (f : LinkPort → LinkPort), g (t.updQuill q fun x => { x with port := f x.port }) = g t)
    (hr : ∀ t : State, g (t.updRuled q fun p => { p with offSeen := true }) = g t) : g (s.heard q stroke fec off) = g s := by
  rw [State.heard, State.noteOffset_same _ q g (fun t i v h => ho t i v (h.elim .inl fun h => .inr (.inl h))) hr,
    State.countFec_same _ q g (fun t i v h => ho t i v (.inr (.inr h))) hp]

/-- What is heard changes of the quill its link port and that an offset was seen. -/
theorem State.quill_heard_same {β : Type} (g : Quill → β)
    (hg : ∀ (x : Quill) y b, g { x with port := y, ruled := { x.ruled with offSeen := b } } = g x) :
    g ((s.heard q stroke fec off).quill q) = g (s.quill q) :=
  s.heard_same q stroke fec off (fun t => g (t.quill q)) (fun _ _ _ _ => rfl)
    (fun t _ => t.quill_updQuill_same g (hg (t.quill q) _ (t.quill q).ruled.offSeen) q)
    fun t => t.quill_updQuill_same g (hg (t.quill q) (t.quill q).port true) q

theorem State.ruled_heard : ∃ b, (s.heard q stroke fec off).ruled q = { s.ruled q with offSeen := b } := by
  have h := s.quill_heard_same q stroke fec off (fun x => { x.ruled with offSeen := true }) fun _ _ _ => rfl
  refine ⟨((s.heard q stroke fec off).ruled q).offSeen, ?_⟩
  exact (congrArg (fun p : RuledPort => { p with offSeen := ((s.heard q stroke fec off).ruled q).offSeen }) h)

variable (hq : q < 16)
include hq

theorem State.heard_obj {i u : Nat} (h1 : i ≠ 0x6038) (h2 : i ≠ 0x6039) (h3 : i ≠ 0x6042) (h4 : i ≠ 0x6043) (hu : u < 256) :
    (s.heard q stroke fec off).obj i u = s.obj i u := by
  refine s.heard_same q stroke fec off (fun t => t.obj i u) (fun t j v h => t.obj_setObj_index ?_ (by omega) hu v) (fun _ _ => rfl) fun _ => rfl
  rcases h with rfl | rfl | rfl | rfl <;> assumption

theorem State.planOf_heard (line : Nat) : (s.heard q stroke fec off).planOf line = s.planOf line := by
  have hobj := s.heard_obj q stroke fec off hq (i := 0x2802) (by decide) (by decide) (by decide) (by decide) (u := 0) (by decide)
  have hahead : (s.heard q stroke fec off).epochAhead line = s.epochAhead line :=
    s.heard_same q stroke fec off (fun t => t.epochAhead line) (fun _ _ _ _ => rfl) (fun _ _ => rfl) fun _ => rfl
  have hlines : (s.heard q stroke fec off).lines = s.lines :=
    s.heard_same q stroke fec off State.lines (fun _ _ _ _ => rfl) (fun _ _ => rfl) fun _ => rfl
  rw [State.planOf, State.planCopy, hobj, hahead, hlines]
  rfl

theorem State.addressed_heard (f : Frame) : (s.heard q stroke fec off).addressed f = s.addressed f := by
  have hxy := s.heard_obj q stroke fec off hq (i := 0x2803) (by decide) (by decide) (by decide) (by decide) (u := 0) (by decide)
  have htag := s.heard_obj q stroke fec off hq (i := 0x2801) (by decide) (by decide) (by decide) (by decide) (u := 0) (by decide)
  rw [State.addressed, hxy, State.jobTag, htag]
  rfl

end

/-! ### The rows of arriving frames -/

section
variable {q : QuillId} {s : State} {at_ a : Nat} {f : Frame} {fec : FecReport} {off : Int}
  (hlink : (s.quill q).link = .up)
include hlink

/-- A frame in the window of the next stroke is lost or heard. -/
theorem exec_rxFrameArrival_next (hw : windowOf (signed 32 (s.obj 0x6021 q)) at_ = some (a, off)) (ha : a = (s.ruled q).rxDone + 1) :
    exec (.rxFrameArrival q at_ f fec) s = .next (
      if (List.range 13).any fec.lost || !f.intact || !f.known then
        (s.countFec q (strokeNear (signed 32 (s.obj 0x6021 q)) at_) fec 0 12).loseStroke q a
      else (s.heard q (strokeNear (signed 32 (s.obj 0x6021 q)) at_) fec off).receiveStroke q a (some f) at_) := by
  have hup := (s.countFec_same q (fun t => (t.quill q).link) (fun _ _ _ _ => rfl) (fun t f => t.quill_updQuill_same Quill.link rfl q)
    (strokeNear (signed 32 (s.obj 0x6021 q)) at_) fec 0 12).trans hlink
  have hdone := s.countFec_same q (fun t => (t.ruled q).rxDone) (fun _ _ _ _ => rfl)
    (fun t f => t.quill_updQuill_same (fun x => x.ruled.rxDone) rfl q) (strokeNear (signed 32 (s.obj 0x6021 q)) at_) fec 0 12
  rw [exec_rxFrameArrival, execRxFrameArrival, State.frameArrives]
  dsimp only
  rw [if_neg (not_not_intro hup), hw]
  dsimp only
  rw [hdone, ha, if_neg (by omega), ← hdone, State.loseUpTo_next]
  rfl

/-- A window of an UP quill that closes with no frame: the stroke is lost, its control field missing (R242, R281). -/
theorem exec_arrivalWindowClose_missing (h : 384 * (((s.ruled q).rxDone + 1 : Nat) : Int) + signed 32 (s.obj 0x6021 q) + 96 < 16 * (s.now : Int)) :
    exec (.arrivalWindowClose q) s = .next ((s.loseStroke q ((s.ruled q).rxDone + 1)).missField q) := by
  have hlate : ¬16 * (s.now : Int) ≤ 384 * (((s.quill q).ruled.rxDone + 1 : Nat) : Int) + signed 32 (s.obj 0x6021 q) + 96 := Int.not_le.2 h
  have hup (idle : Bool) : (decide ((s.quill q).link = .up) || !idle) = true := by rw [decide_eq_true hlink, Bool.true_or]
  rw [exec_arrivalWindowClose, execArrivalWindowClose, State.closeWindow]
  dsimp only
  rw [if_neg hlate, if_pos hlink, if_pos (hup _)]
  rfl

end

/-- Settles O36: a frame in the window of the next stroke is either lost, and counted so, or heard and handled by its entry. -/
theorem strokesArrive : Obligations.StrokesArrive := by
  intro q s hlink
  have hq : q.val < 16 := q.isLt
  refine ⟨fun at_ f fec hw => ?_, fun at_ f fec a off c e r hw ha hc he hr => ⟨_, exec_rxFrameArrival_next hlink hw ha, ?_, fun h => ?_,
    fun hfec hint hk hwhy hop hcu hl hruns happly haddr hinst hland => ?_⟩, fun h => ?_, fun h => ?_⟩
  · have hup := (s.countFec_same q (fun t => (t.quill q).link) (fun _ _ _ _ => rfl) (fun t f => t.quill_updQuill_same Quill.link rfl q)
      (strokeNear (signed 32 (s.obj 0x6021 q)) at_) fec 0 12).trans hlink
    rw [exec_rxFrameArrival, execRxFrameArrival, State.frameArrives]
    dsimp only
    rw [if_neg (not_not_intro hup), hw]
  · split
    · exact (State.loseStroke_counts _ q hq a).2.1
    · exact State.rxDone_receiveStroke ..
  · have hlost : ((List.range 13).any fec.lost || !f.intact || !f.known) = true := by
      rcases h with h | h | h <;> simp [h]
    have hcount (i : Nat) (t : State) (v : Nat) (hi : i = 0x6042 ∨ i = 0x6043) : (t.setObj i q v).obj 0x6036 q = t.obj 0x6036 q := by
      refine t.obj_setObj_index ?_ (by omega) (by omega) v
      rcases hi with rfl | rfl <;> decide
    rw [if_pos hlost, (State.loseStroke_counts _ q hq a).1,
      s.countFec_same q (fun t => t.obj 0x6036 q) (fun t i v hi => hcount i t v hi) fun _ _ => rfl]
  · have hheard : ((List.range 13).any fec.lost || !f.intact || !f.known) = false := by
      rw [hfec, hint, Frame.known, hk, hwhy]
      rfl
    rw [hheard, if_neg Bool.false_ne_true]
    have hkeep {β : Type} (g : State → β) (hg : ∀ (t : State) os qs, g { t with objs := os, quills := qs } = g t) :
        g (s.heard q (strokeNear (signed 32 (s.obj 0x6021 q)) at_) fec off) = g s :=
      s.heard_same q _ fec off g (fun t _ _ _ => hg t _ t.quills) (fun t _ => hg t t.objs _) fun t => hg t t.objs _
    obtain ⟨b, hruled⟩ := s.ruled_heard q (strokeNear (signed 32 (s.obj 0x6021 q)) at_) fec off
    obtain ⟨hn, hrec, x, y, hlands⟩ := (s.heard q (strokeNear (signed 32 (s.obj 0x6021 q)) at_) fec off).receiveStroke_lands q (c := c) (a := a)
      (e := e) (r := r) (f := f) ((hc.trans (s.quill_heard_same q _ fec off (fun z => z.plan _) fun _ _ _ => rfl).symm).trans
        (by rw [s.planOf_heard q _ fec off hq])) he hr hk hop hcu ((hkeep (fun t => t.lifted _) fun _ _ _ => rfl).trans hl)
      ((hkeep (fun t => t.ownRuns _) fun _ _ _ => rfl).trans hruns) (by rw [hkeep State.lines fun _ _ _ => rfl]; exact happly)
      ((s.addressed_heard q _ fec off hq f).trans haddr) (by rw [hruled]; exact hinst) (by rw [hruled]; exact hland) at_
    rw [hruled] at hlands
    rw [hn, hrec, hlands]
    refine ⟨rfl, rfl, ?_, RuledPort.awaiting_takes .., hkeep State.nibs fun _ _ _ => rfl, hkeep State.recovery fun _ _ _ => rfl⟩
    rw [hinst]
    exact RuledPort.expect_takes ..
  · rw [exec_arrivalWindowClose, execArrivalWindowClose, State.closeWindow]
    exact congrArg _ (if_pos h)
  · obtain ⟨hcount, hdone, hmissing⟩ := s.loseStroke_counts q hq ((s.ruled q).rxDone + 1)
    have hport (f : Quill → Quill)
        (hf : (f ((s.loseStroke q ((s.ruled q).rxDone + 1)).quill q)).ruled = ((s.loseStroke q ((s.ruled q).rxDone + 1)).quill q).ruled) :
        (((s.loseStroke q ((s.ruled q).rxDone + 1)).updQuill q f).ruled q).rxDone = (s.ruled q).rxDone + 1 :=
      (State.quill_updQuill_same _ (fun x => x.ruled.rxDone) (congrArg RuledPort.rxDone hf) q).trans hdone
    refine ⟨_, exec_arrivalWindowClose_missing hlink h, hport _ rfl, hcount, ?_⟩
    rw [State.missField, State.quill_updQuill]
    exact congrArg (· + 1) hmissing

/-! ### Packets to a landing buffer -/

namespace State
section
variable (s : State) (p : Packet) (rest : List Packet) (hs : List Hop) {q off : Nat} {bs : List Byte} {fr : List Nat}

/-- A packet has gone through the mesh to its destination: `rest` stay, its flits and its sender's progress are noted. -/
def crossed : State := ((({ s with mesh := rest } : State).meshMoved hs).senderMoved p).heldCycles (s.slowCrossings hs)

theorem crossed_same {β : Type} (g : State → β) (hg : ∀ (t : State) qs ns, g { t with quires := qs, nibs := ns } = g t)
    (hheld : ∀ (t : State) k c, g (t.took.bump 0x7015 k c) = g t) : g (s.crossed p rest hs) = g { s with mesh := rest } := by
  rw [crossed, heldCycles_same _ g hheld, senderMoved_same _ p g fun t _ => hg t t.quires _, meshMoved_same _ g fun t _ => hg t _ t.nibs]

theorem quills_crossed : (s.crossed p rest hs).quills = s.quills :=
  s.crossed_same p rest hs State.quills (fun _ _ _ => rfl) fun _ _ _ => rfl

theorem ruled_crossed (q : Nat) : (s.crossed p rest hs).ruled q = s.ruled q := by
  rw [ruled, quill, quills_crossed]
  rfl

theorem regions_crossed (q : Nat) : (s.crossed p rest hs).regions q = s.regions q := by
  have hcopy : (s.crossed p rest hs).planCopy = s.planCopy := by
    refine s.crossed_same p rest hs planCopy (fun _ _ _ => rfl) fun t k c => ?_
    refine obj_setObj_other _ _ _ _ _ _ ?_
    rw [objKey, objKey]
    omega
  rw [regions, regions, quill, quills_crossed, hcopy]
  rfl

theorem nib_crossed (n : Nat) : ∃ pr pa, (s.crossed p rest hs).nib n = { s.nib n with progress := pr, progressAt := pa } := by
  obtain ⟨pr, pa, h⟩ := (({ s with mesh := rest } : State).meshMoved hs).nib_senderMoved n p
  refine ⟨pr, pa, ?_⟩
  rw [crossed, heldCycles_same _ (fun t => t.nib n) fun _ _ _ => rfl, h, meshMoved_same _ (fun t => t.nib n) fun _ _ => rfl]
  rfl

/-- The one packet at an edge port waits, or is written (R244). -/
theorem offerEdge_waits (he : (s.ruled q).edge = [p]) (hbody : p.body = .quill off bs fr)
    (hw : (s.ruled q).waits (s.regions q) off bs.length = true) : s.offerEdge q = s := by
  have he' : (s.quill q).ruled.edge = [p] := he
  have hlen : [p].length = 0 + 1 := rfl
  rw [offerEdge, he', hlen, drainEdge]
  dsimp only
  rw [he']
  dsimp only
  rw [hbody]
  exact if_pos hw

theorem offerEdge_written (he : (s.ruled q).edge = [p]) (hbody : p.body = .quill off bs fr)
    (hw : (s.ruled q).waits (s.regions q) off bs.length = false) : s.offerEdge q = s.updRuled q fun r =>
      RuledPort.put { r with edge := [] } (s.regions q) off bs p.gen p.epoch (s.physNib p.src) fr := by
  have he' : (s.quill q).ruled.edge = [p] := he
  have hw' : ¬(s.quill q).ruled.waits (s.regions q) off bs.length = true := fun h => Bool.false_ne_true (hw.symm.trans h)
  have hlen : [p].length = 0 + 1 := rfl
  rw [offerEdge, he', hlen, drainEdge]
  dsimp only
  rw [he']
  dsimp only
  rw [hbody]
  exact if_neg hw'

theorem edge_put (p : RuledPort) (rs : List Nat) (g e n : Nat) : (p.put rs off bs g e n fr).edge = p.edge := by
  have hstamp (as : List Nat) : ∀ (u : RuledPort) (b : Nat), (u.stampBlocks rs g e n b as).edge = u.edge := by
    induction as with
    | nil => exact fun _ _ => rfl
    | cons a as ih =>
      intro u b
      rw [RuledPort.stampBlocks, ih]
      split <;> rfl
  exact hstamp fr _ _

/-- The packet has crossed and joins what waits at the edge port of quill `q`. -/
def atEdge (q : Nat) : State := (s.crossed p rest hs).updRuled q fun r => { r with edge := r.edge ++ [p] }

theorem ruled_atEdge (hedge : (s.ruled q).edge = []) : (s.atEdge p rest hs q).ruled q = { s.ruled q with edge := [p] } := by
  rw [atEdge, ruled_updRuled, ruled_crossed, hedge]
  rfl

theorem regions_atEdge (q : Nat) : (s.atEdge p rest hs q).regions q = s.regions q := by
  have hedge (t : State) (f : RuledPort → RuledPort) (c : Nat) (hf : ∀ r, (f r).plan0 = r.plan0 ∧ (f r).plan1 = r.plan1) :
      ((t.updRuled q f).quill q).plan c = (t.quill q).plan c := by
    rw [updRuled, quill_updQuill, Quill.plan, Quill.plan]
    dsimp only
    rw [(hf _).1, (hf _).2]
  rw [← s.regions_crossed p rest hs q, regions, regions, atEdge, hedge]
  · rfl
  · exact fun _ => ⟨rfl, rfl⟩

theorem exec_quillPacketArrival_crosses {q : QuillId} {src : NibId} {k : Packet} (htake : takePacket src (.quill q) s.mesh = some (k, rest))
    (hheld : s.heldBack src (.quill q) = false) (hend : s.recovery.ended = false) {u : State}
    (hu : u = (s.atEdge k rest (s.routeOf src (.quill q)) q).offerEdge q) :
    exec (.quillPacketArrival q src) s = .next (
      if (u.ruled q).edge.contains k then u.heldCycles (u.fullCrossings (u.ruled q).edge) else u) := by
  have hend' : (s.crossed k rest (s.routeOf src (.quill q))).recovery.ended = false :=
    (s.crossed_same k rest _ (fun t => t.recovery.ended) (fun _ _ _ => rfl) fun _ _ _ => rfl).trans hend
  rw [exec_quillPacketArrival, execQuillPacketArrival, packetToQuill, htake, hu]
  dsimp only
  rw [hheld, if_neg Bool.false_ne_true, ← crossed, hend', if_neg Bool.false_ne_true]
  rfl

/-! ### Pen-lifts that are relayed -/

/-- What the relay of a pen-lift reads and changes of quill `k`. -/
structure RelayView where
  lifts : List Item
  link : LinkState
  member : Bool
  at_ : Nat

def relayView (k : Nat) : RelayView := ⟨(s.quill k).penlifts, (s.quill k).link, s.inCodex k, s.now⟩

/-- A pen-lift queued on quill `k`. -/
def relayStep (a : Announced) (k : Nat) (skip : Option Nat) (v : RelayView) : RelayView :=
  { v with lifts := v.lifts ++ if v.link = .up && v.member && some k ≠ skip then [⟨penliftBlock a, v.at_⟩] else [] }

theorem relayPenlift_same {β : Type} (g : State → β) (a : Announced) (skip : Option Nat)
    (hg : ∀ (t : State) qs, g { t with quills := qs } = g t) : g (s.relayPenlift a skip) = g s := by
  refine foldl_same g _ (fun t k => ?_) _ _
  split
  · exact hg t _
  · rfl

theorem relayStep_relayView (a : Announced) (k : Nat) (skip : Option Nat) : relayStep a k skip (s.relayView k) =
    ⟨(s.quill k).penlifts ++ (if (s.quill k).link = .up && s.inCodex k && some k ≠ skip then [⟨penliftBlock a, s.now⟩] else []),
      (s.quill k).link, s.inCodex k, s.now⟩ := rfl

theorem relayView_updQuill (f : Quill → Quill) (k : Nat) (ht : (f (s.quill k)).time = (s.quill k).time) :
    (s.updQuill k f).relayView k = ⟨(f (s.quill k)).penlifts, (f (s.quill k)).link, s.inCodex k, s.now⟩ := by
  rw [relayView, inCodex, quill_updQuill, ht]
  rfl

theorem relayView_updQuill_other (f : Quill → Quill) {i k : Nat} (h : k ≠ i) : (s.updQuill i f).relayView k = s.relayView k := by
  rw [relayView, inCodex, quill_updQuill_other _ _ _ h]
  rfl

/-- A pen-lift is relayed on every quill that is UP in the codex but the one it came on (R258). -/
theorem relayView_relayPenlift (a : Announced) {k : Nat} (hk : k < 16) (skip : Option Nat) :
    (s.relayPenlift a skip).relayView k = relayStep a k skip (s.relayView k) := by
  rw [relayPenlift]
  refine foldl_at (fun t => t.relayView k) (relayStep a k skip) _ k (fun t => ?_) (fun t i hi => ?_) _ List.nodup_range (List.mem_range.2 hk) s
  · rw [relayStep_relayView]
    split
    · rw [relayView_updQuill]
      rfl
    · rw [List.append_nil]
      rfl
  · split
    · exact t.relayView_updQuill_other _ (Ne.symm hi)
    · rfl

theorem penlifts_relayPenlift (a : Announced) {k : Nat} (hk : k < 16) (skip : Option Nat) :
    ((s.relayPenlift a skip).quill k).penlifts = (s.quill k).penlifts ++
      (if (s.quill k).link = .up && s.inCodex k && some k ≠ skip then [⟨penliftBlock a, s.now⟩] else []) := by
  have h := s.relayView_relayPenlift a hk skip
  rw [relayStep, relayView, relayView] at h
  exact (RelayView.mk.inj h).1

end
end State

/-- What the arrival of a packet at an edge port leaves but the quill (R244). -/
theorem State.atEdge_same {β : Type} (g : State → β) (hg : ∀ (t : State) xs qs ns, g { t with quills := xs, quires := qs, nibs := ns } = g t)
    (hheld : ∀ (t : State) k c, g (t.took.bump 0x7015 k c) = g t) (s : State) (p : Packet) (rest : List Packet) (hs : List Hop) (q : Nat) :
    g (s.atEdge p rest hs q) = g { s with mesh := rest } :=
  (hg _ _ _ _).trans (s.crossed_same p rest hs g (fun t _ _ => hg t t.quills _ _) hheld)

/-- The packet that reaches an edge port where none waits is written, or waits there (R244). -/
theorem exec_quillPacketArrival_arrives {q : QuillId} {src : NibId} {s : State} {k : Packet} {rest : List Packet} {off : Nat} {bs : List Byte}
    {fr : List Nat} (htake : takePacket src (.quill q) s.mesh = some (k, rest)) (hbody : k.body = .quill off bs fr)
    (hheld : s.heldBack src (.quill q) = false) (hend : s.recovery.ended = false) (hedge : (s.ruled q).edge = []) :
    ∃ t, exec (.quillPacketArrival q src) s = .next t ∧
      (∀ {β : Type} (g : State → β), (∀ (t : State) xs qs ns, g { t with quills := xs, quires := qs, nibs := ns } = g t) →
        (∀ (t : State) k c, g (t.took.bump 0x7015 k c) = g t) → g t = g { s with mesh := rest }) ∧
      t.nibs = (s.crossed k rest (s.routeOf src (.quill q))).nibs ∧
      t.ruled q = if (s.ruled q).waits (s.regions q) off bs.length then { s.ruled q with edge := [k] }
        else (s.ruled q).put (s.regions q) off bs k.gen k.epoch (s.physNib k.src) fr := by
  have hat := s.ruled_atEdge k rest (s.routeOf src (.quill q)) hedge
  have hregions : (s.atEdge k rest (s.routeOf src (.quill q)) q).regions q = s.regions q :=
    s.regions_atEdge k rest _ q
  have hwaits : ((s.atEdge k rest (s.routeOf src (.quill q)) q).ruled q).waits (s.regions q) off bs.length =
      (s.ruled q).waits (s.regions q) off bs.length := by rw [hat]; rfl
  have hat' := congrArg RuledPort.edge hat
  have hphys : (s.atEdge k rest (s.routeOf src (.quill q)) q).physNib k.src = s.physNib k.src :=
    State.atEdge_same (fun t => t.physNib k.src) (fun _ _ _ _ => rfl) (fun _ _ _ => rfl) s k rest _ q
  cases hw : (s.ruled q).waits (s.regions q) off bs.length with
  | true =>
    have hoff := State.offerEdge_waits _ k hat' hbody ((congrArg (fun rs => RuledPort.waits _ rs off bs.length) hregions).trans (hwaits.trans hw))
    refine ⟨_, s.exec_quillPacketArrival_crosses rest htake hheld hend hoff.symm, ?_⟩
    rw [if_pos (by rw [hat']; simp), if_pos rfl]
    refine ⟨fun g hg hheld => ?_, ?_, ?_⟩
    · rw [State.heldCycles_same _ g hheld, State.atEdge_same g hg hheld]
    · rw [State.heldCycles_same _ State.nibs fun _ _ _ => rfl]
      rfl
    · rw [State.heldCycles_same _ (fun t => t.ruled q) fun _ _ _ => rfl, hat]
  | false =>
    have hoff := State.offerEdge_written _ k hat' hbody ((congrArg (fun rs => RuledPort.waits _ rs off bs.length) hregions).trans (hwaits.trans hw))
    refine ⟨_, s.exec_quillPacketArrival_crosses rest htake hheld hend hoff.symm, ?_⟩
    rw [State.ruled_updRuled, State.edge_put, if_neg (by simp), if_neg Bool.false_ne_true, hregions, hphys]
    refine ⟨fun g hg hheld => (hg _ _ _ _).trans (State.atEdge_same g hg hheld s k rest _ q), rfl, ?_⟩
    rw [State.ruled_updRuled, hat, ← hedge]

/-- Settles O37: the packet at the edge port is written or waits; a pen-lift of a coming line, not yet announced, is relayed. -/
theorem quillTrafficArrives : Obligations.QuillTrafficArrives := by
  refine ⟨fun q src s k rest off bs fr htake hbody => ⟨fun h => ?_, fun h hend hedge => ?_⟩,
    fun q b s ahead hlink ha => ⟨fun h => ?_, fun h a hdef => ⟨fun hx => ?_, fun hx => ?_⟩⟩⟩
  · rw [exec_quillPacketArrival, execQuillPacketArrival, State.packetToQuill, htake]
    dsimp only
    rw [if_pos h]
  · obtain ⟨t, ht, hsame, hnibs, hruled⟩ := exec_quillPacketArrival_arrives htake hbody h hend hedge
    refine ⟨t, ht, hsame State.mesh (fun _ _ _ _ => rfl) fun _ _ _ => rfl, hsame State.desk (fun _ _ _ _ => rfl) fun _ _ _ => rfl,
      hsame State.recovery (fun _ _ _ _ => rfl) fun _ _ _ => rfl, fun n => ?_, fun hw => ?_, fun hw => ?_⟩
    · obtain ⟨pr, pa, hn⟩ := s.nib_crossed k rest (s.routeOf src (.quill q)) n
      have hnib : t.nib n = (s.crossed k rest (s.routeOf src (.quill q))).nib n := by rw [State.nib, hnibs, State.nib]
      rw [hnib, hn]
    · rw [hruled, hw, if_neg Bool.false_ne_true]
    · rw [hruled, hw, if_pos rfl]
  · rw [exec_penliftBlockReceive, execPenliftBlockReceive, State.takePenlift]
    dsimp only
    rw [if_neg (not_not_intro hlink), ← ha, if_pos h]
  · subst hdef
    have hseen : (s.lines.announced.any fun x => x.line = s.line + ahead.toNat && x.tag = field b.toNat 47 36) = true := by
      obtain ⟨x, hx, h1, h2⟩ := hx
      exact List.any_eq_true.2 ⟨x, hx, by rw [decide_eq_true h1, decide_eq_true h2]; rfl⟩
    rw [exec_penliftBlockReceive, execPenliftBlockReceive, State.takePenlift]
    dsimp only
    rw [if_neg (not_not_intro hlink), ← ha, if_neg (Int.not_le.2 h), if_pos hseen]
  · have hnew : (s.lines.announced.any fun x => x.line = a.line && x.tag = a.tag) = false := by
      simpa using hx
    refine ⟨State.relayPenlift { s with lines := { s.lines with announced := s.lines.announced ++ [a] } } a (some q), ?_, ?_, ?_, ?_, ?_⟩
    · subst hdef
      rw [exec_penliftBlockReceive, execPenliftBlockReceive, State.takePenlift]
      dsimp only
      rw [if_neg (not_not_intro hlink), ← ha, if_neg (Int.not_le.2 h), hnew, if_neg Bool.false_ne_true]
    · exact (State.relayPenlift_same _ (fun t => t.lines.announced) _ _ fun _ _ => rfl)
    · rw [State.penlifts_relayPenlift _ _ q.isLt]
      rw [decide_eq_false (not_not_intro rfl), Bool.and_false, if_neg Bool.false_ne_true, List.append_nil]
      rfl
    · exact State.relayPenlift_same _ State.nibs _ _ fun _ _ => rfl
    · intro k hk hkq
      have hskip : decide (some k ≠ some q.val) = true := decide_eq_true fun h => hkq (Option.some.inj h)
      rw [State.penlifts_relayPenlift _ _ hk, hskip, Bool.and_true]
      refine congrArg _ (ite_congr (propext ?_) (fun _ => rfl) fun _ => rfl)
      rw [Bool.and_eq_true, decide_eq_true_eq]
      rfl

end Sys2Proof.Machine
end

section
/-! Proofs of the statements on link control and on the states of a quill (09 R264-R284; 10 R311-R315; 12 R376, R377). -/

namespace Sys2Proof.Machine

theorem length_padTo (n : Nat) (bs : List Byte) : (padTo n bs).length = n := by
  rw [padTo, List.length_take, List.length_append, List.length_replicate]
  omega

theorem padTo_of_length {n : Nat} {bs : List Byte} (h : bs.length = n) : padTo n bs = bs := by
  rw [padTo, h, Nat.sub_self, List.replicate_zero, List.append_nil, ← h, List.take_length]

/-- The stroke's bytes carry its margin slot as it was filled. -/
theorem strokeBytes_padTo (f : Option Frame) (ctl slot : List Byte) : strokeBytes f ctl (padTo 576 slot) = strokeBytes f ctl slot := by
  rw [strokeBytes, strokeBytes, padTo_of_length (length_padTo 576 slot)]

@[simp] theorem length_bytesLE (n v : Nat) : (bytesLE n v).length = n := by
  induction n generalizing v with
  | zero => rfl
  | succ n ih => rw [bytesLE, List.length_cons, ih]

@[simp] theorem length_bytesBE (n v : Nat) : (bytesBE n v).length = n := by rw [bytesBE, List.length_reverse, length_bytesLE]

theorem length_auxArea (b : Option Nat) (is : List (Nat × Nat)) : (auxArea b is).length = 40 := by
  cases b with
  | none => simp [auxArea]
  | some b => simp [auxArea]

theorem length_sealControl (block : Nat) (b : Option Nat) (is : List (Nat × Nat)) : (sealControl block (auxArea b is)).length = 80 := by
  rw [sealControl, List.length_append, length_auxArea, length_bytesBE]

namespace State

section
variable (s : State) (q : Nat)

@[simp] theorem quill_updPort (f : LinkPort → LinkPort) : (s.updPort q f).quill q = { s.quill q with port := f (s.quill q).port } :=
  s.quill_updQuill q _

/-- A link side changed alike is the same change. -/
theorem updPort_congr {f g : LinkPort → LinkPort} (h : f (s.quill q).port = g (s.quill q).port) : s.updPort q f = s.updPort q g := by
  have hx : ({ s.quill q with port := f (s.quill q).port } : Quill) = { s.quill q with port := g (s.quill q).port } := by rw [h]
  exact congrArg (fun x => ({ s with quills := SMap.set {} s.quills q x } : State)) hx

end

/-! ### What a control field carries -/

theorem farewell_nextFlit {p p' : LinkPort} {vc : Nat} {sop : Bool} {b : List Byte} (h : p.nextFlit vc = some (p', sop, b)) :
    p'.farewell = p.farewell := by
  rw [LinkPort.nextFlit] at h
  split at h
  · cases h
    rfl
  · split at h
    · cases h
    · extract_lets need at h
      split at h
      · cases h
      · cases h
        rfl

theorem farewell_gather (fuel room : Nat) (vcs : List Nat) (p : LinkPort) : (LinkPort.gather fuel room vcs p).1.farewell = p.farewell := by
  induction fuel generalizing room vcs p with
  | zero => rfl
  | succ fuel ih =>
    unfold LinkPort.gather
    split
    · split
      · rw [ih, farewell_nextFlit ‹_›]
      · exact ih ..
    · rfl

section
variable (s : State) (q : Nat)

theorem farewell_noteOccupancy : ((s.noteOccupancy q).quill q).port.farewell = (s.quill q).port.farewell :=
  s.noteOccupancy_same (fun t => (t.quill q).port.farewell) q fun _ _ => rfl

theorem farewell_slotOf (k : Nat) : ((s.slotOf q k).1.quill q).port.farewell = (s.quill q).port.farewell := by
  have hframe : ((s.slotFrame q k).1.quill q).port.farewell = (s.quill q).port.farewell := by
    rw [slotFrame]
    dsimp only
    split
    · have hbump (t : State) : (t.bump 0x6044 q 1).quill q = t.quill q := rfl
      rw [hbump, quill_updPort]
    · split
      · rfl
      · split
        · rfl
        · split
          · rfl
          · dsimp only
            rw [farewell_noteOccupancy, quill_updPort]
            exact farewell_gather ..
  rw [slotOf]
  split
  · split <;> rfl
  · dsimp only
    split
    · exact hframe
    · exact hframe
  · rfl

/-- The slot of a stroke that replays a frame (R278). -/
theorem slotOf_replays {f : LinkFrame} {fs : List LinkFrame} (hup : (s.quill q).link = .up) (hr : (s.quill q).port.replay = f :: fs) (k : Nat) :
    (s.slotOf q k).1 = ((s.updPort q fun p => { p with replay := fs, lastReplay := if fs.isEmpty then some k else p.lastReplay }).bump
      0x6044 q 1).bump 0x604C q f.fcnt ∧ (s.slotOf q k).2.2 = f.flits := by
  rw [slotOf, hup]
  dsimp only
  rw [slotFrame, hr]
  exact ⟨rfl, rfl⟩

section
variable {β : Type} (g : State → β) (hg : ∀ (t : State) (f : Quill → Quill),
  (∀ x, (f x).port.farewell = x.port.farewell ∧ (f x).port.replay = x.port.replay) → g (t.updQuill q f) = g t)
include hg

/-- Credits, the TIME block and items taken into a control field change their parts of the quill alone. -/
theorem takeCredits_same (k : Nat) : g (s.takeCredits q k).1 = g s := by
  rw [takeCredits, updPort]
  dsimp only
  rw [hg]
  exact fun _ => ⟨rfl, rfl⟩

theorem timeBlock_same (k : Nat) : g (s.timeBlock q k).1 = g s := by
  rw [timeBlock]
  dsimp only
  rw [hg]
  exact fun _ => ⟨rfl, rfl⟩

theorem takeItems_same (k n : Nat) : g (s.takeItems q k n).1 = g s := by
  rw [takeItems]
  dsimp only
  rw [hg]
  exact fun _ => ⟨rfl, rfl⟩

end

end
end State

/-- A control field that is due leaves, with its stroke (R267-R279). -/
theorem exec_controlFieldSend_due {q : QuillId} {s : State} {k : Nat} (hk : k = (s.now - 21) / 24) (hsent : (s.quill q).port.ctlSent < k)
    (hdown : (s.quill q).link ≠ .down) (htrain : (s.quill q).link ≠ .training) :
    ∃ u ctl, exec (.controlFieldSend q) s = .next (State.updPort u q fun p => { p with
        ctlSent := k, farewell := p.farewell - 1, ctlOut := ctl, slotOut := padTo 576 (s.slotOf q k).2.2
        lanesOut := laneLevels (strokeWords k (strokeBytes ((s.ruled q).frameOf k) ctl (s.slotOf q k).2.2)) }) ∧
      List.length ctl = 80 ∧ ∀ {β : Type} (g : State → β), (∀ (t : State) (f : Quill → Quill),
        (∀ x, (f x).port.farewell = x.port.farewell ∧ (f x).port.replay = x.port.replay) → g (t.updQuill q f) = g t) →
        g u = g (s.slotOf q k).1 := by
  have hdue : (decide (k ≤ (s.quill q).port.ctlSent) || decide ((s.quill q).link = .down) || decide ((s.quill q).link = .training)) = false := by
    simp [hsent, hdown, htrain]
  have hexec : exec (.controlFieldSend q) s = .next (s.sendControl q) := rfl
  rw [State.sendControl, ← hk] at hexec
  dsimp only at hexec
  rw [hdue, if_neg Bool.false_ne_true] at hexec
  refine ⟨_, _, hexec, length_sealControl .., ?_⟩
  · intro β g hg
    have hif (p : Prop) [Decidable p] (t : State) (a : State × List (Nat × Nat)) (ha : g a.1 = g t) : g (if p then a else (t, [])).1 = g t := by
      split
      · exact ha
      · rfl
    have hif' (p : Prop) [Decidable p] (t : State) (a : State × Nat) (ha : g a.1 = g t) : g (if p then a else (t, 0)).1 = g t := by
      split
      · exact ha
      · rfl
    rw [hif _ _ _ (State.takeItems_same _ q g hg ..), hif' _ _ _ (State.timeBlock_same _ q g hg ..), State.takeCredits_same _ q g hg]

namespace State
section
variable (s : State) (q : Nat)

/-- Of a link side the FEC's counts change its run of framing errors alone. -/
theorem countFec_port {β : Type} (g : LinkPort → β) (hg : ∀ (p : LinkPort) a b c, g { p with framing := a, framingBefore := b, framingAt := c } = g p)
    (k : Nat) (fec : FecReport) (lo hi : Nat) : g ((s.countFec q k fec lo hi).quill q).port = g (s.quill q).port := by
  have hcount (p : Prop) [Decidable p] (t : State) (i n : Nat) : (if p then t else t.bump i q n).quill q = t.quill q := by split <;> rfl
  have hrun (p : LinkPort) (w : Bool) : g (p.noteFraming k w) = g p := by
    rw [LinkPort.noteFraming]
    split
    · split
      · exact hg p _ p.framingBefore p.framingAt
      · exact (hg _ _ _ _).trans (hg p _ _ _)
    · split
      · rfl
      · exact hg p _ _ _
  rw [countFec]
  split
  · rfl
  · dsimp only
    rw [quill_updQuill]
    exact (hrun _ _).trans (by rw [hcount, hcount])

theorem countFec_obj (hq : q < 16) {i u : Nat} (h2 : i ≠ 0x6042) (h3 : i ≠ 0x6043) (hu : u < 256) (k : Nat) (fec : FecReport) (lo hi : Nat) :
    (s.countFec q k fec lo hi).obj i u = s.obj i u := by
  refine s.countFec_same q (fun t => t.obj i u) (fun t j v hj => t.obj_setObj_index ?_ (by omega) hu v) (fun _ _ => rfl) k fec lo hi
  rcases hj with rfl | rfl <;> assumption

/-- A link frame that fails sets NAKF and is counted once an episode (R276). -/
theorem nakFrame_raises (h : (s.quill q).port.nakf = false) :
    s.nakFrame q = (s.updPort q fun p => { p with nakf := true }).bump 0x6045 q 1 := by
  rw [nakFrame]
  rw [h, if_neg Bool.false_ne_true]

/-- Flits that are received fill the buffers of their channels and free credits; the sequence numbers stay. -/
theorem fresh_takeFlits (p : LinkPort) (sop fvc : Nat) (slot : List Byte) (n now : Nat) : (p.takeFlits sop fvc slot n now).fresh = p.fresh := by
  have hpass (p : LinkPort) (vc : Nat) (sop : Bool) (b : List Byte) : (p.passFlit vc sop b now).fresh = p.fresh := by
    rw [LinkPort.passFlit]
    generalize (if sop = true then b else SMap.get [] p.asm vc) = first
    split <;> rfl
  have htake (p : LinkPort) (vc : Nat) (sop : Bool) (b : List Byte) : (p.takeFlit vc sop b).fresh = p.fresh := by
    rw [LinkPort.takeFlit]
    generalize (if sop = true then [] else SMap.get [] p.asm vc) ++ b = k
    split <;> rfl
  rw [LinkPort.takeFlits]
  induction List.range n generalizing p with
  | nil => rfl
  | cons i is ih => rw [List.foldl_cons, ih, htake, hpass]

end
end State

section
variable {q : QuillId} {s : State} {ctl slot : List Byte} {fec : FecReport} {b : Nat}
  (hup : (s.quill q).link = .up) (hb : b = natBE (ctl.take 40))
include hup hb

/-- A link frame whose control field or whose own checks fail is refused (R276). -/
theorem exec_linkFrameReceive_refused (h : fec.lost 12 = true ∨ fec.lost 13 = true ∨ controlOk ctl = false ∨
      (bit b 319 = true ∧ (fec.lost 14 = true ∨ 18 < field b 274 270 ∨ field b 63 32 ≠ crc32 (slice slot 0 (32 * field b 274 270))))) :
    exec (.linkFrameReceive q ctl slot fec) s = .next ((s.countFec q (s.quill q).ruled.rxDone fec 14 14).nakFrame q) := by
  rw [exec_linkFrameReceive, execLinkFrameReceive, State.takeFrame]
  dsimp only
  rw [if_neg (not_not_intro hup), ← hb]
  by_cases hctl : (fec.lost 12 || fec.lost 13 || !controlOk ctl) = true
  · rw [if_pos hctl]
  · obtain ⟨hfv, hbad⟩ : bit b 319 = true ∧
        (fec.lost 14 = true ∨ 18 < field b 274 270 ∨ field b 63 32 ≠ crc32 (slice slot 0 (32 * field b 274 270))) := by
      rcases h with h | h | h | h
      · exact absurd (by rw [h]; rfl) hctl
      · exact absurd (by rw [h, Bool.or_true]; rfl) hctl
      · exact absurd (by rw [h, Bool.not_false, Bool.or_true]) hctl
      · exact h
    rw [if_neg hctl, hfv, Bool.not_true, if_neg Bool.false_ne_true, if_pos]
    simpa [or_assoc] using hbad

/-- A link frame in order whose checks pass is accepted (R276). -/
theorem exec_linkFrameReceive_accepted (h12 : fec.lost 12 = false) (h13 : fec.lost 13 = false) (h14 : fec.lost 14 = false)
    (hok : controlOk ctl = true) (hfv : bit b 319 = true) (hn : field b 274 270 ≤ 18)
    (hcrc : field b 63 32 = crc32 (slice slot 0 (32 * field b 274 270))) (hseq : field b 318 307 = (s.quill q).port.expected) :
    exec (.linkFrameReceive q ctl slot fec) s = .next (
      let u := s.countFec q (s.quill q).ruled.rxDone fec 14 14
      u.acceptFlits q fun p =>
        let p := p.takeFlits (field b 269 252) (field b 251 216) slot (field b 274 270) u.now
        { p with
          expected := ((s.quill q).port.expected + 1) % 4096, anyAccepted := true, nakf := false
          fresh := p.fresh + 1, oldest := if p.fresh = 0 then u.now else p.oldest }) := by
  have hctl : (fec.lost 12 || fec.lost 13 || !controlOk ctl) = false := by rw [h12, h13, hok]; rfl
  have hgood : (fec.lost 14 || decide (18 < field b 274 270) || decide (field b 63 32 ≠ crc32 (slice slot 0 (32 * field b 274 270)))) = false := by
    rw [h14, decide_eq_false (Nat.not_lt.2 hn), decide_eq_false (not_not_intro hcrc)]
    rfl
  rw [exec_linkFrameReceive, execLinkFrameReceive, State.takeFrame]
  dsimp only
  rw [if_neg (not_not_intro hup), ← hb, hctl, if_neg Bool.false_ne_true, hfv, Bool.not_true, if_neg Bool.false_ne_true, hgood,
    if_neg Bool.false_ne_true, if_pos hseq]

end

/-- Settles O38: each row of the link side, by what it sends, takes or refuses. -/
theorem linkControl : Obligations.LinkControl := by
  intro q s
  have hq : q.val < 16 := q.isLt
  refine ⟨fun hsent hdown htrain => ?_, fun h => ?_, fun ctl fec hup => ?_,
    fun ctl slot fec b hup hb => ?_, fun h => ?_, fun h hun => ?_⟩
  · obtain ⟨u, ctl, hu, hlen, hsame⟩ := exec_controlFieldSend_due rfl hsent hdown htrain
    have hfare := (hsame (fun t => (t.quill q).port.farewell) fun t f hf => t.quill_updQuill_same (fun x => x.port.farewell) (hf _).1 q).trans
      (s.farewell_slotOf q _)
    refine ⟨_, hu, ?_⟩
    rw [State.quill_updPort]
    dsimp only
    refine ⟨rfl, by rw [hfare], hlen, length_padTo .., by rw [strokeBytes_padTo], fun f fs hup hr => ?_⟩
    obtain ⟨hst, hslot⟩ := s.slotOf_replays q hup hr ((s.now - 21) / 24)
    have hobj (i : Nat) : u.obj i q = (s.slotOf q ((s.now - 21) / 24)).1.obj i q := hsame (fun t => t.obj i q) fun _ _ _ => rfl
    have hport (g : LinkPort → LinkPort) (i : Nat) : (u.updPort q g).obj i q = u.obj i q := rfl
    have hport' (g : LinkPort → LinkPort) (i : Nat) : (s.updPort q g).obj i q = s.obj i q := rfl
    have hbump (t : State) (i k : Nat) : (t.bump i q k).quill q = t.quill q := rfl
    have hreplay := hsame (fun t => (t.quill q).port.replay) fun t f hf => t.quill_updQuill_same (fun x => x.port.replay) (hf _).2 q
    rw [hreplay, hport, hport, hobj, hobj, hst, hslot, hbump, hbump, State.quill_updPort, State.obj_bump_index _ (by decide) (by omega) (by omega),
      State.obj_bump, State.obj_bump, State.obj_bump_index _ (by decide) (by omega) (by omega), hport', hport']
    exact ⟨rfl, rfl, rfl, rfl⟩
  · rw [exec_controlFieldSend, execControlFieldSend, State.sendControl]
    dsimp only
    rw [h, decide_eq_true (Nat.le_refl _), Bool.true_or, Bool.true_or, if_pos rfl]
  · have hlive : (decide ((s.quill q).link = .down) || decide ((s.quill q).link = .training)) = false := by rw [hup]; rfl
    rw [exec_controlFieldReceive, execControlFieldReceive, State.takeControl]
    dsimp only
    rw [hlive, if_neg Bool.false_ne_true]
    refine ⟨fun h12 h13 hok => ⟨_, rfl, ?_⟩, fun h => ⟨_, rfl, ?_⟩⟩
    · have hitems (p : Prop) [Decidable p] (t : State) (k : Nat) : (if p then t else t.bump 0x604B q k).quill q = t.quill q := by split <;> rfl
      rw [h12, h13, hok, Bool.false_or, Bool.not_true, Bool.false_or, if_neg Bool.false_ne_true, State.quill_updQuill, hitems]
      dsimp only
      rw [LinkPort.takeBlock]
      dsimp only
      rw [s.countFec_port q LinkPort.unacked fun _ _ _ _ => rfl]
      exact ⟨rfl, rfl⟩
    · have hbad : (fec.lost 12 || fec.lost 13 || !controlOk ctl) = true := by rcases h with h | h | h <;> simp [h]
      have hmiss (t : State) : (t.missField q).obj 0x604B q = t.obj 0x604B q := rfl
      have hbump (t : State) : (t.bump 0x604B q 1).quill q = t.quill q := rfl
      rw [hbad, if_pos rfl, hmiss, State.obj_bump, s.countFec_obj q hq (by decide) (by decide) (by omega), State.missField, State.quill_updQuill, hbump]
      exact ⟨rfl, congrArg (· + 1) (s.countFec_port q LinkPort.missing (fun _ _ _ _ => rfl) _ fec 13 13)⟩
  · refine ⟨fun h hn => ⟨_, exec_linkFrameReceive_refused hup hb h, ?_⟩, fun h12 h13 h14 hok hfv hn hcrc hseq =>
      ⟨_, exec_linkFrameReceive_accepted hup hb h12 h13 h14 hok hfv hn hcrc hseq, ?_⟩⟩
    · have hnak := (s.countFec_port q LinkPort.nakf (fun _ _ _ _ => rfl) (s.quill q).ruled.rxDone fec 14 14).trans hn
      have hbump (t : State) : (t.bump 0x6045 q 1).quill q = t.quill q := rfl
      have hport (t : State) (f : LinkPort → LinkPort) : (t.updPort q f).obj 0x6045 q = t.obj 0x6045 q := rfl
      rw [State.nakFrame_raises _ q hnak, hbump, State.quill_updPort, State.obj_bump, hport, s.countFec_obj q hq (by decide) (by decide) (by omega)]
      exact ⟨rfl, rfl⟩
    · have hnibs : (s.countFec q (s.quill q).ruled.rxDone fec 14 14).nibs = s.nibs :=
        s.countFec_same q State.nibs (fun _ _ _ _ => rfl) (fun _ _ => rfl) _ fec 14 14
      have haccept (t : State) (f : LinkPort → LinkPort) : (t.acceptFlits q f).quill q = { t.quill q with port := f (t.quill q).port } ∧
        (t.acceptFlits q f).nibs = t.nibs := ⟨t.quill_updPort q f, rfl⟩
      dsimp only
      rw [(haccept _ _).1, (haccept _ _).2, hnibs]
      dsimp only
      rw [State.fresh_takeFlits, s.countFec_port q LinkPort.fresh fun _ _ _ _ => rfl]
      exact ⟨rfl, rfl, rfl, rfl⟩
  · rw [exec_aseqAdvance, execAseqAdvance, State.advanceAseq]
    refine congrArg _ (if_pos ?_)
    simpa using h
  · have hlast : (s.quill q).port.unacked.isEmpty = false := by simpa using hun
    rw [exec_linkReplay, execLinkReplay, State.startReplay, if_pos h]
    refine congrArg _ (s.updPort_congr q ?_)
    rw [hlast, if_neg Bool.false_ne_true]

end Sys2Proof.Machine
end

section
/-! Proof of the statement on the states of a quill (09 R281, R282, R301; 10 R311-R315; 12 R376, R377). -/

namespace Sys2Proof.Machine
namespace State

/-! ### What an orphaned request changes -/

/-- `g` reads nothing of what requests that complete and a parent that is let go change: the margin engine's own state, the nibs, the time
state, what comes with an event and the counts from 0x7016 on. -/
structure DropBlind {β : Type} (g : State → β) : Prop where
  margin : ∀ (s : State) m, g { s with margin := m } = g s
  time : ∀ (s : State) t, g { s with time := t } = g s
  nibs : ∀ (s : State) ns, g { s with nibs := ns } = g s
  told : ∀ (s : State) a x f, g { s with agent := a, txl := x, fresh := f } = g s
  counts : ∀ (s : State) i u k, 0x7016 ≤ i → g (s.bump i u k) = g s

theorem dropBlind_quill {β : Type} (g : Quill → β) (q : Nat) : DropBlind fun s => g (s.quill q) :=
  ⟨fun _ _ => rfl, fun _ _ => rfl, fun _ _ => rfl, fun _ _ _ _ => rfl, fun _ _ _ _ _ => rfl⟩

/-- Objects below 0x7016 are none of those counts. -/
theorem dropBlind_obj {i u : Nat} (hi : i < 0x7016) (hu : u < 256) : DropBlind fun s => s.obj i u where
  margin _ _ := rfl
  time _ _ := rfl
  nibs _ _ := rfl
  told _ _ _ _ := rfl
  counts s j w k hj := by
    refine obj_setObj_other _ _ _ _ _ _ ?_
    rw [objKey, objKey]
    omega

/-- A parent that is let go changes the time state and its counts (R224). -/
theorem dropParent_same {β : Type} (g : State → β) (ht : ∀ (s : State) t, g { s with time := t } = g s)
    (hc : ∀ (s : State) i u k, 0x7016 ≤ i → g (s.bump i u k) = g s) (s : State) (q : Nat) : g (s.dropParent q) = g s := by
  have hhold (t : State) : g t.holdTime = g t := by
    rw [holdTime]
    dsimp only
    split
    · exact ht t _
    · rw [hc _ _ _ _ (by decide)]
      exact ht t _
  have htake (t : State) (b : Nat) : g (t.takeParent b) = g t := by
    rw [takeParent]
    dsimp only
    split
    · rw [hc _ _ _ _ (by decide)]
      exact ht t _
    · exact ht t _
  have hlet (p : Prop) [Decidable p] (t : State) : g (if p then t.holdTime else t) = g t := by
    split
    · exact hhold t
    · rfl
  have hchoose (t : State) : g t.chooseParent = g t := by
    have hrest (u : State) : g (if u.keepsParent then u else match u.bestParent with
        | none => if u.time.parent.isSome || u.time.st = 2 then u.holdTime else u
        | some b => u.takeParent b) = g u := by
      split
      · rfl
      · split
        · exact hlet _ u
        · exact htake u _
    unfold chooseParent
    split
    · rfl
    · exact (hrest _).trans (hlet _ t)
  rw [dropParent]
  split
  · rw [enterHoldover, hchoose, hhold]
  · rfl

section
variable {β : Type} {g : State → β} (hg : DropBlind g)
include hg

theorem event_dropBlind (s : State) (c p d : Nat) : g (s.event c p d) = g s := s.eventIf_same g hg.told true c p d

theorem tellMargin_dropBlind (s : State) (es kept : List MarginEvent) : g (s.tellMargin es kept) = g s := by
  induction es generalizing s kept with
  | nil => exact hg.margin s _
  | cons e es ih =>
    simp only [tellMargin]
    split
    · exact ih ..
    split
    · rw [ih, hg.counts _ _ _ _ (by decide), hg.counts _ _ _ _ (by decide)]
    split
    · exact ih ..
    · rw [ih, hg.counts _ _ _ _ (by decide)]
      exact hg.nibs s _

theorem mirrorDone_dropBlind (s : State) (r : Request) (status : Nat) : g (s.mirrorDone r status) = g s := by
  have hstale : g (s.makeStale r.nib r.ctx) = g s := by
    rw [makeStale]
    split
    · rfl
    · rw [event_dropBlind hg, hg.counts _ _ _ _ (by decide)]
      exact hg.nibs s _
  have hcount : g (s.bump 0x8070 0 1) = g s := hg.counts s _ _ _ (by decide)
  simp only [mirrorDone]
  split
  · exact hstale
  split
  · exact hcount
  split
  · exact hcount
  split
  · exact (hg.nibs _ _).trans hcount
  · exact (hg.nibs _ _).trans hcount

theorem completeRequest_dropBlind (s : State) (i status : Nat) : g (s.completeRequest i status) = g s := by
  simp only [completeRequest]
  split
  · rfl
  split
  · rw [tellMargin_dropBlind hg]
    exact hg.margin s _
  · rw [mirrorDone_dropBlind hg, hg.counts _ _ _ _ (by decide)]
    exact hg.margin s _

theorem orphan_dropBlind (s : State) (i : Nat) : g (s.orphan i) = g s := by
  have hcount : g (s.bump 0x8062 0 1) = g s := hg.counts s _ _ _ (by decide)
  simp only [orphan]
  split
  · rfl
  split
  · exact (hg.margin _ _).trans hcount
  · rw [completeRequest_dropBlind hg, hcount]

theorem dropParent_dropBlind (s : State) (q : Nat) : g (s.dropParent q) = g s := dropParent_same g hg.time hg.counts s q

theorem orphanHop_dropBlind (s : State) (q : Nat) : g (s.orphanHop q) = g s :=
  foldl_same g _ (fun t _ => orphan_dropBlind hg t _) _ s

end

/-! ### Going down -/

/-- A quill that has gone down: its link side starts afresh, and what it held is dropped (R281). -/
def downed (x : Quill) : Quill :=
  { x with
    link := .down, port := freshPort x.port.ctlSent, check := {}, penlifts := [], blots := []
    ruled := { x.ruled with kept := [], rlost := 0 }, time := { x.time with heard := false, departs := [] } }

section
variable (s : State) (q : Nat)

/-- What a quill held is dropped and counted at 0x604E (R281). -/
def emptied : State :=
  let t : State := { s.updQuill q downed with margin := { s.margin with order := s.margin.order.filter fun k => k / 4 ≠ q } }
  if (s.quill q).port.packets = 0 then t else t.bump 0x604E q (s.quill q).port.packets

theorem dropTraffic_eq : s.dropTraffic q = (((s.emptied q).bump 0x6046 q 1).orphanHop q).dropParent q := rfl

theorem emptied_same {β : Type} (g : State → β) (hg : ∀ (t : State) m os, g { t with margin := m, objs := os } = g t) :
    g (s.emptied q) = g (s.updQuill q downed) := by
  rw [emptied]
  split
  · exact hg (s.updQuill q downed) _ s.objs
  · exact hg (s.updQuill q downed) _ _

theorem quill_dropTraffic : (s.dropTraffic q).quill q = downed (s.quill q) := by
  have hdrop (t : State) : (t.dropParent q).quill q = t.quill q := dropParent_dropBlind (dropBlind_quill (fun x => x) q) t q
  have horphan (t : State) : (t.orphanHop q).quill q = t.quill q := orphanHop_dropBlind (dropBlind_quill (fun x => x) q) t q
  have hbump (t : State) : (t.bump 0x6046 q 1).quill q = t.quill q := rfl
  rw [dropTraffic_eq, hdrop, horphan, hbump, s.emptied_same q (fun t => t.quill q) fun _ _ _ => rfl, quill_updQuill]

theorem obj_emptied (hq : q < 16) {i u : Nat} (hu : u < 256) (h : i ≠ 0x604E) : (s.emptied q).obj i u = s.obj i u := by
  rw [emptied]
  split
  · rfl
  · exact obj_bump_index _ h (by omega) hu _

/-- Going down is counted at 0x6046, and no other object below 0x7016 but 0x604E changes (R281). -/
theorem obj_dropTraffic (hq : q < 16) {i u : Nat} (hi : i < 0x7016) (hu : u < 256) (h : i ≠ 0x604E) (h' : i ≠ 0x6046) :
    (s.dropTraffic q).obj i u = s.obj i u := by
  rw [dropTraffic_eq, dropParent_dropBlind (dropBlind_obj hi hu), orphanHop_dropBlind (dropBlind_obj hi hu),
    obj_bump_index _ h' (by omega) hu, s.obj_emptied q hq hu h]

theorem downCount_dropTraffic (hq : q < 16) : (s.dropTraffic q).obj 0x6046 q = (s.obj 0x6046 q + 1) % 2 ^ 64 := by
  rw [dropTraffic_eq, dropParent_dropBlind (dropBlind_obj (by decide) (by omega)), orphanHop_dropBlind (dropBlind_obj (by decide) (by omega)),
    obj_bump, s.obj_emptied q hq (by omega) (by decide)]

/-- Where no request waits for the quill as its first hop, going down leaves the nibs. -/
theorem nibs_dropTraffic (h : ∀ e ∈ s.margin.requests, ∀ r, e.2 = some r → r.hop = some q → r.parked.isSome = true) :
    (s.dropTraffic q).nibs = s.nibs := by
  have hnone : ((s.emptied q).bump 0x6046 q 1).orphanHop q = (s.emptied q).bump 0x6046 q 1 := by
    have hreqs : ((s.emptied q).bump 0x6046 q 1).margin.requests = s.margin.requests := by
      rw [emptied]
      split <;> rfl
    have hfilter : (s.margin.requests.filter fun e => e.2.any fun r => r.hop = some q && r.parked.isNone) = [] := by
      refine List.filter_eq_nil_iff.2 fun e he hany => ?_
      cases hr : e.2 with
      | none => rw [hr] at hany; exact absurd hany (by simp)
      | some r =>
        rw [hr, Option.any_some, Bool.and_eq_true, decide_eq_true_eq] at hany
        have hparked := h e he r hr hany.1
        rw [Option.isSome_iff_ne_none] at hparked
        exact hparked (Option.isNone_iff_eq_none.1 hany.2)
    rw [orphanHop, hreqs, hfilter]
    rfl
  have hparent (t : State) : (t.dropParent q).nibs = t.nibs :=
    dropParent_same State.nibs (fun _ _ => rfl) (fun _ _ _ _ _ => rfl) t q
  rw [dropTraffic_eq, hnone, hparent]
  exact s.emptied_same q State.nibs fun _ _ _ => rfl

end
/-! ### The enable function of a quill -/

section
variable (s : State) (q : Nat)

@[simp] theorem quill_setQuillFn (f : FnState) : (s.setQuillFn q f).quill q = { s.quill q with fn := f } := by
  rw [setQuillFn]
  split
  · exact s.quill_updQuill q _
  · rw [event_quill, quill_updQuill]

@[simp] theorem quill_trainQuill (failed : Bool) :
    (s.trainQuill q failed).quill q = { s.quill q with fn := { code := .opening, failed := failed }, link := .training } := by
  rw [trainQuill, setLink, quill_updQuill, quill_setQuillFn]

@[simp] theorem quill_closeQuill : ((s.closeQuill q).quill q).link = .closing ∧ ((s.closeQuill q).quill q).fn.code = .closing := by
  rw [closeQuill, quill_updPort, setLink, quill_updQuill, quill_setQuillFn]
  exact ⟨rfl, rfl⟩

section
variable {β : Type} (g : State → β) (hu : ∀ (t : State) (f : Quill → Quill), (∀ x, (f x).port = x.port) → g (t.updQuill q f) = g t)
  (he : ∀ (t : State) a x f, g { t with agent := a, txl := x, fresh := f } = g t)
include hu he

/-- A change of a quill's function leaves its link side and what an event does not tell. -/
theorem setQuillFn_same (f : FnState) : g (s.setQuillFn q f) = g s := by
  have hfn : g (s.updQuill q fun x => { x with fn := f }) = g s := by
    rw [hu]
    exact fun _ => rfl
  rw [setQuillFn]
  split
  · exact hfn
  · exact (eventIf_same _ g he true ..).trans hfn

theorem trainQuill_same (failed : Bool) : g (s.trainQuill q failed) = g s := by
  rw [trainQuill, setLink, hu]
  · exact s.setQuillFn_same q g hu he _
  · exact fun _ => rfl

/-- What follows a quill that has gone down changes its function and its link state alone. -/
theorem afterDown_same (failed : Bool) : g (s.afterDown q failed) = g s := by
  have hevent (p : Prop) [Decidable p] (t : State) (c d e : Nat) : g (if p then t.event c d e else t) = g t := by
    split
    · exact eventIf_same _ g he true ..
    · rfl
  have htrain (p : Prop) [Decidable p] (t : State) : g (if p then t.trainQuill q failed else t) = g t := by
    split
    · exact t.trainQuill_same q g hu he failed
    · rfl
  rw [afterDown]
  dsimp only
  split
  · exact s.trainQuill_same q g hu he failed
  · rw [htrain, hevent]
    exact s.setQuillFn_same q g hu he _

end

/-- The quill whose function is as `f` trains again once it is down (R282, R314, R377). -/
def retrains (s : State) (q : Nat) : Bool :=
  if (s.quill q).fn.code = .closing then (s.quill q).fn.pending
  else (s.obj 0x6041 q = 1 && s.obj 0x4902 0 = 1) && (s.quill q).fn.code ≠ .off

theorem retrains_auto (hc : (s.quill q).fn.code ≠ .closing) (h0 : (s.quill q).fn.code ≠ .off) (h1 : s.obj 0x6041 q = 1) (h2 : s.obj 0x4902 0 = 1) :
    s.retrains q = true := by
  rw [retrains, if_neg hc, h1, h2, decide_eq_true h0]
  rfl

theorem retrains_not (hc : (s.quill q).fn.code ≠ .closing) (h2 : s.obj 0x4902 0 = 0) : s.retrains q = false := by
  rw [retrains, if_neg hc, h2, decide_eq_false (p := 0 = 1) (by decide), Bool.and_false, Bool.false_and]

theorem retrains_pending (hc : (s.quill q).fn.code = .closing) : s.retrains q = (s.quill q).fn.pending := by
  rw [retrains, if_pos hc]

theorem quill_afterDown (failed : Bool) : (s.afterDown q failed).quill q = if s.retrains q
    then { s.quill q with fn := { code := .opening, failed := failed }, link := .training }
    else { s.quill q with fn := { code := .off, failed := failed } } := by
  have hevent (t : State) (c d e : Nat) : (if failed then t.event c d e else t).quill q = t.quill q := by
    split
    · exact event_quill ..
    · rfl
  generalize hauto : (decide (s.obj 0x6041 q = 1) && decide (s.obj 0x4902 0 = 1)) = auto
  rw [afterDown, retrains]
  dsimp only
  rw [hauto]
  cases hc : (s.quill q).fn.code <;> cases hp : (s.quill q).fn.pending <;> cases auto <;>
    simp [hevent]

theorem objs_bringUp : (s.bringUp q).objs = s.objs := by
  have hfn (t : State) (f : FnState) : (t.setQuillFn q f).objs = t.objs :=
    t.setQuillFn_same q State.objs (fun _ _ _ => rfl) (fun _ _ _ _ => rfl) f
  have hclose (t : State) : (t.closeQuill q).objs = t.objs := hfn t _
  rw [bringUp]
  split
  · rw [hclose]
    rfl
  · rw [hfn]
    rfl

/-- A quill that comes UP is on, or closes where a disable is pending (R282, R377). -/
theorem quill_bringUp : ((s.quill q).fn.pending = false → ((s.bringUp q).quill q).link = .up ∧ ((s.bringUp q).quill q).fn.code = .on) ∧
    ((s.quill q).fn.pending = true → ((s.bringUp q).quill q).link = .closing ∧ ((s.bringUp q).quill q).fn.code = .closing) := by
  have hsync (t : State) : ((t.syncWindows q).quill q).link = (t.quill q).link := by
    rw [syncWindows, updRuled, quill_updQuill]
  rw [bringUp]
  refine ⟨fun h => ?_, fun h => ?_⟩
  · rw [h, if_neg Bool.false_ne_true, quill_setQuillFn]
    dsimp only
    rw [hsync, quill_updQuill]
    exact ⟨rfl, rfl⟩
  · rw [h, if_pos rfl]
    exact quill_closeQuill _ q

end

end State

/-- What a quill that goes down leaves: the function and the link as they follow, its traffic dropped (R281, R377). -/
theorem exec_quillDown_drops {q : QuillId} {s : State} {cause : DownCause} (hl : (s.quill q).link ≠ .down) (hd : s.downHolds q cause = true) :
    ∃ u, exec (.quillDown q cause) s = .next ((State.dropTraffic u q).afterDown q false) ∧ u.objs = s.objs ∧ u.nibs = s.nibs ∧ u.margin = s.margin ∧
      (u.quill q).fn = (s.quill q).fn := by
  have hcond : (decide ((s.quill q).link = .down) || !s.downHolds q cause) = false := by rw [decide_eq_false hl, hd]; rfl
  rw [exec_quillDown, execQuillDown, State.takeDown, hcond, if_neg Bool.false_ne_true]
  refine ⟨_, rfl, ?_⟩
  split
  · refine ⟨rfl, rfl, rfl, ?_⟩
    rw [State.quill_updQuill]
  · exact ⟨rfl, rfl, rfl, rfl⟩

/-- What a quill in CHECK keeps of an intact IDENT `r` (R314). -/
def State.identKept (s : State) (q r : Nat) : State :=
  (((s.setObj 0x6052 q (s.checkIdent q r)).setObj 0x6053 q (field r 511 498 * 16 + field r 497 494)).setObj 0x6054 q (field r 448 385)).updQuill q
    fun x => { x with check := { x.check with
      ident := some r, same := if (s.quill q).check.ident = some r then (s.quill q).check.same + 1 else 1 } }

/-- An intact IDENT at a quill in CHECK: what it says is noted, and a good one brings the quill UP (R314). -/
theorem exec_identReceive_checks {q : QuillId} {s : State} {ctl slot : List Byte} {r : Nat} (hr : r = natBE (slot.take 64))
    (hok : identOk ctl slot = true) (hl : (s.quill q).link = .check) :
    ∃ u, exec (.identReceive q ctl slot) s = .next (
        if s.checkIdent q r = 1 && 4 ≤ (if (s.quill q).check.ident = some r then (s.quill q).check.same + 1 else 1) && bit r 449
        then State.bringUp u q else u) ∧
      (u.quill q).fn = (s.quill q).fn ∧ (u.quill q).link = .check ∧
      u.objs = (s.identKept q r).objs := by
  have hkept : ((s.identKept q r).quill q).fn = (s.quill q).fn ∧ ((s.identKept q r).quill q).link = (s.quill q).link := by
    rw [State.identKept, State.quill_updQuill]
    exact ⟨rfl, rfl⟩
  have hevent (p : Prop) [Decidable p] (t : State) (c d e : Nat) : (if p then t.event c d e else t).quill q = t.quill q ∧
      (if p then t.event c d e else t).objs = t.objs := by
    split
    · exact ⟨State.event_quill .., State.event_objs ..⟩
    · exact ⟨rfl, rfl⟩
  subst hr
  rw [exec_identReceive, execIdentReceive, State.identArrives, if_pos hok, State.takeIdent]
  dsimp only
  rw [if_neg (not_not_intro hl)]
  rw [← State.identKept]
  refine ⟨_, rfl, ?_, ?_, ?_⟩
  · rw [(hevent _ _ _ _ _).1]
    exact hkept.1
  · rw [(hevent _ _ _ _ _).1]
    exact hkept.2.trans hl
  · exact (hevent _ _ _ _ _).2

/-- Settles O39: what going down drops, and what training, IDENT records and the limit of CHECK do to a quill's link and function. -/
theorem quillStates : Obligations.QuillStates := by
  intro q s
  have hq : q.val < 16 := q.isLt
  have hobjs (t : State) (k : Nat) (failed : Bool) : (t.afterDown k failed).objs = t.objs :=
    t.afterDown_same k State.objs (fun _ _ _ => rfl) (fun _ _ _ _ => rfl) failed
  refine ⟨fun cause hl hd => ?_, fun cause h => ?_, fun hl href => ?_, fun ctl slot r hr => ⟨fun h => ?_, fun hok hl => ?_⟩,
    fun hl hlate hfn hauto => ?_⟩
  · obtain ⟨u, hu, ho, hn, hm, hfn⟩ := exec_quillDown_drops hl hd
    have hobj (i k : Nat) : u.obj i k = s.obj i k := by rw [State.obj, ho, State.obj]
    have hdown := u.quill_dropTraffic q
    have hport : (((u.dropTraffic q).afterDown q false).quill q).port = (State.downed (u.quill q)).port := by
      rw [State.afterDown_same _ q (fun t => (t.quill q).port) (fun t f hf => t.quill_updQuill_same Quill.port (hf _) q) (fun _ _ _ _ => rfl), hdown]
    have hafter := (u.dropTraffic q).quill_afterDown q false
    have hdfn : ((u.dropTraffic q).quill q).fn = (s.quill q).fn := by rw [hdown, ← hfn]; rfl
    have hdobj {i k : Nat} (hi : i < 0x7016) (hk : k < 256) (h1 : i ≠ 0x604E) (h2 : i ≠ 0x6046) : (u.dropTraffic q).obj i k = s.obj i k := by
      rw [u.obj_dropTraffic q hq hi hk h1 h2, hobj]
    refine ⟨_, hu, ?_, by rw [hport]; rfl, by rw [hport]; rfl, fun hon => ⟨fun ⟨h1, h2⟩ => ?_, fun h0 => ?_⟩, fun hc hp => ?_, fun hreq => ?_⟩
    · rw [State.obj, hobjs, ← State.obj, u.downCount_dropTraffic q hq, hobj]
    · rw [hafter, State.retrains_auto _ q (by rw [hdfn, hon]; decide) (by rw [hdfn, hon]; decide)
        (by rw [hdobj (by decide) (by omega) (by decide) (by decide), h1]) (by rw [hdobj (by decide) (by omega) (by decide) (by decide), h2]),
        if_pos rfl]
      exact ⟨rfl, rfl⟩
    · rw [hafter, State.retrains_not _ q (by rw [hdfn, hon]; decide) (by rw [hdobj (by decide) (by omega) (by decide) (by decide), h0]),
        if_neg Bool.false_ne_true, hdown]
      exact ⟨rfl, rfl⟩
    · rw [hafter, State.retrains_pending _ q (by rw [hdfn, hc]), hdfn, hp, if_pos rfl]
      exact ⟨rfl, rfl⟩
    · rw [State.afterDown_same _ q State.nibs (fun _ _ _ => rfl) (fun _ _ _ _ => rfl), u.nibs_dropTraffic q (by rw [hm]; exact hreq), hn]
  · have hcond : (decide ((s.quill q).link = .down) || !s.downHolds q cause) = true := by rcases h with h | h <;> simp [h]
    rw [exec_quillDown, execQuillDown, State.takeDown, hcond, if_pos rfl]
  · have hgo : (decide ((s.quill q).link ≠ .training) || !s.time.refOk) = false := by rw [hl, href]; rfl
    have hsync (t : State) : ((t.syncWindows q).quill q).link = (t.quill q).link ∧ ((t.syncWindows q).quill q).check = (t.quill q).check := by
      rw [State.syncWindows, State.updRuled, State.quill_updQuill]
      exact ⟨rfl, rfl⟩
    have hset (t : State) (f : Quill → Quill) (i v : Nat) : ((t.updQuill q f).setObj i q v).quill q = f (t.quill q) := t.quill_updQuill q f
    have hsynco (t : State) : (t.syncWindows q).obj 0x6052 q = t.obj 0x6052 q ∧ (t.syncWindows q).nibs = t.nibs := ⟨rfl, rfl⟩
    rw [exec_quillTrainingComplete, execQuillTrainingComplete, State.trained, hgo, if_neg Bool.false_ne_true]
    refine ⟨_, rfl, ?_, ?_, ?_, ?_⟩
    · rw [(hsync _).1, hset]
    · rw [(hsync _).2, hset]
    · rw [(hsynco _).1, State.obj_setObj]
    · exact (hsynco _).2
  · rw [exec_identReceive, execIdentReceive, State.identArrives]
    rcases h with h | h
    · rw [h, if_neg Bool.false_ne_true]
    · rw [State.takeIdent]
      dsimp only
      rw [if_pos h, ite_self]
  · obtain ⟨u, hu, hfn, hlink, ho⟩ := exec_identReceive_checks hr hok hl
    have hup (t : State) (i : Nat) : (t.bringUp q).obj i q = t.obj i q := by rw [State.obj, t.objs_bringUp q, State.obj]
    have hobj (i : Nat) : u.obj i q = (s.identKept q r).obj i q := by rw [State.obj, ho, State.obj]
    have hif (p : Prop) [Decidable p] (i : Nat) : (if p then u.bringUp q else u).obj i q = u.obj i q := by
      split
      · exact hup u i
      · rfl
    have hkept (f : Quill → Quill) (t : State) (i : Nat) : (t.updQuill q f).obj i q = t.obj i q := rfl
    refine ⟨_, hu, ?_, ?_, ?_, fun hc hi hs hb => ?_, fun h => ?_⟩
    · rw [hif, hobj, State.identKept, hkept, State.obj_setObj_index _ (by decide) (by omega) (by omega),
        State.obj_setObj_index _ (by decide) (by omega) (by omega), State.obj_setObj]
    · rw [hif, hobj, State.identKept, hkept, State.obj_setObj]
    · rw [hif, hobj, State.identKept, hkept, State.obj_setObj_index _ (by decide) (by omega) (by omega), State.obj_setObj]
    · have hgood : (decide (s.checkIdent q r = 1) && decide (4 ≤ (if (s.quill q).check.ident = some r then (s.quill q).check.same + 1 else 1)) &&
          bit r 449) = true := by
        rw [if_pos hi, hc, hb, decide_eq_true (show 4 ≤ (s.quill q).check.same + 1 by omega)]
        rfl
      rw [hgood, if_pos rfl, ← hfn]
      exact u.quill_bringUp q
    · have hbad : (decide (s.checkIdent q r = 1) && decide (4 ≤ (if (s.quill q).check.ident = some r then (s.quill q).check.same + 1 else 1)) &&
          bit r 449) = false := by
        rcases h with h | h | h | h
        · rw [decide_eq_false h, Bool.false_and, Bool.false_and]
        · rw [if_neg h, decide_eq_false (p := 4 ≤ 1) (by decide), Bool.and_false, Bool.false_and]
        · have hfew : ¬4 ≤ (if (s.quill q).check.ident = some r then (s.quill q).check.same + 1 else 1) := by split <;> omega
          rw [decide_eq_false hfew, Bool.and_false, Bool.false_and]
        · rw [h, Bool.and_false]
      rw [hbad, if_neg Bool.false_ne_true, hlink]
  · have hcond : (decide ((s.quill q).link = .check) && decide ((s.quill q).check.since + 25000000 ≤ s.now)) = true := by
      rw [decide_eq_true hl, decide_eq_true hlate]
      rfl
    have hdfn : ((s.dropTraffic q).quill q).fn = (s.quill q).fn := by rw [s.quill_dropTraffic q]; rfl
    have hafter := (s.dropTraffic q).quill_afterDown q true
    rw [State.retrains_not _ q (by rw [hdfn, hfn]; decide) (by rw [s.obj_dropTraffic q hq (by decide) (by omega) (by decide) (by decide), hauto]),
      if_neg Bool.false_ne_true, s.quill_dropTraffic q] at hafter
    rw [exec_checkTimeout, execCheckTimeout, State.checkExpires]
    rw [hcond, if_pos rfl]
    refine ⟨_, rfl, ?_⟩
    rw [hafter]
    exact ⟨rfl, rfl, rfl⟩

end Sys2Proof.Machine
end

section
/-! Proofs of the statements on margin packets, requests, responses and the mirror (09 R283-R303; 10 R325-R327). -/

namespace Sys2Proof.Machine

/-- Settles O40: the row of a packet in transit, branch by branch. -/
theorem marginPacketsForward : Obligations.MarginPacketsForward := by
  intro q vc s p dir dx dy hhead hhop
  refine ⟨fun h => ?_, fun k out h hout => ⟨fun hc => ?_, fun hc => ?_⟩⟩
  · rw [exec_marginPacketForward, execMarginPacketForward, State.forwardPacket, hhead]
    dsimp only
    rw [hhop]
    dsimp only
    rw [h]
  · rw [exec_marginPacketForward, execMarginPacketForward, State.forwardPacket, hhead]
    dsimp only
    rw [hhop]
    dsimp only
    rw [h]
    dsimp only
    rw [← hout, if_pos hc]
  · rw [exec_marginPacketForward, execMarginPacketForward, State.forwardPacket, hhead]
    dsimp only
    rw [hhop]
    dsimp only
    rw [h]
    dsimp only
    rw [← hout, if_neg (Nat.not_lt.2 hc)]

/-! ### Requests -/

section
variable {m : MarginAt} {s : State} {p : List Byte} {h : Nat} (hhead : s.headAt m = some p) (hh : h = packetHdr p)
  (hhop : nextHop (mDx h) (mDy h) = none) (htype : mType h = 0)
include hhead hh hhop htype

omit hhop htype in
theorem exec_marginRequestExecute_waits (hfirst : s.firstAt m = false) : exec (.marginRequestExecute m) s = .next s := by
  rw [exec_marginRequestExecute, execMarginRequestExecute, State.executeRequest, hhead]
  dsimp only
  rw [← hh, hfirst, Bool.not_false, Bool.or_true, if_pos rfl]

/-- The first request to have reached the module is taken (R296). -/
theorem exec_marginRequestExecute_first (hfirst : s.firstAt m = true) : exec (.marginRequestExecute m) s = .next (
    if !hcrcOk p then (s.popRequest m).bump 0x8064 0 1
    else if mType h ≠ 0 || 4 < mOp h || mDst h ≠ s.chip then (s.popRequest m).bump 0x8069 0 1
    else if !crcOk p then s.answer m h 9 [] fun s => s.bump 0x8064 0 1
    else s.serve m h (packetData p)) := by
  have hgo : ((nextHop (mDx h) (mDy h)).isSome || decide (mType h = 1) || !s.firstAt m) = false := by
    rw [hhop, htype, hfirst]
    rfl
  rw [exec_marginRequestExecute, execMarginRequestExecute, State.executeRequest, hhead]
  dsimp only
  rw [← hh, hgo, if_neg Bool.false_ne_true]

/-- A request that passes the checks of R298 is served. -/
theorem exec_marginRequestExecute_serves (hfirst : s.firstAt m = true) (hcrc : hcrcOk p = true) (hop : mOp h ≤ 4) (hdst : mDst h = s.chip)
    (hdata : crcOk p = true) : exec (.marginRequestExecute m) s = .next (s.serve m h (packetData p)) := by
  have hok : (decide (mType h ≠ 0) || decide (4 < mOp h) || decide (mDst h ≠ s.chip)) = false := by
    rw [htype, hdst, decide_eq_false (Nat.not_lt.2 hop), decide_eq_false (p := 0 ≠ 0) (by decide), decide_eq_false (not_not_intro rfl)]
    rfl
  rw [exec_marginRequestExecute_first hhead hh hhop htype hfirst, hcrc, hok, hdata, Bool.not_true, if_neg Bool.false_ne_true,
    if_neg Bool.false_ne_true, if_neg Bool.false_ne_true]

end

namespace State
section
variable {m : MarginAt} {s : State} {h : Nat} {data : List Byte}

theorem serve_otherJob (hjob : s.jobOk h = false) (hfits : s.responseFits (s.responseTo h 6 []) = true) :
    s.serve m h data = (s.popRequest m).respond (s.responseTo h 6 []) := by
  rw [serve, hjob, Bool.not_false, if_pos rfl, answer]
  rw [if_pos hfits]
  rfl

theorem serve_duplicate (hjob : s.jobOk h = true) {e : FilterEntry} (hidemp : mIdemp h = false) (he : s.filterEntry h = some e)
    (hfits : s.responseFits (s.responseTo h e.status e.result) = true) :
    s.serve m h data = ((s.bump 0x8067 0 1).popRequest m).respond (s.responseTo h e.status e.result) := by
  rw [serve, hjob, Bool.not_true, if_neg Bool.false_ne_true, hidemp, if_neg Bool.false_ne_true, he]
  dsimp only
  rw [answer]
  rw [if_pos hfits]

/-- An idempotent request of the job, without NOTIFY, that is done is answered (R296). -/
theorem serve_done (hjob : s.jobOk h = true) (hidemp : mIdemp h = true) (hlost : s.margin.lost = []) (hnotify : mNotify h = false)
    (hfits : s.responseFits (s.responseTo h 0 (List.replicate (mPayload (setField (setField h 511 508 1) 503 496 0)) 0)) = true)
    {t : State} {st : Nat} {result : List Byte} (hrun : s.runRequest h data = .done t st result) :
    s.serve m h data = ((t.forgetRecall h).popRequest m).respond ((t.forgetRecall h).responseTo h st result) := by
  have hgoes : s.runUnlessLost h data = .done t st result := by
    rw [runUnlessLost, hlost]
    exact (if_neg (by simp)).trans hrun
  have hquiet (u : State) : u.notify h = u := by
    rw [notify, hnotify]
    rfl
  rw [serve, hjob, Bool.not_true, if_neg Bool.false_ne_true, hidemp, if_pos rfl]
  dsimp only
  rw [hfits, Bool.not_true, if_neg Bool.false_ne_true, hgoes]
  dsimp only
  rw [if_pos rfl, hquiet, ite_self]

/-- READ of a nib's bytes (R292). -/
theorem readReq_nib {off len n a : Nat} (ht : s.target off len false = (s, .nib n a)) (hecc : (s.nib n).ecc = []) :
    s.readReq off len = .done s 0 ((s.nib n).mem.readBytes a len) := by
  have hclaim : s.targetClaim (.nib n a) false = s := rfl
  have hheld : s.targetHeld (.nib n a) false = false := rfl
  rw [readReq, withTarget, ht]
  dsimp only
  rw [hclaim, hheld, if_neg Bool.false_ne_true, targetRead, readStores_clean hecc]
  rfl

/-- WRITE of a nib's bytes (R292). -/
theorem writeReq_nib {off n a : Nat} {bs : List Byte} (ht : s.target off bs.length true = (s, .nib n a)) (hecc : (s.nib n).ecc = []) :
    s.writeReq off bs = .done ((s.setNib n (s.nib n)).updNib n fun x => { x with mem := x.mem.writeBytes a bs }) 0 [] := by
  have hclaim : s.targetClaim (.nib n a) true = s := rfl
  have hheld : s.targetHeld (.nib n a) true = false := rfl
  rw [writeReq, withTarget, ht]
  dsimp only
  rw [hclaim, hheld, if_neg Bool.false_ne_true, targetMerge, mergeStores_clean hecc]
  rfl

/-- A packet that is sent or a request that leaves its buffer changes quills, the margin engine and objects alone. -/
theorem sendPacket_same {β : Type} (g : State → β) (hg : ∀ (t : State) m qs os, g { t with margin := m, quills := qs, objs := os } = g t)
    (s : State) (p : List Byte) : g (s.sendPacket p).1 = g s := by
  simp only [sendPacket]
  split
  · exact hg s _ s.quills s.objs
  split
  · rfl
  · exact hg s s.margin _ s.objs

theorem respond_same {β : Type} (g : State → β) (hg : ∀ (t : State) m qs os, g { t with margin := m, quills := qs, objs := os } = g t)
    (s : State) (p : List Byte) : g (s.respond p) = g s := by
  rw [respond]
  split
  · exact s.sendPacket_same g hg p
  · exact (hg _ (s.sendPacket p).1.margin (s.sendPacket p).1.quills _).trans (s.sendPacket_same g hg p)

theorem popAt_same {β : Type} (g : State → β) (hg : ∀ (t : State) m qs, g { t with margin := m, quills := qs } = g t)
    (s : State) (m : MarginAt) : g (s.popAt m) = g s := by
  cases m with
  | quill q vc => exact hg s s.margin _
  | own => exact hg s _ s.quills

end
end State

/-- Settles O41: a request in its turn is refused, answered from the filter, or run. -/
theorem marginRequestsExecute : Obligations.MarginRequestsExecute := by
  intro m s p h hhead hh hhop htype
  refine ⟨fun hf => exec_marginRequestExecute_waits hhead hh hf, fun hf => ⟨fun hcrc => ?_, fun hcrc hop hdst hdata => ?_⟩⟩
  · rw [exec_marginRequestExecute_first hhead hh hhop htype hf, hcrc, Bool.not_false, if_pos rfl]
  rw [exec_marginRequestExecute_serves hhead hh hhop htype hf hcrc hop hdst hdata]
  refine ⟨fun hjob hfits => ?_, fun hjob e hidemp he hfits => ?_, fun hjob hidemp hlost n a hecc hfits => ⟨fun ho hn ht => ?_, fun ho hn ht => ?_⟩⟩
  · rw [State.serve_otherJob hjob hfits]
  · rw [State.serve_duplicate hjob hidemp he hfits]
  · have hrun : s.runRequest h (packetData p) = .done s 0 ((s.nib n).mem.readBytes a (mLen h)) := by
      rw [State.runRequest, ho]
      exact State.readReq_nib ht hecc
    rw [State.serve_done hjob hidemp hlost hn hfits hrun]
    rfl
  · have hrun : s.runRequest h (packetData p) = .done ((s.setNib n (s.nib n)).updNib n fun x => { x with mem := x.mem.writeBytes a (packetData p) }) 0 [] := by
      rw [State.runRequest, ho]
      exact State.writeReq_nib ht hecc
    refine ⟨_, congrArg _ (State.serve_done hjob hidemp hlost hn hfits hrun), ?_⟩
    have hsame {β : Type} (g : State → β) (hg : ∀ (t : State) m qs os, g { t with margin := m, quills := qs, objs := os } = g t) (u : State)
        (r : List Byte) : g (((u.forgetRecall h).popRequest m).respond r) = g u := by
      rw [State.respond_same g hg, State.popRequest, State.popAt_same g (fun t x qs => hg t x qs t.objs)]
      exact (hg _ _ (u.forgetRecall h).quills (u.forgetRecall h).objs).trans (hg u _ u.quills u.objs)
    refine ⟨?_, fun k hk => ?_, ?_⟩
    · rw [hsame (fun t => t.nib n) fun _ _ _ _ => rfl, State.nib_updNib, State.nib_setNib]
    · rw [hsame (fun t => t.nib k) fun _ _ _ _ => rfl, State.nib_updNib_other _ _ hk, State.nib_setNib_other _ _ _ _ hk]
    · exact hsame State.desk (fun _ _ _ _ => rfl) _ _

/-! ### Responses and timers -/

namespace State
section
variable (s : State)

/-- Completions that are told change of the margin engine what it holds of them alone. -/
theorem tellMargin_margin (es kept : List MarginEvent) :
    (s.tellMargin es kept).margin.requests = s.margin.requests ∧ (s.tellMargin es kept).margin.ended = s.margin.ended := by
  induction es generalizing s kept with
  | nil => exact ⟨rfl, rfl⟩
  | cons e es ih =>
    simp only [tellMargin]
    split
    · exact ih ..
    split
    · exact ih ..
    split
    · exact ih ..
    · exact ih ..

theorem mirrorDone_margin (r : Request) (status : Nat) : (s.mirrorDone r status).margin = s.margin := by
  have hstale : (s.makeStale r.nib r.ctx).margin = s.margin := by
    rw [makeStale]
    split
    · rfl
    · rw [event_margin]
      rfl
  simp only [mirrorDone]
  split
  · exact hstale
  split
  · rfl
  split
  · rfl
  split
  · rfl
  · rfl

theorem requests_popAt (m : MarginAt) : (s.popAt m).margin.requests = s.margin.requests := by
  cases m with
  | quill q vc => rfl
  | own => rfl

/-- A request that completes leaves the store, and its ID stays taken from then on (R295, R297). -/
theorem completeRequest_ends {i : Nat} {r : Request} (h : SMap.get none s.margin.requests i = some r) (status : Nat) :
    SMap.get none (s.completeRequest i status).margin.requests i = none ∧
      SMap.get none (s.completeRequest i status).margin.ended i = some s.now := by
  rw [completeRequest, h]
  dsimp only
  split
  · rw [(tellMargin_margin ..).1, (tellMargin_margin ..).2]
    exact ⟨SMap.get_set_same none s.margin.requests i none, SMap.get_set_same none s.margin.ended i (some s.now)⟩
  · rw [mirrorDone_margin]
    exact ⟨SMap.get_set_same none s.margin.requests i none, SMap.get_set_same none s.margin.ended i (some s.now)⟩

end

/-- Bytes written one by one from an address on. -/
theorem setAll_mapIdx (bs : List Byte) (m : Memory) (a : Nat) : SMap.setAll 0 m (bs.mapIdx fun i b => (a + i, b)) = m.writeBytes a bs := by
  induction bs generalizing m a with
  | nil => rfl
  | cons b bs ih =>
    have hshift : (fun i (c : Byte) => (a + (i + 1), c)) = fun i c => (a + 1 + i, c) := by
      funext i c
      rw [Nat.add_comm i 1, Nat.add_assoc]
    rw [List.mapIdx_cons, hshift]
    exact ih (SMap.set 0 m a b) (a + 1)

/-- Response data whose range holds no word in error is written whole (R297). -/
theorem putResponse_nib (s : State) (r : Request) (data : List Byte) (hwho : r.who = .send) (hecc : (s.nib (mRnib r.hdr)).ecc = []) :
    ((s.putResponse r data).nib (mRnib r.hdr)).mem = (s.nib (mRnib r.hdr)).mem.writeBytes (mRaddr r.hdr) data ∧
      (s.putResponse r data).margin = s.margin ∧ (s.putResponse r data).desk = s.desk ∧ (s.putResponse r data).now = s.now := by
  rw [putResponse]
  split
  · have hdata : data = [] := by
      rcases (Bool.or_eq_true _ _).mp ‹_› with h | h
      · exact List.isEmpty_iff.1 h
      · exact absurd hwho (of_decide_eq_true h)
    rw [hdata]
    exact ⟨rfl, rfl, rfl, rfl⟩
  · dsimp only
    rw [mergeStores_clean hecc]
    dsimp only
    rw [nib_updNib, nib_setNib]
    dsimp only
    simp only [Option.isNone_none, Bool.true_or]
    rw [List.filter_eq_self.2 fun _ _ => rfl, setAll_mapIdx]
    exact ⟨rfl, rfl, rfl, rfl⟩

end State

section
variable {m : MarginAt} {s : State} {p : List Byte} {h : Nat} (hhead : s.headAt m = some p) (hh : h = packetHdr p)
  (hhop : nextHop (mDx h) (mDy h) = none) (htype : mType h = 1) (hcrc : hcrcOk p = true)
include hhead hh hhop htype hcrc

/-- A response that no request awaits leaves its buffer and is counted (R298, R303). -/
theorem exec_marginResponseReceive_stray (hreq : SMap.get none (s.popAt m).margin.requests (mTxid h) = none) :
    exec (.marginResponseReceive m) s = .next ((s.popAt m).bump 0x8066 0 1) := by
  have hgo : ((nextHop (mDx h) (mDy h)).isSome || decide (mType h ≠ 1)) = false := by
    rw [hhop, htype]
    rfl
  rw [exec_marginResponseReceive, execMarginResponseReceive, State.takeResponse, hhead]
  dsimp only
  rw [← hh, hgo, if_neg Bool.false_ne_true, hcrc, Bool.not_true, if_neg Bool.false_ne_true, hreq]

/-- A response to a request that is not parked completes it, unless its data fails its check or it asks for another try (R297, R301). -/
theorem exec_marginResponseReceive_completes {r : Request} (hreq : SMap.get none (s.popAt m).margin.requests (mTxid h) = some r)
    (hpark : r.parked = none) (hdata : crcOk p = true) (hst : mStatus h = 0) : exec (.marginResponseReceive m) s =
      .next (((s.popAt m).putResponse r (packetData p)).completeRequest (mTxid h) 0) := by
  have hgo : ((nextHop (mDx h) (mDy h)).isSome || decide (mType h ≠ 1)) = false := by
    rw [hhop, htype]
    rfl
  rw [exec_marginResponseReceive, execMarginResponseReceive, State.takeResponse, hhead]
  dsimp only
  rw [← hh, hgo, if_neg Bool.false_ne_true, hcrc, Bool.not_true, if_neg Bool.false_ne_true, hreq]
  dsimp only
  rw [hpark, Option.isSome_none, if_neg Bool.false_ne_true, hdata, Bool.not_true, if_neg Bool.false_ne_true, hst, if_neg (by decide), if_pos rfl]

end

/-- Settles O42: a response, a timer and a limit, by what each finds of its request. -/
theorem marginRequestsComplete : Obligations.MarginRequestsComplete := by
  refine ⟨fun m s p h hhead hh hhop htype hcrc => ⟨fun hnone => ?_, fun r hr hpark hdata hst hwho hecc => ?_⟩,
    fun txid s r hr => ⟨fun hp hlt => ?_, fun hp hle hidemp hretry => ?_, fun hp hle hidemp => ?_, fun t0 hp hle => ?_⟩, fun s => rfl,
    fun txid s t0 ht => ⟨fun hle => ?_, fun hlt => ?_⟩⟩
  · exact exec_marginResponseReceive_stray hhead hh hhop htype hcrc ((congrArg (SMap.get none · _) (s.requests_popAt m)).trans hnone)
  · have hecc' : ((s.popAt m).nib (mRnib r.hdr)).ecc = [] := by
      rw [s.popAt_same (fun t => t.nib (mRnib r.hdr)) (fun _ _ _ => rfl) m, hecc]
    obtain ⟨hmem, hmargin, hdesk, hnow⟩ := (s.popAt m).putResponse_nib r (packetData p) hwho hecc'
    have hr' : SMap.get none ((s.popAt m).putResponse r (packetData p)).margin.requests (mTxid h) = some r := by
      rw [hmargin, s.requests_popAt m, hr]
    obtain ⟨hgone, hended⟩ := State.completeRequest_ends _ hr' 0
    refine ⟨_, exec_marginResponseReceive_completes hhead hh hhop htype hcrc ((congrArg (SMap.get none · _) (s.requests_popAt m)).trans hr)
      hpark hdata hst, hgone, ?_, ?_, ?_⟩
    · rw [hended, hnow, s.popAt_same State.now (fun _ _ _ => rfl) m]
    · rw [State.completeRequest_blind (State.marginBlind_nib Nib.mem (fun _ _ => rfl) (fun _ _ => rfl) _), hmem,
        s.popAt_same (fun t => t.nib (mRnib r.hdr)) (fun _ _ _ => rfl) m]
    · rw [State.completeRequest_blind (g := State.desk) ⟨fun _ _ => rfl, fun _ _ => rfl, fun _ _ => rfl, fun _ _ _ _ => rfl, fun _ _ _ => rfl, fun _ _ _ => rfl⟩, hdesk,
        s.popAt_same State.desk (fun _ _ _ => rfl) m]
  · rw [exec_requestTimeout, execRequestTimeout, State.requestExpires, hr]
    dsimp only
    rw [decide_eq_false (Nat.not_le.2 hlt), Bool.and_false, if_neg Bool.false_ne_true]
  · rw [exec_requestTimeout, execRequestTimeout, State.requestExpires, hr]
    dsimp only
    rw [hp, decide_eq_true hle, Option.isNone_none, Bool.and_true, if_pos rfl, State.orphan, hr]
    dsimp only
    rw [hidemp, decide_eq_true hretry, Bool.and_true, if_pos rfl]
    rfl
  · rw [exec_requestTimeout, execRequestTimeout, State.requestExpires, hr]
    dsimp only
    rw [hp, decide_eq_true hle, Option.isNone_none, Bool.and_true, if_pos rfl, State.orphan, hr]
    dsimp only
    rw [hidemp, Bool.false_and, if_neg Bool.false_ne_true]
    exact ⟨_, rfl, ((s.bump 0x8062 0 1).completeRequest_ends (i := txid.toNat) hr 1).1⟩
  · rw [exec_parkLimitExpiry, execParkLimitExpiry, State.parkExpires, hr]
    dsimp only
    rw [hp]
    dsimp only
    rw [if_pos hle]
    exact ⟨_, rfl, s.completeRequest_ends hr 1⟩
  · rw [exec_transactionIdRelease, execTransactionIdRelease, State.releaseTxid, ht]
    dsimp only
    rw [if_pos hle]
    exact ⟨_, rfl, rfl, SMap.get_set_same none s.margin.ended txid.toNat none⟩
  · rw [exec_transactionIdRelease, execTransactionIdRelease, State.releaseTxid, ht]
    dsimp only
    rw [if_neg (Nat.not_le.2 hlt)]

/-! ### The mirror -/

/-- A nib changed alike is the same change. -/
theorem State.updNib_congr (s : State) (n : Nat) {f g : Nib → Nib} (h : f (s.nib n) = g (s.nib n)) : s.updNib n f = s.updNib n g := by
  rw [State.updNib, State.updNib, h]

/-- The first of a list is the one found where it is ready. -/
theorem find?_mapIdx_head {α : Type} {ready : Nat → α → Bool} {l as : List α} {a : α} (hl : l = a :: as) (h : ready 0 a = true) :
    (l.mapIdx fun i b => (i, ready i b)).find? (fun e => e.2) = some (0, true) := by
  rw [hl, List.mapIdx_cons, List.find?_cons, h]

/-- Settles O43: the oldest commit is the one found to have a piece left, or to be due for its mark. -/
theorem mirrorSends : Obligations.MirrorSends := by
  intro n s r rs c hroom hqueue hc
  have hfirst : (s.nib n).mirror.queue[0]? = some r := by rw [hqueue]; rfl
  have hstep : (s.updNib n fun x => { x with mirror := { x.mirror with
      queue := x.mirror.queue.modify 0 fun r => { r with written := r.written + 1 } } }) =
      s.updNib n fun x => { x with mirror := { x.mirror with queue := { r with written := r.written + 1 } :: rs } } := by
    refine s.updNib_congr n ?_
    rw [hqueue]
    rfl
  refine ⟨fun hleft hecc e he => ?_, fun hacked hwritten => ?_⟩
  · have hfind : ((s.nib n).mirror.queue.findIdx? fun r => r.written < ((s.nib n).ctx r.ctx).pieceCount r) = some 0 := by
      rw [hqueue, List.findIdx?_cons, if_pos (by rw [← hc]; exact decide_eq_true hleft)]
    have hmem (f : Nib → Nib) (hf : (f (s.nib n)).mem = (s.nib n).mem) : ((s.updNib n f).nib n).mem = (s.nib n).mem := by
      rw [State.nib_updNib, hf]
    rw [exec_mirrorWrite, execMirrorWrite, State.mirrorWrite]
    dsimp only
    rw [hroom, Bool.not_true, if_neg Bool.false_ne_true, hfind]
    dsimp only
    rw [hfirst]
    dsimp only
    rw [State.readStores_clean hecc]
    dsimp only
    rw [hstep, hmem, ← hc, ← he, Nat.shiftLeft_eq]
    rfl
  · have hready : (decide (r.acked = ((s.nib n).ctx r.ctx).pieceCount r) && decide (r.written = r.acked) &&
        ((s.nib n).mirror.queue.take 0).all fun p => p.ctx ≠ r.ctx) = true := by
      rw [← hc, decide_eq_true hacked, decide_eq_true hwritten]
      rfl
    have hfind : ((s.nib n).mirror.queue.mapIdx fun i r => (i, decide (r.acked = ((s.nib n).ctx r.ctx).pieceCount r) &&
        decide (r.written = r.acked) && ((s.nib n).mirror.queue.take i).all fun p => p.ctx ≠ r.ctx)).find? (fun e => e.2) = some (0, true) := by
      refine find?_mapIdx_head (ready := fun i r => decide (r.acked = ((s.nib n).ctx r.ctx).pieceCount r) &&
        decide (r.written = r.acked) && ((s.nib n).mirror.queue.take i).all fun p => p.ctx ≠ r.ctx) hqueue hready
    rw [exec_mirrorMark, execMirrorMark, State.mirrorMark]
    dsimp only
    rw [hroom, Bool.not_true, if_neg Bool.false_ne_true, hfind]
    dsimp only
    rw [hfirst]
    dsimp only
    rw [hstep]

end Sys2Proof.Machine
end

section
/-! Refutation of the statement on the staged apply (12 R371-R377), and proof of the one on the place engine (11 R344-R348). -/

namespace Sys2Proof.Machine

/-- A transaction that enables the job binding, on a module whose nib 0 keeps a posted recv of 4 B and a packet of a longer message. -/
def overfullRecv : State where
  time := { clock := 24576 * 2 ^ 32, ticks := 2 * 24576 }
  agent := { staging := { st := .scheduled, owner := 1, vals := [(objKey 0x2A10 0, [1])], instant := 24576 } }
  nibs := [(0, {
    tags := { gmask := 1, emask := 1 }
    slots := [{ slot := 0, kind := .recv, word := 0, addr := 0, gen := 0, epoch := 0, tensors := [⟨0, 0, 0, 0⟩], reads := [], writes := [], left := 1 }]
    inbox := [⟨0, ⟨0, .nib 0, 0, 0, .data 0 0 64 0 [] false⟩⟩] })]

/-- Refutes O44: the tags that OPENING sets offer nib 0's waiting packet to its recv, whose region the message does not fit; STREAM_BOUNDS
blots the job that opens, and the binding is in CLOSING. -/
theorem not_stagedApply : ¬ Obligations.StagedApply := by
  intro h
  obtain ⟨t, hexec, -, -, -, hfn, -⟩ := ((h overfullRecv).2 (by decide) (by decide) (by decide)).2 (by decide) (by decide) (by decide) (by decide)
  have hcloses : overfullRecv.applyInstant.binding.fn.code = .closing := by decide +kernel
  rw [exec_stageApplyInstant, execStageApplyInstant] at hexec
  rw [Host.Outcome.next.inj hexec, hfn] at hcloses
  exact absurd hcloses (by decide)

namespace State

/-! ### What reads of desk memory and translations change -/

/-- `g` reads nothing of desk memory, of the free values and of desk memory's counts. -/
structure DeskBlind {β : Type} (g : State → β) : Prop where
  desk : ∀ (s : State) d, g { s with desk := d } = g s
  fresh : ∀ (s : State) f, g { s with fresh := f } = g s
  counts : ∀ (s : State) i k, 0x8031 ≤ i → g (s.bump i 0 k) = g s

theorem deskBlind_place : DeskBlind place := ⟨fun _ _ => rfl, fun _ _ => rfl, fun _ _ _ _ => rfl⟩

section
variable {β : Type} {g : State → β} (hg : DeskBlind g)
include hg

theorem readBlocks_deskBlind (s : State) (p : Nat → Bool) : g (s.readBlocks p).1 = g s := by
  have hlinks (es : List (Nat × Option LinkEcc)) (t : State) : g (t.meetLinks es).1 = g t := by
    induction es generalizing t with
    | nil => rfl
    | cons e es ih =>
      obtain ⟨b, e⟩ := e
      unfold meetLinks
      dsimp only
      rw [ih]
      split
      · exact hg.counts t _ _ (by decide)
      · split
        · rfl
        · exact hg.counts t _ _ (by decide)
      · exact hg.counts t _ _ (by decide)
      · rfl
  have hblock (t : State) (b k : Nat) : g (t.meetBlock b k).1 = g t := by
    rw [meetBlock]
    dsimp only
    split
    · rw [hg.counts _ _ _ (by decide)]
      exact hg.desk t _
    · split
      · exact hg.counts t _ _ (by decide)
      · split
        · rw [hg.counts _ _ _ (by decide)]
          exact hg.fresh t _
        · rw [hg.counts _ _ _ (by decide)]
          exact (hg.desk _ _).trans ((hg.fresh _ _).trans (hg.fresh t _))
  have hblocks (es : List (Nat × Nat)) (t : State) : g (t.meetBlocks es).1 = g t := by
    induction es generalizing t with
    | nil => rfl
    | cons e es ih => rw [meetBlocks, ih, hblock]
  rw [readBlocks]
  dsimp only
  rw [hblocks, foldl_same g _ (fun t _ => hg.counts t _ _ (by decide)), hlinks]
  exact hg.desk s _

theorem translate_deskBlind (s : State) (va : Nat) (store : Bool) : g (s.translate va store).1 = g s := by
  have hread (t : State) (a len : Nat) : g (t.deskRead a len).1 = g t := readBlocks_deskBlind hg t _
  have hwalk (t : State) : g (t.walk va (accessOf store)).1 = g t := by
    have hcount : g (t.bump 0x8034 0 1) = g t := hg.counts t _ _ (by decide)
    rw [walk]
    dsimp only
    split
    · exact hcount
    · split
      · rw [hread, hcount]
      · split
        · rw [hread, hcount]
        · split
          · rw [hread, hcount]
          · split
            · rw [hread, hread, hcount]
            · split
              · rw [hread, hread, hcount]
              · rw [hread, hread, hcount]
  have hcached (t : State) : g (match (t.walk va (accessOf store)).2.2 with
      | some e => if (t.walk va (accessOf store)).1.desk.tlb.length < 8192
          then ({ (t.walk va (accessOf store)).1 with desk := { (t.walk va (accessOf store)).1.desk with
            tlb := SMap.set 0 (t.walk va (accessOf store)).1.desk.tlb (va / 2 ^ 21) e } }, (t.walk va (accessOf store)).2.1)
          else ((t.walk va (accessOf store)).1, (t.walk va (accessOf store)).2.1)
      | none => ((t.walk va (accessOf store)).1, (t.walk va (accessOf store)).2.1)).1 = g t := by
    split
    · split
      · exact (hg.desk _ _).trans (hwalk t)
      · exact hwalk t
    · exact hwalk t
  rw [translate, translateFor]
  dsimp only
  split
  · exact hcached s
  · split
    · rfl
    · split
      · exact hg.fresh s _
      · exact (hcached s.took).trans (hg.fresh s _)

theorem placePages_deskBlind (fuel : Nat) (s : State) (va len : Nat) (store : Bool) : g (placePages fuel s va len store).1 = g s := by
  induction fuel generalizing s va len with
  | zero => rfl
  | succ fuel ih =>
    rw [placePages]
    split
    · rfl
    · split
      · rfl
      · dsimp only
        split
        · exact translate_deskBlind hg ..
        · rw [ih]
          exact translate_deskBlind hg ..

theorem placeRead_deskBlind (s : State) (va len : Nat) : g (s.placeRead va len).1 = g s := by
  have hfold (ps : List (Nat × Nat)) (x : State × List (Byte × Bool) × Bool) : g (ps.foldl (fun (x : State × List (Byte × Bool) × Bool) p =>
      let r := x.1.deskRead p.1 p.2
      (r.1, x.2.1 ++ (r.1.deskBytes p.1 p.2).mapIdx (fun i b => (b, r.2.contains ((p.1 + i) / 64))), x.2.2 || !r.2.isEmpty)) x).1 = g x.1 := by
    induction ps generalizing x with
    | nil => rfl
    | cons p ps ih =>
      rw [List.foldl_cons, ih]
      exact readBlocks_deskBlind hg x.1 _
  rw [placeRead]
  exact (hfold _ _).trans (placePages_deskBlind hg ..)

end

/-! ### The first entry of a list -/

section
variable {s u : State} {bs : List (Byte × Bool)} {c e : Nat} (hrun : s.place.running = true) (hnext : s.place.next < s.place.count)
  (hfail : s.place.failed = none) (hdone : s.place.done = []) (hoff : s.binding.fn.code = .off)
  (hread : s.placeRead (s.place.base + 32 * s.place.next) 32 = (u, bs, c)) (op : Nat) (eff : State → Nat → Nat → List Nat → State)
include hrun hnext hfail hdone hoff hread

theorem placeEntry_unread (hc : c ≠ 0) : s.placeEntry op eff = u.placeFault s.place.next c := by
  obtain ⟨k, hk⟩ : ∃ k, s.place.count - s.place.next = k + 1 := ⟨s.place.count - s.place.next - 1, by omega⟩
  rw [placeEntry, hfail, hrun, hoff]
  rw [if_neg (by simp), Option.map_none, Option.getD_none, hk, placeFrom, hdone, if_neg (by simp), hread, if_pos hc]

variable (hc : c = 0) (he : e = natLE (bs.map Prod.fst))
include hc he

theorem placeEntry_bad (h : placeEntryOk e = false ∨ u.placeNibs e = none) : s.placeEntry op eff = u.placeFault s.place.next 6 := by
  obtain ⟨k, hk⟩ : ∃ k, s.place.count - s.place.next = k + 1 := ⟨s.place.count - s.place.next - 1, by omega⟩
  rw [placeEntry, hfail, hrun, hoff]
  rw [if_neg (by simp), Option.map_none, Option.getD_none, hk, placeFrom, hdone, if_neg (by simp), hread, if_neg (not_not_intro hc)]
  change (if (!placeEntryOk (natLE (bs.map Prod.fst))) = true then u.placeFault s.place.next 6 else _) = _
  rw [← he]
  cases hok : placeEntryOk e with
  | false => rfl
  | true =>
    rw [Bool.not_true, if_neg Bool.false_ne_true, h.resolve_left (by rw [hok]; exact Bool.noConfusion)]

/-- An entry of the row's OP takes effect, one of another OP is passed. -/
theorem placeEntry_takes (hok : placeEntryOk e = true) {ns : List Nat} (hns : u.placeNibs e = some ns) : s.placeEntry op eff =
    if placeOp e = op then eff u s.place.next e ns else placeFrom op eff (s.place.count - s.place.next - 1) u (s.place.next + 1) [e] := by
  obtain ⟨k, hk⟩ : ∃ k, s.place.count - s.place.next = k + 1 := ⟨s.place.count - s.place.next - 1, by omega⟩
  rw [placeEntry, hfail, hrun, hoff]
  rw [if_neg (by simp), Option.map_none, Option.getD_none, hk, placeFrom, hdone, if_neg (by simp), hread, if_neg (not_not_intro hc)]
  change (if (!placeEntryOk (natLE (bs.map Prod.fst))) = true then u.placeFault s.place.next 6 else _) = _
  rw [← he]
  rw [hok, Bool.not_true, if_neg Bool.false_ne_true, hns, Nat.add_sub_cancel]
  dsimp only
  by_cases h : placeOp e = op
  · rw [if_pos h, if_pos (by simp [h])]
  · rw [if_neg h, if_neg (by simp [h])]

end

section
variable (s : State) (k : Nat)

theorem placeDone_same {β : Type} (g : State → β) (hg : ∀ (t : State) p os, g { t with place := p, objs := os } = g t) : g (s.placeDone k) = g s := by
  have hpast : g (s.placePast k) = g s := by
    rw [placePast]
    dsimp only
    split
    · split
      · exact (hg _ _ s.objs).trans (hg s _ s.objs)
      · exact hg s _ s.objs
    · exact hg s _ s.objs
  exact (hg _ (s.placePast k).place _).trans hpast

/-- The first entry of a list that completes is passed. -/
theorem next_placeDone (hdone : s.place.done = []) (hfail : s.place.failed = none) : (s.placeDone s.place.next).place.next = s.place.next + 1 := by
  have hbump (t : State) : (t.bump 0x8082 0 1).place = t.place := rfl
  have hpass : passDone (s.place.done.length + 1) s.place.next (s.place.done ++ [s.place.next]) = (s.place.next + 1, []) := by
    rw [hdone]
    simp [passDone]
  rw [placeDone, hbump, placePast, hpass]
  dsimp only
  rw [hfail]

end

/-! ### What the entries do to the nibs and to desk memory -/

theorem length_getRange {α : Type} (d : α) (m : SMap α) (k len : Nat) : (SMap.getRange d m k len).length = len := by
  induction len generalizing k with
  | zero => rfl
  | succ len ih => rw [SMap.getRange, List.length_cons, ih]

theorem readBytes_getD_range (m : Memory) (off len : Nat) : ((List.range len).map fun i => (m.readBytes off len).getD i 0) = m.readBytes off len := by
  have hlen : (m.readBytes off len).length = len := length_getRange ..
  refine List.ext_getElem (by simp [hlen]) fun i h _ => ?_
  rw [List.length_map, List.length_range] at h
  rw [List.getElem_map, List.getElem_range, List.getD_eq_getElem?_getD, List.getElem?_eq_getElem (by omega), Option.getD_some]

/-- What is stored does not depend on the free values taken before. -/
theorem desk_placeStore_took (ps : List (Nat × Nat)) (s : State) (f : Nat) (bs : List Byte) :
    (State.placeStore { s with fresh := f } ps bs).desk = (s.placeStore ps bs).desk := by
  induction ps generalizing s bs with
  | nil => rfl
  | cons p ps ih =>
    rw [placeStore, placeStore]
    exact ih (s.deskPut p.1 (bs.take p.2)) _

theorem nibs_placeStore (ps : List (Nat × Nat)) (s : State) (bs : List Byte) : (s.placeStore ps bs).nibs = s.nibs := by
  induction ps generalizing s bs with
  | nil => rfl
  | cons p ps ih => exact ih (s.deskPut p.1 (bs.take p.2)) _

theorem place_placeStore (ps : List (Nat × Nat)) (s : State) (bs : List Byte) : (s.placeStore ps bs).place = s.place := by
  induction ps generalizing s bs with
  | nil => rfl
  | cons p ps ih => exact ih (s.deskPut p.1 (bs.take p.2)) _

theorem deskMerges_clean {s : State} (he : s.desk.ecc = []) (hl : s.desk.link = []) (ha : s.desk.astray = []) (ps : List (Nat × Nat)) :
    ps.foldl (fun (x : State × List Nat) g => ((x.1.deskMerge g.1 g.2).1, x.2 ++ (x.1.deskMerge g.1 g.2).2)) (s, []) = (s, []) := by
  induction ps with
  | nil => rfl
  | cons p ps ih => rw [List.foldl_cons, deskMerge, readBlocks_clean he hl ha, List.append_nil, ih]

section
variable (s : State) (k e n : Nat)

theorem start_placed (h : field e 232 220 < 0x1000) : ((s.start k e [n]).nib n).issue.run = .placed ∧ ((s.start k e [n]).nib n).issue.placed = true ∧
    ((s.start k e [n]).nib n).issue.addr = field e 232 220 ∧ ((s.start k e [n]).nib n).issue.resume = bit e 246 ∧
    ((s.start k e [n]).nib n).mem = (s.nib n).mem := by
  have hnib : (s.start k e [n]).nib n = startPlaced e (s.nib n) := by
    rw [start, placeDone_same _ _ (State.nib · n) fun _ _ _ => rfl]
    exact nib_updNib ..
  have hmem : (startPlaced e (s.nib n)).mem = (s.nib n).mem := by
    rw [startPlaced]
    dsimp only
    split
    · split <;> rfl
    · split <;> rfl
  rw [hnib]
  exact ⟨rfl, rfl, if_neg (by omega), rfl, hmem⟩

theorem start_other {m : Nat} (h : m ≠ n) : (s.start k e [n]).nib m = s.nib m := by
  rw [start, placeDone_same _ _ (State.nib · m) fun _ _ _ => rfl]
  exact nib_updNib_other _ _ h

theorem fill_mem (h : placeSpace e = 0) : ((s.fill k e [n]).nib n).mem = (s.nib n).mem.writeBytes (placeOffset e) (List.replicate (placeLength e) 0) ∧
    ((s.fill k e [n]).nib n).issue = (s.nib n).issue := by
  have hnib : (s.fill k e [n]).nib n = putSpace false (s.nib n) s.free 0 (placeOffset e) (List.replicate (placeLength e) 0) := by
    rw [fill, h]
    rw [placeDone_same _ _ (State.nib · n) fun _ _ _ => rfl]
    exact nib_updNib s.took n fun x => putSpace false x s.free 0 (placeOffset e) (List.replicate (placeLength e) 0)
  rw [hnib]
  exact ⟨rfl, rfl⟩

theorem fill_other {m : Nat} (h : m ≠ n) : (s.fill k e [n]).nib m = s.nib m := by
  rw [fill]
  rw [placeDone_same _ _ (State.nib · m) fun _ _ _ => rfl]
  exact nib_updNib_other s.took (fun x => putSpace false x s.free (placeSpace e) (placeOffset e) (List.replicate (placeLength e) 0)) h

section
variable {v : State} {ds : List (Byte × Bool)} (hread : s.placeRead (placeDesk e) (placeLength e) = (v, ds, 0)) (hsp : placeSpace e = 0)
include hread hsp

/-- A PUT into the well that reads its bytes without error. -/
theorem put_well : s.put k e [n] = (v.took.updNib n fun x => putSpace true x v.free 0 (placeOffset e) (ds.map Prod.fst)).placeDone k := by
  rw [put, hread, hsp]
  dsimp only
  rw [if_neg (by decide), if_neg (by simp)]
  rfl

theorem put_mem : ((s.put k e [n]).nib n).mem = (v.nib n).mem.writeBytes (placeOffset e) (ds.map Prod.fst) := by
  rw [put_well s k e n hread hsp, placeDone_same _ _ (State.nib · n) fun _ _ _ => rfl, nib_updNib]
  rfl

theorem put_other {m : Nat} (h : m ≠ n) : (s.put k e [n]).nib m = v.nib m := by
  rw [put_well s k e n hread hsp, placeDone_same _ _ (State.nib · m) fun _ _ _ => rfl, nib_updNib_other _ _ h]
  rfl

end

section
variable {v : State} {ps : List (Nat × Nat)} (hecc : (v.nib n).ecc = []) (he : v.desk.ecc = []) (hl : v.desk.link = [])
  (ha : v.desk.astray = []) (hpages : placePages (placeLength e / 2 ^ 21 + 2) s (placeDesk e) (placeLength e) true = (v, ps, 0))
  (hsp : placeSpace e = 0)
include hecc he hl ha hpages hsp

/-- A GET from the well that meets no error. -/
theorem get_well : s.get k e [n] = (v.took.placeStore ps ((v.nib n).mem.readBytes (placeOffset e) (placeLength e))).placeDone k := by
  have hbytes (i : Nat) : (if [getSpace (v.nib n) 0 (placeOffset e) (placeLength e)].length = 1
      then [getSpace (v.nib n) 0 (placeOffset e) (placeLength e)].headD [] else
        [getSpace (v.nib n) 0 (placeOffset e) (placeLength e)].getD (v.free / [getSpace (v.nib n) 0 (placeOffset e) (placeLength e)].length ^ (i / 8) %
          [getSpace (v.nib n) 0 (placeOffset e) (placeLength e)].length) []) = (v.nib n).mem.readBytes (placeOffset e) (placeLength e) := rfl
  rw [get, hpages, hsp]
  dsimp only
  rw [if_pos rfl, List.foldl_cons, List.foldl_nil, readStores_clean hecc]
  dsimp only
  rw [deskMerges_clean he hl ha]
  dsimp only
  rw [if_neg (not_not_intro rfl)]
  simp only [Option.isSome_none, Bool.or_false, Bool.false_eq_true, if_false, List.isEmpty_nil, Bool.not_true, List.map_cons, List.map_nil,
    ne_eq, not_true_eq_false, hbytes, readBytes_getD_range]

theorem get_nibs : (s.get k e [n]).nibs = v.nibs := by
  rw [get_well s k e n hecc he hl ha hpages hsp, placeDone_same _ _ (State.nibs ·) fun _ _ _ => rfl, nibs_placeStore]
  rfl

theorem get_mem : (s.get k e [n]).desk.mem = (v.placeStore ps ((v.nib n).mem.readBytes (placeOffset e) (placeLength e))).desk.mem := by
  rw [get_well s k e n hecc he hl ha hpages hsp, placeDone_same _ _ (State.desk ·) fun _ _ _ => rfl]
  exact congrArg Desk.mem (desk_placeStore_took ..)

end
end
end State

/-- Settles O46: the row of an OP meets the list's first entry through `placeEntry_unread`, `placeEntry_bad` and `placeEntry_takes`. -/
theorem placeEntries : Obligations.PlaceEntries := by
  refine ⟨fun s u bs c hrun hnext hfail hdone hoff hread => ⟨fun hc => ?_, fun hc e he => ⟨fun hbad => ?_, fun hok hop hns => ?_, ?_⟩⟩, ?_, ?_⟩
  · have h (op eff) := State.placeEntry_unread hrun hnext hfail hdone hoff hread op eff hc
    exact ⟨congrArg _ (h ..), congrArg _ (h ..), congrArg _ (h ..), congrArg _ (h ..), congrArg _ (h ..)⟩
  · have h (op eff) := State.placeEntry_bad hrun hnext hfail hdone hoff hread op eff hc he hbad
    exact ⟨congrArg _ (h ..), congrArg _ (h ..), congrArg _ (h ..), congrArg _ (h ..), congrArg _ (h ..)⟩
  · obtain ⟨ns, hns⟩ := Option.ne_none_iff_exists'.mp hns
    have h (op eff) := State.placeEntry_takes hrun hnext hfail hdone hoff hread op eff hc he hok hns
    refine ⟨congrArg _ ((h ..).trans (if_pos hop)), fun hlast => congrArg _ ((h ..).trans ((if_neg (by omega)).trans ?_))⟩
    rw [show s.place.count - s.place.next - 1 = 0 by omega]
    rfl
  · intro hok hall hgrid n hn
    have hns : u.placeNibs e = some [n] := by rw [State.placeNibs, hall, if_neg Bool.false_ne_true, if_pos hgrid, hn]
    have h (op eff) (hop : placeOp e = op) : s.placeEntry op eff = eff u s.place.next e [n] :=
      (State.placeEntry_takes hrun hnext hfail hdone hoff hread op eff hc he hok hns).trans (if_pos hop)
    have hu : u.place = s.place := by
      have := State.placeRead_deskBlind State.deskBlind_place s (s.place.base + 32 * s.place.next) 32
      rwa [hread] at this
    have hpassed (t : State) (ht : t.place = s.place) : (t.placeDone s.place.next).place.next = s.place.next + 1 := by
      have := State.next_placeDone t (ht ▸ hdone) (ht ▸ hfail)
      rwa [ht] at this
    refine ⟨fun hop haddr => ?_, fun hop hsp => ?_, fun v ds hop hsp hds => ?_, fun v ps hop hsp hecc hde hdl hda hps => ?_⟩
    · obtain ⟨h1, h2, h3, h4, h5⟩ := State.start_placed u s.place.next e n haddr
      exact ⟨_, congrArg Host.Outcome.next (h _ _ hop), hpassed _ hu, h1, h2, h3, h4, h5, fun k hk => State.start_other _ _ _ _ hk⟩
    · obtain ⟨h1, h2⟩ := State.fill_mem u s.place.next e n hsp
      exact ⟨_, congrArg Host.Outcome.next (h _ _ hop), hpassed _ hu, h1, h2, fun k hk => State.fill_other _ _ _ _ hk⟩
    · have hv : v.place = u.place := by
        have := State.placeRead_deskBlind State.deskBlind_place u (placeDesk e) (placeLength e)
        rwa [hds] at this
      refine ⟨_, congrArg Host.Outcome.next (h _ _ hop), ?_, State.put_mem _ _ _ _ hds hsp, fun k hk => State.put_other _ _ _ _ hds hsp hk⟩
      rw [State.put_well _ _ _ _ hds hsp]
      exact hpassed _ (hv.trans hu)
    · have hv : v.place = u.place := by
        have := State.placePages_deskBlind State.deskBlind_place (placeLength e / 2 ^ 21 + 2) u (placeDesk e) (placeLength e) true
        rwa [hps] at this
      refine ⟨_, congrArg Host.Outcome.next (h _ _ hop), ?_, State.get_nibs _ _ _ _ hecc hde hdl hda hps hsp, State.get_mem _ _ _ _ hecc hde hdl hda hps hsp⟩
      rw [State.get_well _ _ _ _ hecc hde hdl hda hps hsp]
      exact hpassed _ ((State.place_placeStore ..).trans (hv.trans hu))
  · intro s hrun hend hoff
    rw [exec_placeListComplete, execPlaceListComplete, State.placeEnd, if_pos (by simp [hrun, hend, hoff])]
  · intro s hoff
    have h (op eff) : s.placeEntry op eff = s := if_pos (by simp [hoff])
    refine ⟨congrArg _ (h ..), congrArg _ (h ..), congrArg _ (h ..), congrArg _ (h ..), congrArg _ (h ..), ?_⟩
    rw [exec_placeListComplete, execPlaceListComplete, State.placeEnd, if_neg (by simp [hoff])]

end Sys2Proof.Machine
end

section
/-! Proof of the statement on the job binding: OPENING, the drains and the end of pre-emption (06 R199-R203; 10 R319; 11 R350, R351; 12 R377). -/

namespace Sys2Proof.Machine

section
variable {α : Type} {d : α} {m : SMap α} {e : Nat × α}

theorem SMap.mem_of_mem_insert {k : Nat} {v : α} (h : e ∈ SMap.insert k v m) : e ∈ m ∨ e = (k, v) := by
  induction m with
  | nil => exact Or.inr (List.mem_singleton.1 h)
  | cons a m ih =>
    obtain ⟨k', v'⟩ := a
    rw [SMap.insert] at h
    split at h
    · exact (List.mem_cons.1 h).symm
    · split at h
      · exact (List.mem_cons.1 h).symm.imp (List.mem_cons_of_mem _) id
      · rcases List.mem_cons.1 h with h | h
        · exact Or.inl (h ▸ List.mem_cons_self)
        · exact (ih h).imp_left (List.mem_cons_of_mem _)

/-- An entry of a map changed value by value is one of the map's, changed. -/
theorem SMap.mem_mapVals [DecidableEq α] {f : Nat → α → α} (h : e ∈ SMap.mapVals d f m) : ∃ a ∈ m, e = (a.1, f a.1 a.2) := by
  induction m with
  | nil => cases h
  | cons a m ih =>
    obtain ⟨k, v⟩ := a
    have hset : e ∈ SMap.mapVals d f m ∨ e = (k, f k v) := by
      rw [SMap.mapVals, SMap.set] at h
      split at h
      · exact Or.inl ((List.mem_filter.1 h).1)
      · exact SMap.mem_of_mem_insert h
    rcases hset with h | h
    · obtain ⟨a, ha, he⟩ := ih h
      exact ⟨a, List.mem_cons_of_mem _ ha, he⟩
    · exact ⟨(k, v), List.mem_cons_self, h⟩

end

namespace State

/-! ### Objects of the Ledger that packets and records leave alone -/

section
variable {i u : Nat} (hlow : objKey i u < 0x701000)
include hlow

theorem obj_setObj_low (s : State) {j v k : Nat} (hj : 0x7010 ≤ j) : (s.setObj j v k).obj i u = s.obj i u := by
  refine obj_setObj_other _ _ _ _ _ _ ?_
  simp only [objKey] at hlow ⊢
  omega

theorem obj_bump_low (s : State) {j v k : Nat} (hj : 0x7010 ≤ j) : (s.bump j v k).obj i u = s.obj i u := obj_setObj_low hlow s hj

theorem obj_firstFault_low (s : State) {j v k r : Nat} (hj : 0x7010 ≤ j) : (s.firstFault j v k r).obj i u = s.obj i u := by
  rw [firstFault]
  dsimp only
  split
  · exact obj_setObj_low hlow s hj
  · rfl

theorem obj_nibFault_low (s : State) (n : Nat) (f : FaultInfo) : (s.nibFault n f).obj i u = s.obj i u := by
  obtain ⟨v, hv⟩ := s.nibFault_eq n f
  have hue (t : State) : { t with recovery := { t.recovery with storeUe := v } }.obj i u = t.obj i u := rfl
  have hset (x : Nib) : (s.setNib n x).obj i u = s.obj i u := rfl
  have hblot (t : State) : (t.blot 1).obj i u = t.obj i u :=
    t.blot_obj (i := i) (u := u) (by simp only [objKey] at hlow ⊢; omega) (by simp only [objKey] at hlow ⊢; omega) 1
  rw [hv, hue, hblot, faultNoted]
  rw [obj_firstFault_low hlow _ (by decide), obj_bump_low hlow _ (by decide), obj_firstFault_low hlow _ (by decide),
    obj_bump_low hlow _ (by decide), hset]

theorem obj_mergePart_low (s : State) (n : Nat) (rs ws : List (Nat × Nat)) : (s.mergePart n rs ws).1.obj i u = s.obj i u := by
  have hce (w : Nat) : 0x7010 ≤ ceCounter w := by rw [ceCounter]; split <;> decide
  have hue (t : State) (w : Nat) : (t.countUe n w).obj i u = t.obj i u := by
    have hcounter : 0x7010 ≤ ueCounter w := by rw [ueCounter]; split <;> decide
    rw [countUe, obj_setObj_low hlow _ (by decide), obj_bump_low hlow _ hcounter]
  have hword (t : State) (w b : Nat) : (t.meetWord n w b).1.obj i u = t.obj i u := by
    rw [meetWord]
    split
    · exact obj_bump_low hlow _ (hce w)
    · split
      · exact hue ..
      · split
        · exact hue ..
        · exact obj_bump_low hlow _ (hce w)
  have hwords (es : List (Nat × Nat)) (t : State) : (t.meetWords n es).1.obj i u = t.obj i u := by
    induction es generalizing t with
    | nil => rfl
    | cons e es ih =>
      obtain ⟨w, b⟩ := e
      rw [meetWords]
      split
      · exact hword t w b
      · rw [ih, hword]
  rw [mergePart]
  split
  · exact hwords ..
  · exact hwords ..

theorem obj_recvPacket_low {s t : State} {n : Nat} {p : Packet} {q base total off : Nat} {bs : List Byte} {last : Bool}
    (h : s.recvPacket n p q base total off bs last = .taken t) : t.obj i u = s.obj i u := by
  have hstored (c : Prop) [Decidable c] (v : State) (f g : Nib → Nib) :
      (if c then ((v.updNib n f).progress n 4).updNib n g else (v.updNib n f).progress n 4).obj i u = v.obj i u := by
    split <;> rfl
  rw [recvPacket] at h
  dsimp only at h
  split at h
  · cases h
  · split at h
    · cases h
    · split at h
      · cases h
      · split at h
        · cases h
          exact obj_nibFault_low hlow ..
        · split at h
          · cases h
          · split at h
            · cases h
              rw [opFault, obj_nibFault_low hlow]
              exact obj_mergePart_low hlow ..
            · cases h
              exact (hstored _ _ _ _).trans (obj_mergePart_low hlow ..)

theorem obj_localOutput_low {s t : State} {n : Nat} {p : Packet} (h : s.localOutput n p = .taken t) : t.obj i u = s.obj i u := by
  rw [localOutput] at h
  split at h
  · cases h
    exact obj_bump_low hlow _ (by decide)
  · split at h
    · cases h
      rfl
    · split at h
      · cases h
        exact obj_bump_low hlow _ (by decide)
      · split at h
        · split at h
          · cases h
            rfl
          · cases h
        · exact obj_recvPacket_low hlow h
        · cases h
          rfl

theorem obj_offer_low (s : State) (n : Nat) (blocked : List Nat) (ws kept : List Waiting) : (s.offer n blocked ws kept).obj i u = s.obj i u := by
  induction ws generalizing s blocked kept with
  | nil => rfl
  | cons w ws ih =>
    rw [offer]
    split
    · exact ih ..
    · split
      · exact ih ..
      · rename_i t ht
        split
        · rw [ih, obj_bump_low hlow _ (by decide)]
          exact obj_localOutput_low hlow ht
        · rw [ih]
          exact obj_localOutput_low hlow ht

theorem obj_drainInbox_low (s : State) (n : Nat) : (s.drainInbox n).obj i u = s.obj i u := obj_offer_low hlow ..

theorem obj_restoreNib_low (s : State) (n : Nat) : (s.restoreNib n).obj i u = s.obj i u := by
  have hread (a len : Nat) : (s.deskRead a len).1.obj i u = s.obj i u :=
    readBlocks_deskBlind (g := fun t => t.obj i u) ⟨fun _ _ => rfl, fun _ _ => rfl, fun t j k hj => obj_bump_low hlow t (by omega)⟩ s _
  rw [restoreNib]
  dsimp only
  rw [obj_drainInbox_low hlow]
  exact hread ..

end
/-! ### OPENING ends -/

theorem binding_enterOff (s : State) (failed : Bool) : (s.enterOff failed).binding.fn = { code := .off, failed := failed } := by
  have hset (t : State) : (t.setBinding { code := .off, pending := false, failed := failed }).binding.fn = { code := .off, failed := failed } := by
    rw [setBinding_binding]
  exact hset _

theorem enterOff_same {β : Type} (g : State → β) (hg : ∀ (s : State) ns b a x f os,
    g { s with nibs := ns, binding := b, agent := a, txl := x, fresh := f, objs := os } = g s) (s : State) (failed : Bool) :
    g (s.enterOff failed) = g s := by
  have hbells (t : State) : g (if s.binding.heldBells.length = 0 then t else t.bump 0x80E7 0 s.binding.heldBells.length) = g t := by
    split
    · rfl
    · exact hg t t.nibs t.binding t.agent t.txl t.fresh _
  have hset (t : State) (f : FnState) : g (t.setBinding f) = g t :=
    setBinding_same _ g (fun t b a x f => hg t t.nibs b a x f t.objs) _
  have hrest (t : State) (b : Binding) (f : Nib → Nib) : g (({ t with binding := b } : State).mapNibs f) = g t :=
    hg t _ b t.agent t.txl t.fresh t.objs
  exact (hrest _ _ _).trans ((hset _ _).trans (hbells s))

theorem nib_enterOff (s : State) (failed : Bool) (n : Nat) : (s.enterOff failed).nib n = { s.nib n with issue := { (s.nib n).issue with
    placed := false, run := if (s.nib n).issue.run = .placed then .notPlaced else (s.nib n).issue.run } } := by
  have hbells (t : State) : (if s.binding.heldBells.length = 0 then t else t.bump 0x80E7 0 s.binding.heldBells.length).nib n = t.nib n := by
    split <;> rfl
  have hbinding (t : State) (b : Binding) : { t with binding := b }.nib n = t.nib n := rfl
  rw [enterOff]
  rw [nib_mapNibs _ _ _ rfl, hbinding, setBinding_same _ (fun t => t.nib n) (fun _ _ _ _ _ => rfl), hbells]

theorem obj_enterOff_low (s : State) (failed : Bool) {i u : Nat} (hlow : objKey i u < 0x701000) : (s.enterOff failed).obj i u = s.obj i u := by
  have hbells (t : State) : (if s.binding.heldBells.length = 0 then t else t.bump 0x80E7 0 s.binding.heldBells.length).obj i u = t.obj i u := by
    split
    · rfl
    · exact obj_bump_low hlow t (by decide)
  exact (setBinding_same _ (fun t => t.obj i u) (fun _ _ _ _ _ => rfl) _).trans (hbells s)

/-- What the nibs and the desk memory's records are when CLOSING begins is left by the rest of it. -/
theorem closeBinding_same {β : Type} (g : State → β) (hg : ∀ (s : State) ns b a x f d qs,
    g { s with nibs := ns, binding := b, agent := a, txl := x, fresh := f, desk := d, quills := qs } = g s) (s : State) :
    g s.closeBinding = g s :=
  (hg (s.setBinding _) _ _ (s.setBinding _).agent (s.setBinding _).txl (s.setBinding _).fresh _ _).trans
    (setBinding_same _ g (fun t b a x f => hg t t.nibs b a x f t.desk t.quills) _)

theorem closeBinding_closes (s : State) : s.closeBinding.binding.fn.code = .closing ∧ s.closeBinding.binding.drainAt =
    some (s.now + s.obj 0x4625 0 * 1000) ∧ s.closeBinding.desk.preempt.status = 1 ∧ s.closeBinding.desk.mem = s.desk.mem ∧
    ∀ n, (s.closeBinding.nib n).issue.run ≠ .running := by
  have hmem : (s.setBinding { code := .closing, pending := false, failed := s.binding.fn.failed }).desk = s.desk :=
    setBinding_same _ State.desk (fun _ _ _ _ _ => rfl) _
  have hnow : (s.setBinding { code := .closing, pending := false, failed := s.binding.fn.failed }).now = s.now :=
    setBinding_same _ State.now (fun _ _ _ _ _ => rfl) _
  have hobj : (s.setBinding { code := .closing, pending := false, failed := s.binding.fn.failed }).obj 0x4625 0 = s.obj 0x4625 0 :=
    setBinding_same _ (fun t => t.obj 0x4625 0) (fun _ _ _ _ _ => rfl) _
  refine ⟨?_, ?_, rfl, ?_, fun n => ?_⟩
  · exact congrArg (fun b => b.fn.code) (s.setBinding_binding { code := .closing, pending := false, failed := s.binding.fn.failed })
  · exact congr (congrArg (fun a b => some (a + b * 1000)) hnow) hobj
  · have hrest (t : State) (b : Binding) (es : SMap (Option FaultEntry)) (p : Preempt) :
        ((({ t with binding := b, desk := { t.desk with entries := es, preempt := p } } : State).mapNibs stopNib).vacate.stopMirror).desk.mem =
          t.desk.mem := rfl
    exact (hrest _ _ _ _).trans (congrArg Desk.mem hmem)
  · have hrun (t : State) : ((t.mapNibs stopNib).vacate.stopMirror.nib n).issue.run ≠ .running := by
      have hvacate (v : State) : v.vacate.nib n = v.nib n := rfl
      rw [nib_stopMirror, hvacate, nib_mapNibs _ _ _ rfl]
      dsimp only
      rw [stopNib]
      split
      · exact RunState.noConfusion
      · assumption
    exact hrun _

section
variable (s : State)

/-- The nibs at ON, before any that resume take their records. -/
def started : State :=
  let s := (s.setObj 0x2B01 0 0).setBinding { code := .on }
  let s : State := { s with
    binding := { s.binding with openLine := none, halted := 0, firstHalt := 0 }
    recovery := { s.recovery with samples := [] } }
  s.mapGrid startNib

/-- The rest of ON, once every nib that resumes has its record. -/
def lineBegun (s : State) : State :=
  let begun : Bool := s.time.lineDone = s.line && !s.lifted s.line
  let s : State := { s with lines := { s.lines with counting := false } }
  State.ringBells 64 (if begun then s.countPlanLine else s)

theorem enterOn_eq : s.enterOn = lineBegun ((s.started.nibs.filter fun e => e.2.issue.resume && s.started.inGrid (e.1 / 64) (e.1 % 64)).foldl
    (fun s e => s.restoreNib e.1) s.started) := rfl

theorem ringBells_same {β : Type} (g : State → β) (hbells : ∀ (t : State) vs, g { t with binding := { t.binding with heldBells := vs } } = g t)
    (hqueue : ∀ (t : State) (n q v : Nat), g (t.updNib n fun x => x.enqueue q v) = g t) (fuel : Nat) : g (State.ringBells fuel s) = g s := by
  induction fuel generalizing s with
  | zero => rfl
  | succ fuel ih =>
    rw [ringBells]
    split
    · split
      · exact (ih _).trans ((hbells _ _).trans (hqueue ..))
      · rfl
    · rfl

theorem lineBegun_same {β : Type} (g : State → β) (hbells : ∀ (t : State) vs, g { t with binding := { t.binding with heldBells := vs } } = g t)
    (hqueue : ∀ (t : State) (n q v : Nat), g (t.updNib n fun x => x.enqueue q v) = g t) (hlines : ∀ (t : State) l, g { t with lines := l } = g t) :
    g s.lineBegun = g s := by
  have hcount (t : State) : g t.countPlanLine = g t := by
    rw [countPlanLine]
    split
    · exact hlines t _
    · split
      · exact hlines t _
      · rfl
  rw [lineBegun]
  dsimp only
  rw [ringBells_same _ g hbells hqueue]
  split
  · exact (hcount _).trans (hlines s _)
  · exact hlines s _

theorem binding_started : s.started.binding.fn = { code := .on } := by
  have hset (t : State) : (t.setBinding { code := .on }).binding.fn = { code := .on } := by rw [setBinding_binding]
  exact hset _

theorem obj_started : s.started.obj 0x2B01 0 = 0 := by
  have hset (t : State) : (t.setBinding { code := .on }).obj 0x2B01 0 = t.obj 0x2B01 0 :=
    setBinding_same _ (fun t => t.obj 0x2B01 0) (fun _ _ _ _ _ => rfl) _
  exact (hset _).trans (obj_setObj ..)

theorem nib_started (n : Nat) : s.started.nib n = if s.inGrid (n / 64) (n % 64) = true then startNib (s.nib n) else s.nib n := by
  have hset (t : State) : (t.setBinding { code := .on }).nib n = t.nib n := setBinding_same _ (fun t => t.nib n) (fun _ _ _ _ _ => rfl) _
  have hgrid (t : State) : (t.setBinding { code := .on }).inGrid (n / 64) (n % 64) = t.inGrid (n / 64) (n % 64) :=
    setBinding_same _ (fun t => t.inGrid (n / 64) (n % 64)) (fun _ _ _ _ _ => rfl) _
  have hnib (t : State) (b : Binding) (r : Recovery) : { t with binding := b, recovery := r }.nib n = t.nib n := rfl
  have hing (t : State) (b : Binding) (r : Recovery) : { t with binding := b, recovery := r }.inGrid (n / 64) (n % 64) = t.inGrid (n / 64) (n % 64) := rfl
  rw [started]
  dsimp only
  rw [nib_mapGrid _ _ _ startNib_fresh, hnib, hing, hset, hgrid]
  rfl

/-- Where no nib resumes, none takes a record. -/
theorem enterOn_fresh (hres : ∀ e ∈ s.nibs, e.2.issue.resume = false) : s.enterOn = s.started.lineBegun := by
  have hnibs (t : State) : (t.setBinding { code := .on }).nibs = t.nibs := setBinding_same _ nibs (fun _ _ _ _ _ => rfl) _
  have hstart (x : Nib) : (startNib x).issue.resume = x.issue.resume := by
    rw [startNib]
    split <;> rfl
  have hnone : s.started.nibs.filter (fun e => e.2.issue.resume && s.started.inGrid (e.1 / 64) (e.1 % 64)) = [] := by
    refine List.filter_eq_nil_iff.2 fun e he => ?_
    obtain ⟨a, ha, rfl⟩ := SMap.mem_mapVals he
    have hold : a.2.issue.resume = false := by
      refine hres a ?_
      rw [← show (s.setObj 0x2B01 0 0).nibs = s.nibs from rfl, ← hnibs]
      exact ha
    dsimp only
    split
    · rw [hstart, hold, Bool.false_and]
      exact Bool.false_ne_true
    · rw [hold, Bool.false_and]
      exact Bool.false_ne_true
  rw [enterOn_eq, hnone, List.foldl_nil]

theorem obj_enterOn : s.enterOn.obj 0x2B01 0 = 0 := by
  have hline (t : State) (i u : Nat) : t.lineBegun.obj i u = t.obj i u :=
    lineBegun_same t (fun v => v.obj i u) (fun _ _ => rfl) (fun _ _ _ _ => rfl) fun _ _ => rfl
  have hfold (l : List (Nat × Nib)) (t : State) : (l.foldl (fun (t : State) e => t.restoreNib e.1) t).obj 0x2B01 0 = t.obj 0x2B01 0 :=
    foldl_same (fun t => t.obj 0x2B01 0) (fun (t : State) (e : Nat × Nib) => t.restoreNib e.1) (fun t e => obj_restoreNib_low (by decide) t e.1) l t
  rw [enterOn_eq, hline, hfold]
  exact obj_started s

end

/-! ### The drain deadline -/

/-- What a packet is not of its message stays in the mesh. -/
theorem filter_keepPackets (n : Nat) (d : PacketDest) (k : Nat) (ps : List Packet) :
    (keepPackets n d k ps).filter (fun p => !messageFor n d p) = ps.filter fun p => !messageFor n d p := by
  induction ps generalizing k with
  | nil => rfl
  | cons p ps ih =>
    unfold keepPackets
    cases hm : messageFor n d p
    · rw [Bool.not_false, if_pos rfl, List.filter_cons_of_pos (by rw [hm, Bool.not_false]), List.filter_cons_of_pos (by rw [hm, Bool.not_false]), ih]
    · rw [Bool.not_true, if_neg Bool.false_ne_true, List.filter_cons_of_neg (l := ps) (by rw [hm, Bool.not_true]; exact Bool.false_ne_true)]
      cases k with
      | zero => exact ih 0
      | succ k => exact (List.filter_cons_of_neg (by rw [hm, Bool.not_true]; exact Bool.false_ne_true)).trans (ih k)

/-- The one operation of a nib, a send, stops at the boundary past the bytes that have begun to leave (R199). -/
theorem drainSend_one (s : State) {n b : Nat} {o : InFlight} {d : PacketDest} (hslots : (s.nib n).slots = [o]) (hdest : sendDest o.word = some d)
    (hsent : min o.total (1024 * (ceilDiv o.total 1024 - (s.ownPackets n o).length)) ≤ b) (htotal : b ≤ o.total)
    (hbegun : b ≤ 1024 * (ceilDiv o.total 1024 - (s.ownPackets n o).length + s.mayHaveBegun n o)) :
    ((s.drainSend n o b).nib n).slots =
      [{ o with stop := some (min o.total (4096 * ceilDiv b 4096)), left := o.total - min o.total (4096 * ceilDiv b 4096) }] ∧
    (s.drainSend n o b).mesh.filter (fun p => !messageFor n d p) = s.mesh.filter (fun p => !messageFor n d p) ∧
    (∀ k, k ≠ n → (s.drainSend n o b).nib k = s.nib k) ∧ (s.drainSend n o b).desk = s.desk := by
  have hb : max (min o.total (1024 * (ceilDiv o.total 1024 - (s.ownPackets n o).length)))
      (min (min o.total b) (1024 * (ceilDiv o.total 1024 - (s.ownPackets n o).length + s.mayHaveBegun n o))) = b := by omega
  rw [drainSend]
  rw [hb, stopSend, hdest]
  dsimp only
  refine ⟨?_, ?_, fun k hk => ?_, rfl⟩
  · have hnib (m : List Packet) : ({ s with mesh := m } : State).nib n = s.nib n := rfl
    rw [nib_updNib, nib_updNib, hnib]
    dsimp only
    rw [hslots, List.map_singleton, List.map_singleton, if_pos rfl, if_pos (by simp)]
  · exact filter_keepPackets ..
  · rw [nib_updNib_other _ _ hk, nib_updNib_other _ _ hk]
    rfl

/-! ### Pre-emption ends -/

theorem binding_finishStreams (s : State) : s.finishStreams.binding = s.binding := by
  have hfree (t : State) (n : Nat) (o : InFlight) : (t.freeSlot n o).binding = t.binding := freeSlot_same t n o State.binding fun _ _ _ => rfl
  have hupd (t : State) (n : Nat) (f : Nib → Nib) : (t.updNib n f).binding = t.binding := rfl
  have hdone (t : State) (n : Nat) (o : InFlight) : (t.emitDone n o).binding = t.binding := by
    rw [emitDone]
    split
    · exact hfree ..
    · split
      · rw [hupd, progress, hupd, hfree]
      · rfl
  refine foldl_same State.binding _ (fun t e => ?_) _ _
  rw [finishOp_eq, hdone, hupd]

theorem binding_writeRecords (s : State) : s.writeRecords.1.binding = s.binding := by
  have hpieces (base : Nat) (ps : List (Nat × List Byte)) (t : State) : (t.putPieces base ps).binding = t.binding :=
    foldl_same State.binding (fun (t : State) (p : Nat × List Byte) => t.deskPut (base + p.1) p.2) (fun _ _ => rfl) ps t
  have hfold (base : Nat) (ns : List Nat) (r : State × Bool) : (ns.foldl (fun (r : State × Bool) n =>
      (r.1.putPieces (base + 65536 * n) (nibRecord (s.nib n) (s.packetsFor n)).1, r.2 || (nibRecord (s.nib n) (s.packetsFor n)).2)) r).1.binding =
      r.1.binding := by
    induction ns generalizing r with
    | nil => rfl
    | cons n ns ih => rw [List.foldl_cons, ih, hpieces]
  rw [writeRecords]
  dsimp only
  split
  · rfl
  · exact hfold ..

/-- The module once the records `r` have been made, with the packets `m` left in the mesh: what the records took has left the nibs. -/
def recorded (r : State × Bool) (m : List Packet) : State :=
  let s := r.1.mapNibs takenNib
  { s with
    mesh := m
    desk := { s.desk with preempt := { s.desk.preempt with status := if r.2 then 3 else 2 } } }

section
variable (r : State × Bool) (m : List Packet)

theorem binding_recorded : (recorded r m).binding = r.1.binding := rfl

theorem desk_recorded : (recorded r m).desk.preempt.status = (if r.2 then 3 else 2) ∧ (recorded r m).desk.mem = r.1.desk.mem := ⟨rfl, rfl⟩

theorem nib_recorded (n : Nat) : (recorded r m).nib n = takenNib (r.1.nib n) := by
  have h (t : State) (d : Desk) : ({ t with mesh := m, desk := d } : State).nib n = t.nib n := rfl
  exact (h _ _).trans (nib_mapNibs _ _ _ rfl)

end

/-- CLOSING that ends with no enable pending leaves the binding OFF and the nibs as the records took them. -/
theorem endPreemption_off {s : State} (hstatus : s.desk.preempt.status = 1) (hdrained : s.desk.preempt.drained = true)
    (hrest : s.draining = false) (hreset : s.resetComing = false) (hpend : s.binding.fn.pending = false) : ∃ m,
    s.endPreemption = (recorded s.finishStreams.writeRecords m).enterOff s.binding.fn.failed := by
  have hfn : s.finishStreams.writeRecords.1.binding.fn = s.binding.fn := by rw [binding_writeRecords, binding_finishStreams]
  have hgo : (decide (s.desk.preempt.status ≠ 1) || !s.desk.preempt.drained || s.draining || s.resetComing) = false := by
    rw [hstatus, hdrained, hrest, hreset]
    rfl
  have hend (r : State × Bool) (m : List Packet) (hr : r.1.binding.fn = s.binding.fn) :
      (recorded r m).endClosing = (recorded r m).enterOff s.binding.fn.failed := by
    rw [endClosing, binding_recorded, hr, hpend, if_neg Bool.false_ne_true]
  rw [endPreemption, hgo, if_neg Bool.false_ne_true]
  exact ⟨_, hend _ _ hfn⟩

end State

/-- Settles O45: each row by what it does where its time has come, `endOpening`, `closeBinding_closes`, `drainSend_one` and `endPreemption_off`. -/
theorem bindingOpensAndCloses : Obligations.BindingOpensAndCloses := by
  refine fun s => ⟨fun l hcode hline => ⟨fun hlt => ?_, fun hle => ?_⟩, fun t0 hat hon => ⟨fun hlt => ?_, fun hle => ?_⟩,
    fun t0 hst hnd hdue => ⟨fun hlt => ?_, fun hle hlive => ?_, fun hle n b sent o d hslots hlive hdest hsent hmin htot hbeg => ?_⟩,
    fun hst hdr hrest hpend => ⟨fun hreset => ?_, fun hreset => ?_⟩⟩
  · rw [exec_openingEnd, execOpeningEnd, State.endOpening, if_pos (by simp [hline, hlt])]
  · have hopen : exec .openingEnd s = .next (if s.openingCode ≠ 0 then ((s.setObj 0x2B01 0 s.openingCode).enterOff true).event 0x09 0x2A10 s.openingCode
        else if s.binding.fn.pending then (s.setObj 0x2B01 0 0).closeBinding else s.enterOn) := by
      rw [exec_openingEnd, execOpeningEnd, State.endOpening, if_neg (by simp [hline, hle, hcode])]
    refine ⟨_, hopen, ?_, fun hc => ?_, fun hc hp => ?_, fun hc hp hres => ?_⟩
    · split
      · rw [State.event_obj, State.obj_enterOff_low _ _ (by decide), State.obj_setObj]
      · rename_i hc
        rw [Classical.not_not.1 hc]
        split
        · exact (State.closeBinding_same (fun t => t.obj 0x2B01 0) (fun _ _ _ _ _ _ _ _ => rfl) _).trans (State.obj_setObj ..)
        · exact s.obj_enterOn
    · rw [if_pos hc]
      refine ⟨?_, fun n => ?_⟩
      · rw [State.event_binding, State.binding_enterOff]
      · rw [State.event_nib, State.nib_enterOff]
    · rw [if_neg (not_not_intro hc), hp, if_pos rfl]
      obtain ⟨h1, -, h2, -⟩ := (s.setObj 0x2B01 0 0).closeBinding_closes
      exact ⟨h1, h2⟩
    · rw [if_neg (not_not_intro hc), hp, if_neg Bool.false_ne_true, s.enterOn_fresh hres]
      have hrun (n : Nat) : (s.started.lineBegun.nib n).issue.run = (s.started.nib n).issue.run :=
        State.lineBegun_same _ (fun t => (t.nib n).issue.run) (fun _ _ => rfl)
          (fun t m q v => State.nib_updNib_same t (fun x => x.issue.run) rfl n) fun _ _ => rfl
      refine ⟨?_, fun n => ⟨fun hg hp => ?_, fun hg => ?_⟩⟩
      · rw [State.lineBegun_same _ (fun t => t.binding.fn) (fun _ _ => rfl) (fun _ _ _ _ => rfl) fun _ _ => rfl, s.binding_started]
      · rw [hrun, s.nib_started, hg, if_pos rfl, startNib, if_pos (by rw [hp]; rfl)]
      · rw [hrun, s.nib_started, hg, if_neg Bool.false_ne_true]
  · rw [exec_holdInNDrain, execHoldInNDrain, State.drainHold, if_neg (by rw [hat]; simp; omega)]
  · rw [exec_holdInNDrain, execHoldInNDrain, State.drainHold, if_pos (by rw [hat]; simp; omega), State.disableBinding]
    dsimp only
    rw [hon]
    obtain ⟨h1, h2, h3, h4, h5⟩ := ({ s with pins := { s.pins with holdAt := none } } : State).closeBinding_closes
    refine ⟨_, rfl, h1, ?_, h2, h3, h4, h5⟩
    exact congrArg Pins.holdAt (State.closeBinding_same State.pins (fun _ _ _ _ _ _ _ _ => rfl) _)
  · rw [exec_drainDeadline, execDrainDeadline, State.reachDeadline, if_pos (by simp [hdue, hlt])]
  · rw [exec_drainDeadline, execDrainDeadline, State.reachDeadline, if_neg (by simp [hdue, hle, hst, hnd])]
    exact congrArg Host.Outcome.next (congrArg (List.foldl _ _) hlive)
  · have hreach : exec (.drainDeadline [(n, b)]) s =
        .next (({ s with desk := { s.desk with preempt := { s.desk.preempt with drained := true } } } : State).drainSend n o b) := by
      rw [exec_drainDeadline, execDrainDeadline, State.reachDeadline, if_neg (by simp [hdue, hle, hst, hnd])]
      have hfold (t : State) (ht : t.liveSends = s.liveSends) : t.liveSends.foldl (fun s x =>
          s.drainSend x.1 x.2 ((([(n, b)].find? fun b => b.1.val = x.1).map Prod.snd).getD 0)) t = t.drainSend n o b := by
        rw [ht, hlive, List.foldl_cons, List.foldl_nil, List.find?_cons_of_pos (by simp)]
        rfl
      exact congrArg Host.Outcome.next (hfold _ rfl)
    obtain ⟨h1, h2, h3, h4⟩ := ({ s with desk := { s.desk with preempt := { s.desk.preempt with drained := true } } } : State).drainSend_one
      hslots hdest (hsent ▸ hmin) htot (hsent ▸ hbeg)
    refine ⟨_, _, hreach, ?_, rfl, h1, h2, h3⟩
    rw [h4]
  · rw [exec_preemptionComplete, execPreemptionComplete, State.endPreemption, if_pos (by simp [hreset])]
  · obtain ⟨m, hend⟩ := State.endPreemption_off hst hdr hrest hreset hpend
    have hdesk (t : State) (f : Bool) : (t.enterOff f).desk = t.desk := t.enterOff_same State.desk (fun _ _ _ _ _ _ _ => rfl) f
    obtain ⟨hstatus, hmem⟩ := State.desk_recorded s.finishStreams.writeRecords m
    refine ⟨_, congrArg Host.Outcome.next hend, ?_, ?_, ?_, fun n => ?_⟩
    · rw [State.binding_enterOff]
    · rw [hdesk, hstatus]
    · rw [hdesk, hmem]
    · rw [State.nib_enterOff, State.nib_recorded]
      exact ⟨rfl, rfl, rfl⟩

end Sys2Proof.Machine
end

section
/-! Proof of the statements on the Ledger agent: its requests and its timers (12 R360-R367, R379). -/

namespace Sys2Proof.Machine
namespace State

/-! ### What responses leave alone -/

/-- A response leaves whatever reads neither what the agent has sent nor the TXL link. -/
theorem lapRespond_same {β : Type} (g : State → β) (hsent : ∀ (s : State) l, g { s with agent := { s.agent with sent := l } } = g s)
    (htxl : ∀ (s : State) x, g { s with txl := x } = g s) (s : State) (src : Source) (m : List Byte) : g (s.lapRespond src m) = g s := by
  have hplace (t : State) : g t.placeRsp = g t := by
    rw [placeRsp]
    split
    · exact htxl t _
    · rfl
  cases src with
  | udp a p => exact hsent s _
  | mailbox => exact (hplace _).trans (htxl s _)

/-- An EVENT message leaves whatever reads neither what the agent has sent nor the TXL link. -/
theorem lapEvent_same {β : Type} (g : State → β) (hsent : ∀ (s : State) l, g { s with agent := { s.agent with sent := l } } = g s)
    (htxl : ∀ (s : State) x, g { s with txl := x } = g s) (s : State) (x : Session) (rs : List EventRec) (k : Nat) : g (s.lapEvent x rs k) = g s := by
  have hplace (t : State) : g t.placeEvt = g t := by
    rw [placeEvt]
    split
    · exact htxl t _
    · rfl
  rw [lapEvent]
  dsimp only
  split
  · exact hsent s _
  · exact (hplace _).trans (htxl s _)

section
variable {s : State} {w : LapMsg} {ws : List LapMsg} (hw : s.agent.waiting = w :: ws)
include hw

theorem lapHead_cons {type : Nat} (ht : lapType w.bytes = type) : s.lapHead type = some w := by
  rw [lapHead, hw, List.head?_cons, Option.filter_some, if_pos (decide_eq_true ht)]

end

theorem sendEvents_same {β : Type} (g : State → β) (hg : ∀ (s : State) l f, g { s with agent := { s.agent with sent := l }, fresh := f } = g s)
    (htxl : ∀ (s : State) x, g { s with txl := x } = g s) (s : State) (x : Session) (n : Nat) (rs : List EventRec) :
    g (s.sendEvents x n rs) = g s := by
  induction n generalizing s rs with
  | zero => rfl
  | succ n ih =>
    cases rs with
    | nil => rfl
    | cons r rs =>
      unfold sendEvents
      rw [ih, lapEvent_same g (fun t l => hg t l t.fresh) htxl]
      exact hg s s.agent.sent _

/-! ### A message that names a session -/

section
variable {s : State} {w : LapMsg} (k : State → Session → State)

theorem inSession_refused (h : s.session (lapSession w.bytes) = none ∨ ∃ x, s.session (lapSession w.bytes) = some x ∧ x.source ≠ w.source) :
    s.inSession w k = s.lapPop.handled.lapRefuse w.source w.bytes .noSession := by
  have hpop : s.lapPop.session (lapSession w.bytes) = s.session (lapSession w.bytes) := rfl
  rw [inSession]
  dsimp only
  rw [hpop]
  rcases h with h | ⟨x, h, hx⟩
  · rw [h]
    rfl
  · rw [h, Option.filter_some, if_neg (by simp [hx])]

section
variable {x : Session} (hx : s.session (lapSession w.bytes) = some x) (hsrc : x.source = w.source)
include hx hsrc

theorem inSession_again {p : Nat × List Byte} (hkept : x.kept.find? (fun p => p.1 = lapSeq w.bytes) = some p) : s.inSession w k =
    ((s.lapPop.updSession (lapSession w.bytes) fun x => x.touch (lapSession w.bytes) s.now).lapRespond w.source p.2).bump 0x8093 0 1 := by
  have hpop : s.lapPop.session (lapSession w.bytes) = s.session (lapSession w.bytes) := rfl
  rw [inSession]
  dsimp only
  rw [hpop, hx, Option.filter_some, if_pos (decide_eq_true hsrc)]
  dsimp only
  rw [hkept]
  rfl

theorem inSession_new (hkept : x.kept.find? (fun p => p.1 = lapSeq w.bytes) = none) (hseq : ∀ h, x.highSeq = some h → h ≤ lapSeq w.bytes) :
    s.inSession w k = k (s.lapPop.updSession (lapSession w.bytes) fun x => x.touch (lapSession w.bytes) s.now).handled { x with lastUse := s.now } := by
  have hpop : s.lapPop.session (lapSession w.bytes) = s.session (lapSession w.bytes) := rfl
  have hnew : (x.highSeq.any fun h => lapSeq w.bytes < h) = false := by
    cases hh : x.highSeq with
    | none => rfl
    | some h => exact decide_eq_false (Nat.not_lt.2 (hseq h hh))
  rw [inSession]
  dsimp only
  rw [hpop, hx, Option.filter_some, if_pos (decide_eq_true hsrc)]
  dsimp only
  rw [hkept]
  dsimp only
  rw [hnew, if_neg Bool.false_ne_true]
  rfl

end
end

/-- The identifier by which a session is found is its own. -/
theorem id_of_session {s : State} {id : Nat} {x : Session} (h : s.session id = some x) : x.id = id :=
  of_decide_eq_true (p := x.id = id) (List.find?_some (p := fun x : Session => x.id = id) h)

/-! ### OPEN and NONCE -/

theorem credentialOk_popped (s : State) (src : Source) (p : List Byte) : s.lapPop.handled.credentialOk src p = s.credentialOk src p := by
  have hobj : s.lapPop.handled.obj 0x1001 8 = s.obj 0x1001 8 := obj_bump_index s.lapPop (by decide) (by decide) (by decide) 1
  have hnonce : s.lapPop.handled.nonceOf src p = s.nonceOf src p := rfl
  have hblob (i : Nat) : s.lapPop.handled.blob 0x1001 i 32 = s.blob 0x1001 i 32 := rfl
  rw [credentialOk, hobj, hnonce, hblob]
  rfl

section
variable {s : State} {w : LapMsg} (hroom : s.agent.sessions.length < 8)
include hroom

theorem lapOpen_auth (hlevel : natLE ((lapPayload w.bytes).take 1) = 1) (hcred : s.credentialOk w.source (lapPayload w.bytes) = false) :
    s.lapOpen w = (if natLE (slice (lapPayload w.bytes) 1 1) ≠ 0xFF then s.lapPop.handled.spendNonce w.source (lapPayload w.bytes)
      else s.lapPop.handled).lapRefuse w.source w.bytes .auth := by
  have hroom' : ¬8 ≤ s.lapPop.handled.agent.sessions.length := Nat.not_le.2 hroom
  rw [lapOpen]
  dsimp only
  rw [if_neg hroom', credentialOk_popped, hcred, hlevel, if_pos (by decide)]
  simp only [decide_true, Bool.true_and, decide_eq_true_eq]

theorem lapOpen_standard (hlevel : natLE ((lapPayload w.bytes).take 1) = 0) : s.lapOpen w =
    (s.lapPop.handled.openSession w.source false (natLE (slice (lapPayload w.bytes) 4 4))).1.lapRespond w.source
      ((s.lapPop.handled.openSession w.source false (natLE (slice (lapPayload w.bytes) 4 4))).1.lapAnswer w.bytes 0
        (s.lapPop.handled.openSession w.source false (natLE (slice (lapPayload w.bytes) 4 4))).2 0 []) := by
  have hroom' : ¬8 ≤ s.lapPop.handled.agent.sessions.length := Nat.not_le.2 hroom
  rw [lapOpen]
  dsimp only
  rw [if_neg hroom', hlevel]
  rfl

end

/-! ### Events not acknowledged -/

section
variable {s : State} {x : Session} {e : PendingEvent} (hs : s.agent.sessions = [x]) (he : x.events = [e])
include hs

theorem exec_eventRepeat_one : exec .eventRepeat s = .next (s.repeatEvents x) := by
  rw [exec_eventRepeat, execEventRepeat, hs]
  rfl

theorem sessions_updSession_one (f : Session → Session) : (s.updSession x.id f).agent.sessions = [f x] := by
  rw [updSession, mapSessions]
  dsimp only
  rw [hs, List.map_singleton, if_pos rfl]

include he

omit hs in
/-- The one event of the one session, before its time, with a repeat due, and with none left. -/
theorem repeatEvents_one : s.repeatEvents x = if s.now < e.last + 1000000 then s.updSession x.id fun x => { x with events := [e] }
    else if e.repeats < 8 then (s.updSession x.id fun x => { x with events := [{ e with repeats := e.repeats + 1, last := s.now }] }).sendEvents x 1 [e.record]
    else (s.updSession x.id fun x => { x with events := [] }).bump 0x8094 0 1 := by
  rw [repeatEvents, he]
  by_cases hlt : s.now < e.last + 1000000
  · have hdue : e.due s.now = false := decide_eq_false (by omega)
    simp [hdue, hlt, sendEvents]
  · have hdue : e.due s.now = true := decide_eq_true (by omega)
    by_cases hr : e.repeats < 8
    · simp [hdue, hlt, hr, Nat.not_le.2 hr]
    · simp [hdue, hlt, hr, Nat.not_lt.1 hr, sendEvents]

end

end State

/-- Settles O47: the head of the queue by `inSession_refused`, `inSession_again` and `inSession_new`, and the types that name no session. -/
theorem lapRequests : Obligations.LapRequests := by
  intro s u w ws id hw hid hu
  have hhead {type : Nat} (ht : lapType w.bytes = type) : s.lapHead type = some w := State.lapHead_cons hw ht
  have hclose (h : lapType w.bytes = 2) : exec .lapClose s = .next (s.inSession w fun s x =>
      (s.lapRespond w.source (s.lapAnswer w.bytes 0 x.id 0 [])).closeSession x.id) := by
    rw [exec_lapClose, execLapClose, hhead h]
  have hkeep (h : lapType w.bytes = 5) : exec .lapKeepalive s = .next (s.inSession w fun s _ => s.sessionAnswer w 0 0 []) := by
    rw [exec_lapKeepalive, execLapKeepalive, hhead h]
  have hack (h : lapType w.bytes = 0x11) : exec .lapEventAck s = .next (s.inSession w fun s x => (s.updSession x.id fun x => { x with
      events := x.events.filter fun e => natLE (lapPayload w.bytes) < e.record.eseq }).sessionAnswer w 0 0 []) := by
    rw [exec_lapEventAck, execLapEventAck, hhead h]
    rfl
  have hwrite (h : lapType w.bytes = 4) : exec .lapWrite s = .next (s.inSession w fun s x => (s.writeAll x.id
      ((writeItems (lapCount w.bytes) (lapPayload w.bytes)).getD [])).1.sessionAnswer w
        (s.writeAll x.id ((writeItems (lapCount w.bytes) (lapPayload w.bytes)).getD [])).2.2.code
        ((writeItems (lapCount w.bytes) (lapPayload w.bytes)).getD []).length
        (s.writeAll x.id ((writeItems (lapCount w.bytes) (lapPayload w.bytes)).getD [])).2.1) := by
    rw [exec_lapWrite, execLapWrite, hhead h]
    rfl
  have hread (h : lapType w.bytes = 3) : exec .lapRead s = .next (s.lapRead w) := by
    rw [exec_lapRead, execLapRead, hhead h]
  have hopen (h : lapType w.bytes = 1) : exec .lapOpen s = .next (s.lapOpen w) := by
    rw [exec_lapOpen, execLapOpen, hhead h]
  subst hid
  refine ⟨fun hno => ?_, fun x hx hsrc => ⟨fun seq r hkept h5 => ?_, fun hkept hseq => ?_⟩, fun items h3 h0 hitems => ?_,
    fun h1 hlevel hroom hcred => ⟨fun hslot => ?_, fun hslot => ?_⟩, fun h1 hlevel => ⟨fun hfull => ?_, fun hroom => ?_⟩, fun h6 => ?_⟩
  · have h (k) : s.inSession w k = s.lapPop.handled.lapRefuse w.source w.bytes .noSession := State.inSession_refused k hno
    exact ⟨fun h2 => (hclose h2).trans (congrArg _ (h _)), fun h4 => (hwrite h4).trans (congrArg _ (h _)),
      fun h5 => (hkeep h5).trans (congrArg _ (h _)), fun h11 => (hack h11).trans (congrArg _ (h _))⟩
  · exact (hkeep h5).trans (congrArg _ (State.inSession_again _ hx hsrc hkept))
  · have h (k : State → Session → State) : s.inSession w k = k u { x with lastUse := s.now } :=
      hu ▸ State.inSession_new k hx hsrc hkept hseq
    have hxid : x.id = lapSession w.bytes := State.id_of_session hx
    refine ⟨fun h2 => ?_, fun h5 => (hkeep h5).trans (congrArg _ (h _)), fun h11 => ?_, fun items h4 hitems => ?_, fun items h3 h0 hitems => ?_⟩
    · rw [hclose h2, h, hxid]
    · rw [hack h11, h, hxid]
    · rw [hwrite h4, hitems, Option.getD_some, h, hxid]
    · rw [hread h3, State.lapRead, if_neg h0, h, hitems]
  · rw [hread h3, State.lapRead, if_pos h0, hitems]
  · rw [hopen h1, State.lapOpen_auth hroom hlevel hcred, if_neg (not_not_intro hslot)]
  · rw [hopen h1, State.lapOpen_auth hroom hlevel hcred, if_pos hslot]
  · rw [hopen h1, State.lapOpen]
    exact congrArg _ (if_pos hfull)
  · rw [hopen h1, State.lapOpen_standard hroom hlevel]
    refine ⟨_, ⟨s.lapPop.handled.freeId 9 s.agent.nextId, false, w.source, natLE (slice (lapPayload w.bytes) 4 4), s.now, none, [], none, [], []⟩,
      rfl, ?_, ?_, ?_, rfl, rfl, rfl, rfl, rfl, rfl, rfl⟩
    · rw [State.lapRespond_same (fun t => t.agent.waiting) (fun _ _ => rfl) fun _ _ => rfl]
      exact congrArg (List.drop 1) hw
    · rw [State.lapRespond_same (fun t => t.agent.nonces) (fun _ _ => rfl) fun _ _ => rfl]
      rfl
    · rw [State.lapRespond_same (fun t => t.agent.sessions) (fun _ _ => rfl) fun _ _ => rfl]
      rfl
  · have hnonce : exec .lapNonce s = .next (s.lapNonce w) := by rw [exec_lapNonce, execLapNonce, hhead h6]
    refine ⟨_, bytesLE 32 s.free, hnonce, ?_, ?_, ?_, length_bytesLE .., ?_⟩
    · rw [State.lapNonce, State.lapRespond_same (fun t => t.agent.waiting) (fun _ _ => rfl) fun _ _ => rfl]
      exact congrArg (List.drop 1) hw
    · rw [State.lapNonce, State.lapRespond_same (fun t => t.agent.sessions) (fun _ _ => rfl) fun _ _ => rfl]
      rfl
    · rw [State.lapNonce, State.lapRespond_same (fun t => t.agent.nonces) (fun _ _ => rfl) fun _ _ => rfl]
      rfl
    · rw [State.lapNonce, State.lapRespond_same (fun t => t.obj 0x8091 0) (fun _ _ => rfl) fun _ _ => rfl]
      exact State.obj_setObj ..

/-- Settles O48: each timer before and after its limit. -/
theorem ledgerTimers : Obligations.LedgerTimers := by
  refine ⟨fun s x e hs he => ⟨fun hlt => ?_, fun hle hr => ?_, fun hle hr => ?_⟩, fun sess s x hx => ⟨fun hlt => ?_, fun hle => ?_, ?_⟩, fun _ => rfl⟩
  · refine ⟨_, State.exec_eventRepeat_one hs, ?_, ?_⟩
    · rw [State.repeatEvents_one he, if_pos hlt, State.sessions_updSession_one hs, ← he]
    · rw [State.repeatEvents_one he, if_pos hlt]
      rfl
  · refine ⟨_, State.exec_eventRepeat_one hs, ?_, ?_⟩
    · rw [State.repeatEvents_one he, if_neg (Nat.not_lt.2 hle), if_pos hr,
        State.sendEvents_same (fun t => t.obj 0x8094 0) (fun _ _ _ => rfl) fun _ _ => rfl]
      rfl
    · rw [State.repeatEvents_one he, if_neg (Nat.not_lt.2 hle), if_pos hr,
        State.sendEvents_same (fun t => t.agent.sessions) (fun _ _ _ => rfl) fun _ _ => rfl, State.sessions_updSession_one hs]
  · refine ⟨_, State.exec_eventRepeat_one hs, ?_, ?_⟩
    · rw [State.repeatEvents_one he, if_neg (Nat.not_lt.2 hle), if_neg (Nat.not_lt.2 hr)]
      exact State.sessions_updSession_one hs _
    · rw [State.repeatEvents_one he, if_neg (Nat.not_lt.2 hle), if_neg (Nat.not_lt.2 hr)]
      exact State.obj_setObj ..
  · rw [exec_sessionIdleTimeout, execSessionIdleTimeout, State.idleTimeout, hx]
    exact congrArg _ (if_neg (Nat.not_le.2 hlt))
  · rw [exec_sessionIdleTimeout, execSessionIdleTimeout, State.idleTimeout, hx]
    dsimp only
    rw [if_pos hle]
    refine ⟨_, rfl, ?_⟩
    rw [State.closeSession]
    dsimp only
    split <;> rfl
  · exact ⟨_, rfl, rfl⟩

end Sys2Proof.Machine
end

section
/-! Proof of the statement on blots and the abort (13 R383-R392; 16 R450, R451). -/

namespace Sys2Proof.Machine

/-- Of failures there is a first. -/
theorem firstFailure_cons (f : Failure) (fs : List Failure) : ∃ g, firstFailure (f :: fs) = some g := by
  unfold firstFailure
  split
  · exact ⟨_, rfl⟩
  · split
    · exact ⟨_, rfl⟩
    · exact ⟨_, rfl⟩

namespace State

/-! ### A side-band input that raises an event -/

/-- The module once input `p` is asserted with an event. -/
def asserted (s : State) (p : Nat) : State :=
  (s.setPin p { s.pin p with level := true, since := s.now, armed := false }).bump 0x80F2 (p + 1) 1

theorem assertPin_event {s : State} {p : Nat} (ha : (s.pin p).armed = true) (hs : (s.pin p).stuck = false) :
    s.assertPin p = (s.asserted p, true) := by
  have hev : ((s.pin p).armed && !(s.pin p).stuck) = true := by
    rw [ha, hs]
    rfl
  rw [assertPin]
  rw [hev]
  rfl

section
variable (s : State) (p : Nat)

theorem asserted_same {β : Type} (g : State → β) (hg : ∀ (t : State) ps os, g { t with pins := ps, objs := os } = g t) :
    g (s.asserted p) = g s := (hg _ (s.setPin p _).pins _).trans (hg s _ s.objs)

theorem pin_asserted : (s.asserted p).pin p = { s.pin p with level := true, since := s.now, armed := false } :=
  SMap.get_set_same ({} : Pin) s.pins.inputs p { s.pin p with level := true, since := s.now, armed := false }

theorem obj_asserted {i u : Nat} (h : objKey i u ≠ objKey 0x80F2 (p + 1)) : (s.asserted p).obj i u = s.obj i u :=
  obj_setObj_other _ _ _ _ _ _ h

end

theorem exec_blotInN_event {s : State} (ha : (s.pin 0).armed = true) (hs : (s.pin 0).stuck = false) : exec .blotInN s =
    .next (if s.binding.fn.code = .on then (s.asserted 0).blot 8 else (s.asserted 0).bump 0x80A6 0 1) := by
  rw [exec_blotInN, execBlotInN, blotIn, assertPin_event ha hs]
  rfl

/-! ### Progress checks -/

/-- A unit that failed blots a job that may be blotted. -/
theorem failProgress_blots {s : State} {f : Failure} {fs : List Failure} (hmay : s.mayBlot = true) :
    (s.failProgress (f :: fs)).recovery.abort = some ⟨s.now, 7, s.chip, (s.recovery.bseq + 1) % 256⟩ ∧
    (s.failProgress (f :: fs)).recovery.lastBoundary = s.recovery.lastBoundary ∧ (s.failProgress (f :: fs)).binding.fn.code = .closing := by
  obtain ⟨x, hx⟩ := firstFailure_cons f fs
  have hfirst (c : Prop) [Decidable c] (v : Nat) {β : Type} (g : State → β) (hg : ∀ (t : State) os, g { t with objs := os } = g t) :
      g (if c then s.setObj 0x80A4 0 v else s) = g s := by
    split
    · exact hg s _
    · rfl
  have hcount (t : State) {β : Type} (g : State → β) (hg : ∀ (t : State) os, g { t with objs := os } = g t) :
      g ((f :: fs).foldl (fun s f => s.bump 0x7030 f.quire 1) t) = g t := foldl_same g _ (fun t _ => hg t _) _ _
  have hchip (t : State) : ((f :: fs).foldl (fun s f => s.bump 0x7030 f.quire 1) t).chip = t.chip :=
    foldl_same chip _ (fun t x => obj_bump_low (i := 0x2A00) (u := 0) (by decide) t (by decide)) _ _
  have hchip' (c : Prop) [Decidable c] (v : Nat) : (if c then s.setObj 0x80A4 0 v else s).chip = s.chip := by
    split
    · exact obj_setObj_low (i := 0x2A00) (u := 0) (by decide) s (by decide)
    · rfl
  rw [failProgress, hx]
  dsimp only
  generalize hu : ((f :: fs).foldl (fun s f => s.bump 0x7030 f.quire 1) (if s.obj 0x80A4 0 = 0 then s.setObj 0x80A4 0 x.bits else s)) = u
  have hrec : u.recovery = s.recovery := by rw [← hu, hcount _ recovery fun _ _ => rfl, hfirst _ _ recovery fun _ _ => rfl]
  have hmay' : u.mayBlot = true := by rw [← hu, hcount _ mayBlot fun _ _ => rfl, hfirst _ _ mayBlot fun _ _ => rfl, hmay]
  have hnow : u.now = s.now := by rw [← hu, hcount _ now fun _ _ => rfl, hfirst _ _ now fun _ _ => rfl]
  have hchips : u.chip = s.chip := by rw [← hu, hchip, hchip']
  have hmay'' : (u.event 0x0B x.quire x.bits).mayBlot = true := by
    exact (eventIf_same u mayBlot (fun _ _ _ _ => rfl) true ..).trans hmay'
  obtain ⟨a, bs, ks, hr⟩ := blot_recovery hmay'' 7
  refine ⟨?_, ?_, blot_code hmay'' 7⟩
  · rw [blot_abort hmay'' 7, event_now, hnow, chip, event_obj, event_recovery, hrec, ← hchips, chip]
  · rw [hr, event_recovery, hrec]

/-- So it does once the boundary and the samples of the check are kept. -/
theorem failProgress_sampled {s : State} {f : Failure} {fs : List Failure} (hmay : s.mayBlot = true) (b : Nat) (m : SMap (Option Nat)) {t : State}
    (ht : t = ({ s with recovery := { s.recovery with lastBoundary := b, samples := m } } : State).failProgress (f :: fs)) :
    t.recovery.abort = some ⟨s.now, 7, s.chip, (s.recovery.bseq + 1) % 256⟩ ∧ t.recovery.lastBoundary = b ∧ t.binding.fn.code = .closing :=
  ht ▸ failProgress_blots (s := { s with recovery := { s.recovery with lastBoundary := b, samples := m } }) hmay

/-! ### The end of an abort -/

section
variable (s : State) (tr re ti : Nat)

theorem beginRecord_same {β : Type} (g : State → β) (hg : ∀ (t : State) d f r, g { t with desk := d, fresh := f, recovery :=
    { t.recovery with record := r } } = g t) : g (s.beginRecord tr re ti) = g s := by
  have hput (t : State) (a : Nat) (bs : List Byte) : g (t.deskPut a bs) = g t := hg t _ t.fresh t.recovery.record
  have hpieces (base : Nat) (ps : List (Nat × List Byte)) (t : State) : g (t.putPieces base ps) = g t :=
    foldl_same g (fun (t : State) (p : Nat × List Byte) => t.deskPut (base + p.1) p.2) (fun t _ => hput t ..) ps t
  have hrecord (t : State) (j : BlotterJob) : g { t with recovery := { t.recovery with record := some j } } = g t := hg t t.desk t.fresh _
  have hzero (t : State) (a n : Nat) : g (t.zeroDesk a n) = g t := hg t _ t.fresh t.recovery.record
  rw [beginRecord]
  split
  · rfl
  · exact (hrecord ..).trans ((hpieces ..).trans ((hput ..).trans ((hzero ..).trans (hg s s.desk _ s.recovery.record))))

theorem record_beginRecord (h : s.blotWritable s.blotBase = true) : ∃ j, (s.beginRecord tr re ti).recovery.record = some j ∧
    j.trigger = tr ∧ j.reason = re ∧ j.time = ti := by
  rw [beginRecord, h]
  exact ⟨_, rfl, rfl, rfl, rfl⟩

end

/-- What the ladder wants leaves whatever does not read the recovery's wants. -/
theorem wantLadder_same {β : Type} (g : State → β) (hg : ∀ (t : State) w u, g { t with recovery := { t.recovery with wanted := w, storeUe := u } } = g t)
    (s : State) : g s.wantLadder = g s := by
  have hwant (t : State) (a b c d : Nat) : g (t.wantReset a b c d) = g t := hg t _ t.recovery.storeUe
  have hfold (t : State) (e : Nat × Nib) : g (e.2.hung.foldl (fun s u => s.wantReset 1 (s.physNib e.1) u 1)
      (if e.2.issue.run = .running then t.wantReset 2 (t.physNib e.1) 0 1 else t)) = g t := by
    rw [foldl_same g _ fun t u => hwant t ..]
    split
    · exact hwant ..
    · rfl
  have hmesh (t : State) : g (if t.meshQuires.isEmpty then t else t.wantReset 3 0xFFFF 0 5) = g t := by
    split
    · rfl
    · exact hwant ..
  have hue (t : State) : g (if t.recovery.storeUe then ({ t with recovery := { t.recovery with storeUe := false } } : State).wantReset 3 0xFFFF 0 3
      else t) = g t := by
    split
    · exact (hwant ..).trans (hg t t.recovery.wanted _)
    · rfl
  rw [wantLadder]
  dsimp only
  generalize hl : List.foldl _ s s.nibs = l
  have hnibs : g l = g s := by
    rw [← hl]
    exact foldl_same g _ hfold _ _
  exact (hue _).trans ((hmesh l).trans hnibs)

section
variable {β : Type} (g : State → β) (hg : ∀ (t : State) ns os, g { t with nibs := ns, objs := os } = g t) {s : State}
include hg

/-- Tags set on a nib where no packet waits change nibs and counts alone, and no packet waits thereafter. -/
theorem setTags_quiet {n : Nat} (hn : (s.nib n).inbox = []) (t : Tags) : g (s.setTags n t) = g s ∧
    ∀ m, (s.nib m).inbox = [] → ((s.setTags n t).nib m).inbox = [] := by
  have hif (c : Prop) [Decidable c] (u : State) (i q k : Nat) : g (if c then u else u.bump i q k) = g u ∧
      ∀ m, (if c then u else u.bump i q k).nib m = u.nib m := by
    split
    · exact ⟨rfl, fun _ => rfl⟩
    · exact ⟨hg u u.nibs _, fun _ => rfl⟩
  have hdrain (u : State) (hu : (u.nib n).inbox = []) : g (u.drainInbox n) = g u ∧
      ∀ m, (u.nib m).inbox = [] → ((u.drainInbox n).nib m).inbox = [] := by
    rw [drainInbox, hu, offer]
    refine ⟨(hg _ _ u.objs).trans (hg u _ u.objs), fun m hm => ?_⟩
    by_cases hmn : m = n
    · subst hmn
      rw [nib_updNib]
    · rw [nib_updNib_other _ _ hmn, nib_updNib_other _ _ hmn, hm]
  rw [setTags]
  dsimp only
  generalize hv : s.setNib n _ = v
  have hsame : g v = g s := by
    rw [← hv]
    exact hg s _ s.objs
  have hempty (m : Nat) (hm : (s.nib m).inbox = []) : (v.nib m).inbox = [] := by
    rw [← hv]
    by_cases hmn : m = n
    · subst hmn
      rw [nib_setNib]
      dsimp only
      rw [hm, List.filter_nil]
    · rw [nib_setNib_other _ _ _ _ hmn, hm]
  have hend (u : State) (hu : g u = g s) (hin : ∀ m, (s.nib m).inbox = [] → (u.nib m).inbox = []) : g (u.drainInbox n) = g s ∧
      ∀ m, (s.nib m).inbox = [] → ((u.drainInbox n).nib m).inbox = [] :=
    ⟨(hdrain u (hin n hn)).1.trans hu, fun m hm => (hdrain u (hin n hn)).2 m (hin m hm)⟩
  exact hend _ ((hif ..).1.trans ((hif ..).1.trans hsame)) fun m hm => by rw [(hif ..).2 m, (hif ..).2 m, hempty m hm]

/-- Tags set where no packet waits change nibs and counts alone. -/
theorem setEpoch_quiet (h : ∀ n, (s.nib n).inbox = []) (v : Nat) : g (s.setEpoch v) = g s := by
  have hfold (es : List (Nat × Nib)) (t : State) (ht : ∀ n, (t.nib n).inbox = []) :
      g (es.foldl (fun s e => s.setTags e.1 { (s.nib e.1).tags with epoch := v, emask := 2 ^ v }) t) = g t := by
    induction es generalizing t with
    | nil => rfl
    | cons e es ih =>
      obtain ⟨hsame, hquiet⟩ := setTags_quiet g hg (ht e.1) { (t.nib e.1).tags with epoch := v, emask := 2 ^ v }
      rw [List.foldl_cons, ih _ fun n => hquiet n (ht n), hsame]
  have hfill (t : State) (ns : SMap Nib) : g { t with nibs := ns } = g t := hg t ns t.objs
  rw [setEpoch]
  exact (hfill _ _).trans (hfold s.nibs s h)

end

/-- OPENING begins where no packet waits. -/
theorem openBinding_quiet {s : State} (h : ∀ n, (s.nib n).inbox = []) : s.openBinding.binding.fn.code = .opening ∧
    s.openBinding.recovery.abort = s.recovery.abort ∧ s.openBinding.recovery.record = s.recovery.record := by
  have hnib (n : Nat) : (s.setBinding { code := .opening }).nib n = s.nib n := setBinding_same _ (fun t => t.nib n) (fun _ _ _ _ _ => rfl) _
  have hin (n : Nat) : ((s.setBinding { code := .opening }).nib n).inbox = [] := by rw [hnib, h]
  have hrec : ((s.setBinding { code := .opening }).setEpoch (s.obj 0x4602 0 % 2)).recovery = s.recovery := by
    rw [setEpoch_quiet recovery (fun _ _ _ => rfl) hin]
    exact setBinding_same _ recovery (fun _ _ _ _ _ => rfl) _
  have hbind : ((s.setBinding { code := .opening }).setEpoch (s.obj 0x4602 0 % 2)).binding.fn = { code := .opening } := by
    rw [setEpoch_quiet binding (fun _ _ _ => rfl) hin, setBinding_binding]
  exact ⟨(congrArg FnState.code hbind :), (congrArg Recovery.abort hrec :), (congrArg Recovery.record hrec :)⟩

section
variable (s : State) (a : Abort)

/-- The module once abort `a` has ended and its record has begun. -/
def abortRecorded : State :=
  ({ s with recovery := { s.recovery with abort := none, lastAbort := some a } } : State).wantLadder.beginRecord 0 a.reason a.time

theorem abortRecorded_same {β : Type} (g : State → β) (hg : ∀ (t : State) d f r, g { t with desk := d, fresh := f, recovery := r } = g t) :
    g (s.abortRecorded a) = g s := by
  have hrec (t : State) (r : Recovery) : g { t with recovery := r } = g t := hg t t.desk t.fresh r
  rw [abortRecorded, beginRecord_same _ _ _ _ g fun t d f r => hg t d f _, wantLadder_same g fun t w u => hrec t _]
  exact hrec s _

theorem abort_abortRecorded : (s.abortRecorded a).recovery.abort = none ∧ (s.abortRecorded a).recovery.lastAbort = some a := by
  constructor
  · rw [abortRecorded, beginRecord_same _ _ _ _ (fun t => t.recovery.abort) fun _ _ _ _ => rfl, wantLadder_same (fun t => t.recovery.abort) fun _ _ _ => rfl]
  · rw [abortRecorded, beginRecord_same _ _ _ _ (fun t => t.recovery.lastAbort) fun _ _ _ _ => rfl,
      wantLadder_same (fun t => t.recovery.lastAbort) fun _ _ _ => rfl]

theorem record_abortRecorded (hw : s.blotWritable s.blotBase = true) : ∃ j, (s.abortRecorded a).recovery.record = some j ∧
    j.trigger = 0 ∧ j.reason = a.reason ∧ j.time = a.time := by
  refine record_beginRecord _ _ _ _ ?_
  rw [wantLadder_same (fun t => t.blotWritable t.blotBase) fun _ _ _ => rfl]
  exact hw

variable {s a} (ha : s.recovery.abort = some a) (hend : s.atRest = true ∨ a.time + 100000 ≤ s.now)
include ha hend

theorem endAbort_ends : s.endAbort = (if s.binding.fn.pending then ((s.abortRecorded a).enterOff s.binding.fn.failed).openBinding
    else (s.abortRecorded a).enterOff s.binding.fn.failed).pumpSteps := by
  have hbind : (s.abortRecorded a).binding = s.binding := s.abortRecorded_same a binding fun _ _ _ _ => rfl
  have hgo : ¬(!s.atRest && decide (s.now < a.time + 100000)) = true := by
    rcases hend with h | h
    · rw [h, Bool.not_true, Bool.false_and]
      exact Bool.false_ne_true
    · rw [decide_eq_false (Nat.not_lt.2 h), Bool.and_false]
      exact Bool.false_ne_true
  have hrest (u : State) (hu : u.binding = s.binding) : (if u.binding.fn.pending then (u.enterOff u.binding.fn.failed).openBinding
      else u.enterOff u.binding.fn.failed).pumpSteps = (if s.binding.fn.pending then (u.enterOff s.binding.fn.failed).openBinding
        else u.enterOff s.binding.fn.failed).pumpSteps := by rw [hu]
  rw [endAbort, ha]
  dsimp only
  rw [if_neg hgo]
  exact hrest (s.abortRecorded a) hbind

end

section
variable (s : State) (q w : Nat) (k : BlotKey)

/-- The module once the BLOT item `w` of quill `q` is relayed and its key `k` kept. -/
def itemKept : State := (({ s with recovery := { s.recovery with keys := [k] } } : State).relayBlot w (some q)).bump 0x80A2 0 1

theorem itemKept_same {β : Type} (g : State → β) (hg : ∀ (t : State) qs os, g { t with quills := qs, objs := os } = g t) :
    g (s.itemKept q w k) = g { s with recovery := { s.recovery with keys := [k] } } :=
  (hg _ _ _).trans (relayBlot_same _ g (fun t _ _ => hg t _ t.objs) _ _)

theorem objs_itemKept : (s.itemKept q w k).objs = (s.bump 0x80A2 0 1).objs := by
  have hrelay : (({ s with recovery := { s.recovery with keys := [k] } } : State).relayBlot w (some q)).objs = s.objs :=
    relayBlot_same _ objs (fun _ _ _ => rfl) _ _
  rw [itemKept, bump, bump, obj, obj, setObj, setObj, hrelay]

variable {s} {q : QuillId} {item : BitVec 64}

/-- An item on a quill that is UP, with no key kept. -/
theorem exec_blotItemReceive_new (hup : (s.quill q.val).link = .up) (hkeys : s.recovery.keys = []) : exec (.blotItemReceive q item) s =
    .next (if field item.toNat 63 52 = s.jobTag ∧ s.mayBlot = true then
      ((s.itemKept q.val item.toNat ⟨field item.toNat 63 52, field item.toNat 51 38, field item.toNat 31 24, s.now⟩).event 0x0A
        (2 ^ 14 + field item.toNat 37 32) item.toNat).beginAbort (field item.toNat 37 32) (field item.toNat 51 38) (field item.toNat 31 24)
    else (s.itemKept q.val item.toNat ⟨field item.toNat 63 52, field item.toNat 51 38, field item.toNat 31 24, s.now⟩).bump 0x80A3 0 1) := by
  have htag (k : BlotKey) : (s.itemKept q.val item.toNat k).jobTag = s.jobTag := by
    rw [jobTag, obj, objs_itemKept]
    exact obj_bump_index s (by decide) (by decide) (by decide) 1
  have hmay (k : BlotKey) : (s.itemKept q.val item.toNat k).mayBlot = s.mayBlot := s.itemKept_same _ _ _ mayBlot fun _ _ _ => rfl
  have hcond (t : Nat) : (decide (t = s.jobTag) && s.mayBlot) = decide (t = s.jobTag ∧ s.mayBlot = true) := by
    by_cases h : t = s.jobTag <;> simp [h]
  rw [exec_blotItemReceive, execBlotItemReceive, takeBlotItem]
  dsimp only
  rw [if_neg (not_not_intro hup), hkeys, if_neg (by simp)]
  have hgo (u : State) (f g : State) (t : Nat) (hu : u.jobTag = s.jobTag) (hm : u.mayBlot = s.mayBlot) :
      (if (decide (t = u.jobTag) && u.mayBlot) = true then f else g) = if t = s.jobTag ∧ s.mayBlot = true then f else g := by
    rw [hu, hm, hcond]
    simp only [decide_eq_true_eq]
  exact congrArg Host.Outcome.next (hgo _ _ _ _ (htag _) (hmay _))

end

end State

/-- Settles O49: each row by its cases; an abort's end makes a record, which holds back the resets wanted. -/
theorem blotsAndAborts : Obligations.BlotsAndAborts := by
  refine ⟨fun s harm hstuck => ⟨fun hon hdown => ?_, fun hon hab hdown => ?_, fun hoff => ?_⟩, fun q item s k hup hk => ⟨fun hseen => ?_, fun hkeys => ?_⟩,
    fun s => rfl, fun s b hb => ⟨fun hle => ?_, fun hlt hoff => ?_, fun hlt hon hab hdown hobj x hx hs => ?_⟩,
    fun s a ha => ⟨fun hrest hlt => ?_, fun hend hp hw hin => ?_, fun hend hp hw => ?_⟩⟩
  · have hmay : (s.asserted 0).mayBlot = false := by
      rw [State.mayBlot, s.asserted_same 0 State.computeDown fun _ _ _ => rfl, hdown, Bool.not_true, Bool.and_false, Bool.false_and]
    rw [State.exec_blotInN_event harm hstuck, if_pos hon, State.blot_eq_self _ hmay]
    exact ⟨_, rfl, rfl, rfl⟩
  · have hmay : (s.asserted 0).mayBlot = true := by
      rw [s.asserted_same 0 State.mayBlot fun _ _ _ => rfl, State.mayBlot, hab, hdown, hon]
      rfl
    have hchip : (s.asserted 0).chip = s.chip := s.obj_asserted 0 (by decide)
    rw [State.exec_blotInN_event harm hstuck, if_pos hon]
    refine ⟨_, rfl, ?_, State.blot_code hmay 8, ?_, ?_, State.blot_run_ne hmay 8⟩
    · rw [State.blot_abort hmay 8, hchip]
      rfl
    · rw [State.pin, State.blot_pins hmay]
      exact congrArg Pin.armed (s.pin_asserted 0)
    · rw [State.blot_pins hmay]
      rfl
  · rw [State.exec_blotInN_event harm hstuck, if_neg hoff]
    refine ⟨_, rfl, ?_, ?_, rfl, rfl⟩
    · rw [State.obj_bump, s.obj_asserted 0 (by decide)]
    · rw [State.obj_bump_index _ (by decide) (by decide) (by decide)]
      exact State.obj_setObj ..
  · rw [exec_blotItemReceive, execBlotItemReceive, State.takeBlotItem]
    dsimp only
    obtain ⟨j, hj, htag, horigin, hbseq, htime⟩ := hseen
    rw [if_neg (not_not_intro hup), if_pos]
    exact List.any_eq_true.2 ⟨j, hj, by rw [htag, horigin, hbseq, hk]; simpa using htime⟩
  · subst hk
    have hrec (t : State) : (t.bump 0x80A3 0 1).recovery = t.recovery := rfl
    have hbind (t : State) : (t.bump 0x80A3 0 1).binding = t.binding := rfl
    rw [State.exec_blotItemReceive_new hup hkeys]
    split
    · rename_i hyes
      refine ⟨_, rfl, ?_, ?_, fun htag hmay => ⟨?_, ?_⟩, fun hno => ?_⟩
      · rw [State.beginAbort_recovery, State.event_recovery, s.itemKept_same _ _ _ State.recovery fun _ _ _ => rfl]
      · rw [State.obj, State.beginAbort_objs, ← State.obj, State.obj_bump_index _ (by decide) (by decide) (by decide), State.event_obj, State.obj,
          State.objs_itemKept]
        exact State.obj_bump ..
      · rw [State.beginAbort_binding]
      · rw [State.beginAbort_recovery, State.event_now, s.itemKept_same _ _ _ State.now fun _ _ _ => rfl]
        rfl
      · exact absurd hyes fun h => hno.elim (fun htag => htag h.1) fun hmay => Bool.false_ne_true (hmay.symm.trans h.2)
    · rename_i hyes
      refine ⟨_, rfl, ?_, ?_, fun htag hmay => absurd ⟨htag, hmay⟩ hyes, fun hno => ⟨?_, ?_, ?_⟩⟩
      · rw [hrec, s.itemKept_same _ _ _ State.recovery fun _ _ _ => rfl]
      · rw [State.obj_bump_index _ (by decide) (by decide) (by decide), State.obj, State.objs_itemKept]
        exact State.obj_bump ..
      · rw [hbind, s.itemKept_same _ _ _ State.binding fun _ _ _ => rfl]
      · rw [hrec, s.itemKept_same _ _ _ State.recovery fun _ _ _ => rfl]
      · rw [State.obj_bump, State.obj, State.objs_itemKept, ← State.obj, State.obj_bump_index _ (by decide) (by decide) (by decide)]
  · rw [exec_progressCheck, execProgressCheck, State.checkProgress]
    exact congrArg _ (if_pos (hb ▸ hle))
  · rw [exec_progressCheck, execProgressCheck, State.checkProgress]
    dsimp only
    rw [← hb, if_neg (Nat.not_le.2 hlt), if_neg (by simp [hoff])]
    rfl
  · obtain ⟨f, fs, hfs⟩ : ∃ f fs, (((s.checkedNibs ++ s.checkedMesh).filter fun u => SMap.get none s.recovery.samples u.1 = some u.2.count).map
        Prod.snd) = f :: fs := by
      refine List.exists_cons_of_ne_nil fun hnil => ?_
      have hmem : x ∈ (s.checkedNibs ++ s.checkedMesh).filter fun u => SMap.get none s.recovery.samples u.1 = some u.2.count :=
        List.mem_filter.2 ⟨List.mem_append_left _ hx, decide_eq_true hs⟩
      rw [List.map_eq_nil_iff.1 hnil] at hmem
      exact List.not_mem_nil hmem
    have hmay : s.mayBlot = true := by
      rw [State.mayBlot, hab, hdown, hon]
      rfl
    rw [exec_progressCheck, execProgressCheck, State.checkProgress]
    dsimp only
    rw [← hb, if_neg (Nat.not_le.2 hlt), if_pos (by simp [hon, hobj]), hfs]
    exact ⟨_, rfl, State.failProgress_sampled hmay b _ rfl⟩
  · rw [exec_abortEnd, execAbortEnd, State.endAbort, ha]
    dsimp only
    rw [if_pos (by simp [hrest, hlt])]
  · obtain ⟨j, hj, -⟩ := s.record_abortRecorded a hw
    have hrec : ((s.abortRecorded a).enterOff s.binding.fn.failed).recovery = (s.abortRecorded a).recovery :=
      State.enterOff_same State.recovery (fun _ _ _ _ _ _ _ => rfl) _ _
    obtain ⟨hcode, habort, hrecord⟩ := State.openBinding_quiet (s := (s.abortRecorded a).enterOff s.binding.fn.failed) fun n => by
      rw [State.nib_enterOff, s.abortRecorded_same a (fun t => t.nib n) fun _ _ _ _ => rfl]
      exact hin n
    rw [exec_abortEnd, execAbortEnd, State.endAbort_ends ha hend, hp, if_pos rfl, State.pumpSteps_waits (Or.inr (by rw [hrecord, hrec, hj]; rfl))]
    exact ⟨_, rfl, by rw [habort, hrec, (s.abort_abortRecorded a).1], hcode⟩
  · obtain ⟨j, hj, hjs⟩ := s.record_abortRecorded a hw
    have hrec : ((s.abortRecorded a).enterOff s.binding.fn.failed).recovery = (s.abortRecorded a).recovery :=
      State.enterOff_same State.recovery (fun _ _ _ _ _ _ _ => rfl) _ _
    have hfn := State.binding_enterOff (s.abortRecorded a) s.binding.fn.failed
    obtain ⟨hab, hlast⟩ := s.abort_abortRecorded a
    rw [exec_abortEnd, execAbortEnd, State.endAbort_ends ha hend, hp, if_neg Bool.false_ne_true, State.pumpSteps_waits (Or.inr (by rw [hrec, hj]; rfl))]
    refine ⟨_, rfl, ?_, ?_, ?_, ?_, j, ?_, hjs⟩
    · rw [hrec, hab]
    · rw [hrec, hlast]
    · rw [hfn]
    · rw [hfn]
    · rw [hrec, hj]

end Sys2Proof.Machine
end

section
/-! Proof of the statement on records and reset steps (13 R393-R403). -/

namespace Sys2Proof.Machine
namespace State

/-! ### The steps that wait -/

/-- With no step wanted none begins. -/
theorem pumpSteps_idle {s : State} (h : s.recovery.wanted = []) : s.pumpSteps = s := by
  rw [pumpSteps]
  dsimp only
  rw [h]
  split <;> rfl

section
variable {s : State} {t : ResetStep} (ha : s.recovery.abort = none) (hr : s.recovery.record = none) (hret : s.recovery.retired = none)
  (hw : s.recovery.wanted = [t])
include ha hr hret hw

/-- The one step wanted below a compute-domain reset begins. -/
theorem pumpSteps_begins (ht : t.step < 3) :
    s.pumpSteps = ({ s with recovery := { s.recovery with wanted := [] } } : State).beginStep t := by
  rw [pumpSteps]
  dsimp only
  rw [ha, hr, hret, hw]
  simp [Nat.not_le.2 ht]

/-- The one step wanted, of a domain with a record, waits for its record. -/
theorem pumpSteps_record (ht : 3 ≤ t.step) (hrecent : s.recentRecord = false) (hwritable : s.blotWritable s.blotBase = true) :
    s.pumpSteps = s.beginRecord (t.step - 2) t.cause t.start := by
  have hrecord : (s.beginRecord (t.step - 2) t.cause t.start).recovery.record.isSome = true := by
    rw [beginRecord, hwritable]
    rfl
  rw [pumpSteps]
  dsimp only
  rw [ha, hr, hret, hw]
  simp [ht, hrecent, hrecord]

end

section
variable (s : State)

theorem saveHeader_same {β : Type} (g : State → β) (hg : ∀ (t : State) d k, g { t with desk := d, recovery := { t.recovery with savedMs := k } } = g t) :
    g s.saveHeader = g s := by
  rw [saveHeader]
  dsimp only
  split
  · exact (hg _ _ _).trans (hg s s.desk _)
  · exact hg s s.desk _

theorem savedMs_saveHeader : s.saveHeader.recovery.savedMs = s.serviceTime := by
  rw [saveHeader]
  dsimp only
  split <;> rfl

/-- A step below a compute-domain reset that begins is counted and in progress from now. -/
theorem beginStep_low {t : ResetStep} (ht : t.step < 3) : (s.beginStep t).recovery.steps = s.recovery.steps ++ [{ t with start := s.now }] ∧
    (s.beginStep t).recovery.wanted = s.recovery.wanted ∧ (s.beginStep t).obj 0x80A5 t.step = (s.obj 0x80A5 t.step + 1) % 2 ^ 64 := by
  have hsteps (u : State) (c p d : Nat) : ((u.saveHeader.event c p d).recovery.steps = u.recovery.steps ∧
      (u.saveHeader.event c p d).recovery.wanted = u.recovery.wanted ∧ (u.saveHeader.event c p d).now = u.now) ∧
        (u.saveHeader.event c p d).objs = u.objs := by
    rw [event_recovery, event_now, event_objs]
    exact ⟨⟨saveHeader_same u (fun t => t.recovery.steps) fun _ _ _ => rfl, saveHeader_same u (fun t => t.recovery.wanted) fun _ _ _ => rfl,
      saveHeader_same u now fun _ _ _ => rfl⟩, saveHeader_same u objs fun _ _ _ => rfl⟩
  rw [beginStep]
  dsimp only
  rw [if_neg (by omega), if_neg (by omega)]
  obtain ⟨⟨h1, h2, h3⟩, h4⟩ := hsteps (s.bump 0x80A5 t.step 1) 0x0C (t.cause <<< 8 + t.step)
    ((t.nib % 2 ^ 16) <<< 48 + (if t.step = 1 then t.unit <<< 44 else 0) + (s.bump 0x80A5 t.step 1).saveHeader.recovery.newestSeq % 2 ^ 32)
  refine ⟨?_, h2, ?_⟩
  · exact congr (congrArg (fun a b => a ++ [({ t with start := b } : ResetStep)]) h1) h3
  · exact (congrArg (fun o => (SMap.get none o (objKey 0x80A5 t.step)).getD (objDefault 0x80A5 t.step)) h4).trans (obj_bump ..)

end

/-! ### The compute domain held, and in reset -/

section
variable (s : State)

theorem holdCompute_same {β : Type} (g : State → β) (hg : ∀ (t : State) ns b a x f os qs,
    g { t with nibs := ns, binding := b, agent := a, txl := x, fresh := f, objs := os, quires := qs } = g t) : g s.holdCompute = g s := by
  have hquires (f : Quire → Quire) : g (s.mapQuires f) = g s :=
    s.mapQuires_same g (fun t qs => hg t t.nibs t.binding t.agent t.txl t.fresh t.objs qs) f
  rw [holdCompute]
  split
  · rw [enterOff_same g (fun t ns b a x f os => hg t ns b a x f os t.quires), hquires]
  · exact hquires _

theorem quire_holdCompute {q : Nat} (hq : q < 16) : (s.holdCompute.quire q).running = false := by
  have hquire : ((s.mapQuires fun x => { x with running := false }).quire q).running = false := by rw [quire_mapQuires _ _ hq]
  rw [holdCompute]
  split
  · rw [enterOff_same (fun t => (t.quire q).running) (fun _ _ _ _ _ _ _ => rfl), hquire]
  · exact hquire

theorem obj_holdCompute {i u : Nat} (hlow : objKey i u < 0x701000) : s.holdCompute.obj i u = s.obj i u := by
  have hquires (f : Quire → Quire) : (s.mapQuires f).obj i u = s.obj i u := s.mapQuires_same (fun t => t.obj i u) (fun _ _ => rfl) f
  rw [holdCompute]
  split
  · rw [obj_enterOff_low _ _ hlow, hquires]
  · exact hquires _

/-- Nibs, fault entries and quires after a compute-domain reset. -/
def computeRested : State :=
  let s := (s.mapNibs computeResetNib).freeEntries fun _ => true
  let s := (List.range 16).foldl (fun s k => s.keepCount k) s
  s.mapQuires fun x => { x with running := true, locked := true, stretching := false, count := 0, overrun := false }

/-- The module with no packet under way and no doorbell bound. -/
def unmeshed (m : List Packet) : State := ({ s with mesh := m, binding := { s.binding with doorbell := none } } : State).vacate

/-- The module in the midst of a compute-domain reset, before a CLOSING that it cut off ends. -/
def computeCleared : State := s.computeRested.unmeshed []

theorem resetCompute_eq : s.resetCompute =
    if s.computeCleared.binding.fn.code = .closing then s.computeCleared.endClosing else s.computeCleared := by
  rw [resetCompute, computeCleared, computeRested]
  generalize mapQuires _ _ = v
  generalize hm : List.filter _ v.mesh = m
  have hnil : m = [] := by
    rw [← hm]
    refine List.filter_eq_nil_iff.2 fun p _ => ?_
    generalize p.dst = d
    cases d <;> exact Bool.false_ne_true
  rw [hnil]
  rfl

/-- What a compute-domain reset empties of a nib. -/
def nibStores (x : Nib) : Memory × SMap Nat × SMap Context × List InFlight × SMap (List Transfer) × List Waiting :=
  (x.mem, x.instrs, x.ctxs, x.slots, x.resq, x.inbox)

theorem computeRested_same {β : Type} (g : State → β) (hg : ∀ (t : State) ns d os qs,
    g { t with nibs := ns, desk := d, objs := os, quires := qs } = g t) : g s.computeRested = g s := by
  have hkeep (t : State) (k : Nat) : g (t.keepCount k) = g t := by
    rw [keepCount]
    split
    · exact hg t t.nibs t.desk _ t.quires
    · rfl
  have hquires (t : State) (f : Quire → Quire) : g (t.mapQuires f) = g t :=
    t.mapQuires_same g (fun t qs => hg t t.nibs t.desk t.objs qs) f
  have hreset (t : State) (f : Nib → Nib) (p : FaultEntry → Bool) : g ((t.mapNibs f).freeEntries p) = g t := hg t _ _ t.objs t.quires
  rw [computeRested, hquires, foldl_same g _ hkeep, hreset]

theorem unmeshed_leaves (m : List Packet) : (s.unmeshed m).mesh = m ∧ (s.unmeshed m).binding.doorbell = none ∧ (∀ n, (s.unmeshed m).nib n = s.nib n) ∧
    (∀ q, (s.unmeshed m).quire q = s.quire q) ∧ (s.unmeshed m).desk = s.desk ∧ (s.unmeshed m).recovery = s.recovery :=
  ⟨rfl, rfl, fun _ => rfl, fun _ => rfl, rfl, rfl⟩

theorem computeCleared_leaves : s.computeCleared.mesh = [] ∧ s.computeCleared.binding.doorbell = none ∧
    (∀ n, nibStores (s.computeCleared.nib n) = ([], [], [], [], [], [])) ∧ (∀ q, q < 16 → (s.computeCleared.quire q).running = true) ∧
    s.computeCleared.desk.mem = s.desk.mem ∧ s.computeCleared.recovery = s.recovery := by
  obtain ⟨hmesh, hbell, hnib, hquire, hdesk, hrec⟩ := s.computeRested.unmeshed_leaves []
  have hkeep {β : Type} (g : State → β) (hg : ∀ (t : State) os, g { t with objs := os } = g t) (t : State) :
      g ((List.range 16).foldl (fun s k => s.keepCount k) t) = g t := by
    refine foldl_same g _ (fun t k => ?_) _ _
    rw [keepCount]
    split
    · exact hg t _
    · rfl
  have hfree (t : State) (p : FaultEntry → Bool) (n : Nat) : (t.freeEntries p).nib n = t.nib n := rfl
  have hfree' (t : State) (p : FaultEntry → Bool) (f : Nib → Nib) : ((t.mapNibs f).freeEntries p).desk.mem = t.desk.mem := rfl
  refine ⟨hmesh, hbell, fun n => ?_, fun q hq => ?_, ?_, ?_⟩
  · rw [computeCleared, hnib, computeRested, mapQuires_same _ (fun t => t.nib n) fun _ _ => rfl]
    rw [hkeep (fun t => t.nib n) fun _ _ => rfl, hfree, nib_mapNibs _ _ _ rfl]
    rfl
  · rw [computeCleared, hquire, computeRested, quire_mapQuires _ _ hq]
  · rw [computeCleared, hdesk, computeRested, mapQuires_same _ (fun t => t.desk.mem) fun _ _ => rfl]
    rw [hkeep (fun t => t.desk.mem) fun _ _ => rfl, hfree']
  · rw [computeCleared, hrec, computeRested_same s recovery fun _ _ _ _ _ => rfl]

end

section
variable {s : State} (h : ∀ n, nibStores (s.nib n) = ([], [], [], [], [], []))
include h

theorem inbox_of_nibStores (n : Nat) : (s.nib n).inbox = [] := congrArg (fun p => p.2.2.2.2.2) (h n)

/-- Tags taken by a nib leave the nibs empty that a compute-domain reset has emptied. -/
theorem nibStores_setTags (n : Nat) (t : Tags) (m : Nat) : nibStores ((s.setTags n t).nib m) = ([], [], [], [], [], []) := by
  have hin := inbox_of_nibStores h n
  by_cases hmn : m = n
  · subst hmn
    have hslots : (s.nib m).slots = [] := congrArg (fun p => p.2.2.2.1) (h m)
    rw [nib_setTags hin (fun o ho => by rw [hslots] at ho; cases ho)]
    exact h m
  · have hsame : (s.setTags n t).nib m = s.nib m := by
      have hif (c : Prop) [Decidable c] (u : State) (i q k : Nat) (j : Nat) : (if c then u else u.bump i q k).nib j = u.nib j := by split <;> rfl
      have hset (x : Nib) (hx : x.inbox = []) : ((s.setNib n x).nib n).inbox = [] := by rw [nib_setNib, hx]
      have hdrain (u : State) (hu : (u.nib n).inbox = []) : (u.drainInbox n).nib m = u.nib m := by
        rw [drainInbox, hu, offer, nib_updNib_other _ _ hmn, nib_updNib_other _ _ hmn]
      rw [setTags]
      dsimp only
      rw [hdrain, hif, hif, nib_setNib_other _ _ _ _ hmn]
      rw [hif, hif]
      exact hset _ (by rw [hin]; rfl)
    rw [hsame, h m]

theorem nibStores_setEpoch (v n : Nat) : nibStores ((s.setEpoch v).nib n) = ([], [], [], [], [], []) := by
  have hfold (es : List (Nat × Nib)) (t : State) (ht : ∀ n, nibStores (t.nib n) = ([], [], [], [], [], [])) :
      ∀ n, nibStores ((es.foldl (fun s e => s.setTags e.1 { (s.nib e.1).tags with epoch := v, emask := 2 ^ v }) t).nib n) = ([], [], [], [], [], []) := by
    induction es generalizing t with
    | nil => exact ht
    | cons e es ih => exact ih _ (nibStores_setTags ht e.1 _)
  exact (get_fillTags nibStores { epoch := v, emask := 2 ^ v } rfl _ _ _ n).trans (hfold s.nibs s h n)

/-- OPENING leaves what reads neither nibs, binding, agent nor counts. -/
theorem openBinding_same {β : Type} (g : State → β) (hg : ∀ (t : State) ns b a x f os e,
    g { t with nibs := ns, binding := b, agent := a, txl := x, fresh := f, objs := os, recovery := { t.recovery with ended := e } } = g t) :
    g s.openBinding = g s := by
  have hset (t : State) (f : FnState) : g (t.setBinding f) = g t :=
    t.setBinding_same g (fun t b a x f => hg t t.nibs b a x f t.objs t.recovery.ended) f
  have hin (n : Nat) : ((s.setBinding { code := .opening }).nib n).inbox = [] := by
    rw [setBinding_same _ (fun t => t.nib n) fun _ _ _ _ _ => rfl]
    exact inbox_of_nibStores h n
  have hrest (t : State) (b : Binding) (e : Bool) : g { t with recovery := { t.recovery with ended := e }, binding := b } = g t :=
    hg t t.nibs b t.agent t.txl t.fresh t.objs e
  exact (hrest _ _ _).trans ((setEpoch_quiet g (fun t ns os => hg t ns t.binding t.agent t.txl t.fresh os t.recovery.ended) hin _).trans (hset s _))

/-- A CLOSING that ends leaves what reads neither nibs, binding, agent nor counts. -/
theorem endClosing_same {β : Type} (g : State → β) (hg : ∀ (t : State) ns b a x f os e,
    g { t with nibs := ns, binding := b, agent := a, txl := x, fresh := f, objs := os, recovery := { t.recovery with ended := e } } = g t) :
    g s.endClosing = g s := by
  rw [endClosing]
  split
  · exact openBinding_same h g hg
  · exact enterOff_same g (fun t ns b a x f os => hg t ns b a x f os t.recovery.ended) _ _

theorem nibStores_endClosing (n : Nat) : nibStores (s.endClosing.nib n) = ([], [], [], [], [], []) := by
  have hset (m : Nat) : nibStores ((s.setBinding { code := .opening }).nib m) = ([], [], [], [], [], []) := by
    rw [setBinding_same _ (fun t => t.nib m) fun _ _ _ _ _ => rfl]
    exact h m
  rw [endClosing]
  split
  · exact nibStores_setEpoch hset _ n
  · rw [nib_enterOff]
    exact h n

theorem doorbell_endClosing (hbell : s.binding.doorbell = none) : s.endClosing.binding.doorbell = none := by
  have hin (n : Nat) : ((s.setBinding { code := .opening }).nib n).inbox = [] := by
    rw [setBinding_same _ (fun t => t.nib n) fun _ _ _ _ _ => rfl]
    exact inbox_of_nibStores h n
  have hopen : s.openBinding.binding.doorbell = ((s.setBinding { code := .opening }).setEpoch (s.obj 0x4602 0 % 2)).binding.doorbell := rfl
  rw [endClosing]
  split
  · rw [hopen, setEpoch_quiet binding (fun _ _ _ => rfl) hin, setBinding_binding]
    exact hbell
  · rfl

end

/-- What a compute-domain reset leaves. -/
theorem resetCompute_leaves (s : State) : s.resetCompute.mesh = [] ∧ s.resetCompute.binding.doorbell = none ∧
    (∀ n, nibStores (s.resetCompute.nib n) = ([], [], [], [], [], [])) ∧ (∀ q, q < 16 → (s.resetCompute.quire q).running = true) ∧
    s.resetCompute.desk.mem = s.desk.mem ∧ s.resetCompute.recovery.steps = s.recovery.steps ∧ s.resetCompute.recovery.wanted = s.recovery.wanted := by
  obtain ⟨hmesh, hbell, hnib, hquire, hdesk, hrec⟩ := s.computeCleared_leaves
  rw [resetCompute_eq]
  split
  · refine ⟨?_, doorbell_endClosing hnib hbell, nibStores_endClosing hnib, fun q hq => ?_, ?_, ?_, ?_⟩
    · rw [endClosing_same hnib mesh fun _ _ _ _ _ _ _ _ => rfl, hmesh]
    · rw [endClosing_same hnib (fun t => t.quire q) fun _ _ _ _ _ _ _ _ => rfl, hquire q hq]
    · rw [endClosing_same hnib (fun t => t.desk) fun _ _ _ _ _ _ _ _ => rfl, hdesk]
    · rw [endClosing_same hnib (fun t => t.recovery.steps) fun _ _ _ _ _ _ _ _ => rfl, hrec]
    · rw [endClosing_same hnib (fun t => t.recovery.wanted) fun _ _ _ _ _ _ _ _ => rfl, hrec]
  · exact ⟨hmesh, hbell, hnib, hquire, hdesk, by rw [hrec], by rw [hrec]⟩

/-! ### Steps that complete or escalate -/

section
variable {s : State} {k : ResetStep} (hk : s.recovery.steps = [k])
include hk

/-- The one step in progress, not of the part, completes. -/
theorem completeStep_one (h : k.step ≠ 4) : s.completeStep = ((s.stepEffect k).setSteps []).pumpSteps := by
  rw [completeStep, hk, if_neg (by simp [h])]

/-- The one step in progress, when it is due. -/
theorem escalateDue_one (hstep : k.step < 4) (hle : k.start + stepTimer k.step ≤ s.now) : s.escalateDue = s.escalate k := by
  rw [escalateDue, hk, List.find?_cons_of_pos (by simp [hstep, hle])]

theorem escalateDue_early (hlt : s.now < k.start + stepTimer k.step) : s.escalateDue = s.bootTimeout := by
  rw [escalateDue, hk, List.find?_cons_of_neg (by simp; omega), List.find?_nil]

theorem setSteps_one : s.setSteps (s.recovery.steps.filter (· ≠ k)) = s.setSteps [] := by
  rw [hk, List.filter_cons_of_neg (by simp), List.filter_nil]

end

/-- What a nib reset leaves of a nib with nothing in flight. -/
def nibReset (x : Nib) : Nib :=
  { scalarReset x with resq := [], rbase := [], inbox := [], issue := { x.issue with loops := [], hold := .none } }

theorem resetNib_idle {s : State} {n : Nat} (h : (s.nib n).slots = []) : (s.resetNib n).nib n = nibReset (s.nib n) ∧
    (∀ m, m ≠ n → (s.resetNib n).nib m = s.nib m) ∧ (s.resetNib n).recovery = s.recovery := by
  have hunbind (t : State) (m : Nat) : (t.unbindFrom n).nib m = t.nib m ∧ (t.unbindFrom n).recovery = t.recovery := by
    rw [unbindFrom]
    split
    · split
      · exact ⟨rfl, rfl⟩
      · exact ⟨rfl, rfl⟩
    · exact ⟨rfl, rfl⟩
  have hfree (t : State) (p : FaultEntry → Bool) (m : Nat) : (t.freeEntries p).nib m = t.nib m := rfl
  have hdrop : s.dropOps n (fun _ => true) = s := by
    rw [dropOps, h]
    rfl
  have hreset : s.resetNib n = ((s.updNib n nibReset).freeEntries fun e => e.virt = n).unbindFrom n := by
    rw [resetNib, hdrop]
    rfl
  rw [hreset]
  refine ⟨?_, fun m hm => ?_, (hunbind _ n).2⟩
  · rw [(hunbind _ _).1, hfree, nib_updNib]
  · rw [(hunbind _ _).1, hfree, nib_updNib_other _ _ hm]

/-! ### Records -/

theorem endRecord_leaves {s : State} {j : BlotterJob} (hj : s.recovery.record = some j) : s.endRecord.recovery = { s.recovery with
    record := none, recordDone := some s.now, newestSeq := j.seq, newestSlot := j.slot, savedMs := s.serviceTime } ∧ s.endRecord.nibs = s.nibs := by
  have hput (t : State) (a : Nat) (bs : List Byte) : (t.deskPut a bs).recovery = t.recovery ∧ (t.deskPut a bs).nibs = t.nibs ∧
      (t.deskPut a bs).now = t.now ∧ (t.deskPut a bs).serviceTime = t.serviceTime := ⟨rfl, rfl, rfl, rfl⟩
  have hsave (t : State) : t.saveHeader.recovery = { t.recovery with savedMs := t.serviceTime } := by
    rw [saveHeader]
    dsimp only
    split <;> rfl
  have hdone (t : State) (r : Recovery) (hr : r.serviceMs = t.recovery.serviceMs) :
      ({ t with recovery := r } : State).serviceTime = t.serviceTime := by
    rw [serviceTime, serviceTime, hr]
    rfl
  rw [endRecord, hj]
  dsimp only
  refine ⟨?_, ?_⟩
  · rw [hsave, (hput _ _ _).1, (hput _ _ _).2.2.2, hdone _ _ rfl]
    rfl
  · rw [saveHeader_same _ nibs fun _ _ _ => rfl]
    rfl

end State

/-- Settles O50: with one step in progress and none wanted, what completes, escalates or waits for its record is that step. -/
theorem resetsFollow : Obligations.ResetsFollow := by
  refine ⟨fun s j hj hw => ?_, fun s k hk hw => ⟨fun n hstep hn hslots => ?_, fun hstep => ?_, fun hlt hrun => ?_, fun hle ha hr hret hstep => ?_,
    fun hle hstep hobj => ?_, fun hstep hq => ?_, fun hstep hq => ?_⟩, fun s t0 hheld hw => ⟨fun hlt => ?_, fun hle ha hr hret hrec hwr => ?_⟩,
    fun s hboot hle => ?_⟩
  · obtain ⟨hrec, hnibs⟩ := State.endRecord_leaves hj
    rw [exec_blotterRecordComplete, execBlotterRecordComplete, if_pos (by rw [hj]; rfl), State.pumpSteps_idle (by rw [hrec]; exact hw)]
    exact ⟨_, rfl, by rw [hrec], by rw [hrec], by rw [hrec], by rw [hrec], by rw [hrec], hnibs⟩
  · obtain ⟨hnib, hother, hrec⟩ := State.resetNib_idle hslots
    have heff : s.stepEffect k = s.resetNib n := by simp only [State.stepEffect, hstep, hn]
    have hset (t : State) : (t.setSteps []).recovery.steps = [] ∧ (∀ m, (t.setSteps []).nib m = t.nib m) ∧
        (t.setSteps []).recovery.wanted = t.recovery.wanted := ⟨rfl, fun _ => rfl, rfl⟩
    obtain ⟨hsteps, hsame, hwant⟩ := hset (s.resetNib n)
    rw [exec_resetStepComplete, execResetStepComplete, State.completeStep_one hk (by omega), heff,
      State.pumpSteps_idle (by rw [hwant, hrec, hw])]
    refine ⟨_, rfl, hsteps, ?_⟩
    rw [hsame, hnib]
    exact ⟨rfl, rfl, rfl, rfl, rfl, rfl, rfl, rfl, rfl, fun m hm => by rw [hsame, hother m hm]⟩
  · obtain ⟨hmesh, hbell, hnib, hquire, hdesk, -, hwant⟩ := s.resetCompute_leaves
    have heff : s.stepEffect k = s.resetCompute := by simp only [State.stepEffect, hstep]
    have hset (t : State) : ((t.setSteps []).recovery.steps = [] ∧ (t.setSteps []).mesh = t.mesh ∧ (t.setSteps []).binding = t.binding ∧
        (t.setSteps []).desk = t.desk) ∧ (∀ m, (t.setSteps []).nib m = t.nib m) ∧ (∀ q, (t.setSteps []).quire q = t.quire q) ∧
        (t.setSteps []).recovery.wanted = t.recovery.wanted := ⟨⟨rfl, rfl, rfl, rfl⟩, fun _ => rfl, fun _ => rfl, rfl⟩
    obtain ⟨⟨hsteps, hmesh', hbind', hdesk'⟩, hsame, hquire', hwant'⟩ := hset s.resetCompute
    rw [exec_resetStepComplete, execResetStepComplete, State.completeStep_one hk (by omega), heff,
      State.pumpSteps_idle (by rw [hwant', hwant, hw])]
    refine ⟨_, rfl, hsteps, by rw [hmesh', hmesh], by rw [hbind', hbell], fun n => ?_, fun q hq => by rw [hquire', hquire q hq], by rw [hdesk', hdesk]⟩
    have h := hnib n
    rw [hsame]
    simp only [State.nibStores, Prod.mk.injEq] at h
    obtain ⟨h1, h2, h3, h4, h5, -⟩ := h
    exact ⟨h1, h2, h3, h4, h5⟩
  · rw [exec_resetEscalation, execResetEscalation, State.escalateDue_early hk hlt, State.bootTimeout, hrun]
  · have hwant (t : State) (htw : t.recovery.wanted = []) : (t.setSteps []).wantReset 2 k.nib 0 2 = { t with
        recovery := { t.recovery with steps := [], wanted := [⟨2, k.nib, 0, 2, t.now⟩] } } := by
      rw [State.wantReset, State.setSteps, htw]
      rfl
    have hlow : (⟨2, k.nib, 0, 2, s.now⟩ : ResetStep).step < 3 := Nat.lt_succ_self 2
    have hesc : s.escalate k = ((s.setSteps []).wantReset 2 k.nib 0 2).pumpSteps := by
      rw [State.escalate, State.setSteps_one hk]
      simp only [hstep]
    rw [exec_resetEscalation, execResetEscalation, State.escalateDue_one hk (by omega) hle, hesc, hwant s hw,
      State.pumpSteps_begins (s := { s with recovery := { s.recovery with steps := [], wanted := [⟨2, k.nib, 0, 2, s.now⟩] } }) ha hr hret rfl hlow]
    obtain ⟨h1, h2, h3⟩ := State.beginStep_low ({ s with recovery := { s.recovery with steps := [], wanted := [] } } : State) hlow
    exact ⟨_, rfl, h1, h2, h3⟩
  · have hset (t : State) : (t.setSteps []).obj 0x4C02 0 = t.obj 0x4C02 0 ∧ (t.setSteps []).now = t.now ∧ (t.setSteps []).recovery.steps = [] :=
      ⟨rfl, rfl, rfl⟩
    obtain ⟨hobj', hnow, hsteps⟩ := hset s
    have hheld : (s.setSteps []).holdCompute.obj 0x4C02 0 ≠ 0 := by rw [State.obj_holdCompute _ (by decide), hobj']; exact hobj
    have hend : s.escalate k = { (s.setSteps []).holdCompute with
        recovery := { (s.setSteps []).holdCompute.recovery with held := some (s.setSteps []).holdCompute.now } } := by
      rw [State.escalate, State.setSteps_one hk, hstep]
      exact if_neg hheld
    rw [exec_resetEscalation, execResetEscalation, State.escalateDue_one hk (by omega) hle, hend]
    refine ⟨_, rfl, ?_, ?_, fun q hq => (s.setSteps []).quire_holdCompute hq⟩
    · exact congrArg some (((s.setSteps []).holdCompute_same State.now fun _ _ _ _ _ _ _ _ => rfl).trans hnow)
    · exact ((s.setSteps []).holdCompute_same (fun t => t.recovery.steps) fun _ _ _ _ _ _ _ _ => rfl).trans hsteps
  · rw [exec_resetStepComplete, execResetStepComplete, State.completeStep, hk, if_pos (by simp [hstep]), if_neg]
    intro h
    obtain ⟨q, hmem, h⟩ := List.any_eq_true.1 h
    obtain ⟨h1, h2⟩ := (Bool.and_eq_true _ _).mp h
    exact of_decide_eq_true h2 (hq q (List.mem_range.1 hmem) (of_decide_eq_true h1))
  · obtain ⟨q, hq, h1, h2⟩ := hq
    rw [exec_resetStepComplete, execResetStepComplete, State.completeStep, hk, if_pos (by simp [hstep]), if_pos]
    exact List.any_eq_true.2 ⟨q, List.mem_range.2 hq, by simp [h1, h2]⟩
  · rw [exec_computeHeldLimit, execComputeHeldLimit, State.heldLimit, hheld]
    exact congrArg _ (if_neg (by simp [Nat.not_le.2 hlt]))
  · have hwant : s.wantReset 4 0xFFFF 0 2 = { s with recovery := { s.recovery with wanted := [⟨4, 0xFFFF, 0, 2, s.now⟩] } } := by
      rw [State.wantReset, hw, List.nil_append]
    have hpump : s.heldLimit = ({ s with recovery := { s.recovery with wanted := [⟨4, 0xFFFF, 0, 2, s.now⟩] } } : State).beginRecord 2 2 s.now := by
      rw [State.heldLimit, hheld]
      dsimp only
      rw [if_pos (by simp [hle, hw]), hwant]
      exact State.pumpSteps_record (t := ⟨4, 0xFFFF, 0, 2, s.now⟩) ha hr hret rfl (Nat.le_succ 3) hrec hwr
    obtain ⟨j, hj, htr, hre, -⟩ := ({ s with recovery := { s.recovery with wanted := [⟨4, 0xFFFF, 0, 2, s.now⟩] } } : State).record_beginRecord 2 2 s.now hwr
    rw [exec_computeHeldLimit, execComputeHeldLimit, hpump]
    exact ⟨_, rfl, State.beginRecord_same _ _ _ _ (fun t => t.recovery.wanted) fun _ _ _ _ => rfl, j, hj, htr, hre⟩
  · rw [exec_serviceTimeSave, execServiceTimeSave, if_neg (by simp [hboot, Nat.not_lt.2 hle])]
    exact ⟨_, rfl, s.savedMs_saveHeader, s.saveHeader_same State.nibs fun _ _ _ => rfl, s.saveHeader_same State.objs fun _ _ _ => rfl⟩

end Sys2Proof.Machine
end

section
/-! Proof of the statement on the companion's requests (14 R412-R425). -/

namespace Sys2Proof.Machine

/-- A message taken is of the opcodes and of the tag asked for. -/
theorem takeTxl_some {opcs : List Nat} {tag : Nat} {ms rest : List TxlMsg} {m : TxlMsg} (h : takeTxl opcs tag ms = some (m, rest)) :
    m.opc ∈ opcs ∧ m.tag = tag := by
  induction ms generalizing rest with
  | nil => cases h
  | cons x xs ih =>
    rw [takeTxl] at h
    split at h
    · rename_i hx
      obtain ⟨hopc, htag⟩ := (Bool.and_eq_true _ _).mp hx
      cases h
      exact ⟨List.contains_iff_mem.1 hopc, of_decide_eq_true htag⟩
    · obtain ⟨r, hr, he⟩ := Option.map_eq_some_iff.1 h
      obtain ⟨a, b⟩ := r
      cases he
      exact ih hr

/-- Credit returns leave the requests in progress and the BINVs outstanding. -/
theorem Txl.returnCredits_same (n : Nat) (x : Txl) : (Txl.returnCredits n x).binvs = x.binvs ∧ (Txl.returnCredits n x).reqs = x.reqs := by
  induction n generalizing x with
  | zero => exact ⟨rfl, rfl⟩
  | succ n ih =>
    rw [Txl.returnCredits]
    split
    · exact ⟨rfl, rfl⟩
    · exact ih x.control

theorem Txl.pair_same (x : Txl) : x.pair.binvs = x.binvs ∧ x.pair.reqs = x.reqs := by
  rw [Txl.pair]
  split <;> exact ⟨rfl, rfl⟩

theorem Txl.freed_same (x : Txl) (m : TxlMsg) : (x.freed m).binvs = x.binvs ∧ (x.freed m).reqs = x.reqs := by
  rw [Txl.freed]
  split <;> exact ⟨rfl, rfl⟩

namespace State

section
variable {β : Type} (g : State → β) (hg : ∀ (s : State) x, g { s with txl := x } = g s) (s : State)
include hg

theorem txlReturn_same : g s.txlReturn = g s := by
  rw [txlReturn]
  split
  · rfl
  · exact hg s _

theorem txlSend_same : g s.txlSend = g s := by
  rw [txlSend]
  split
  · rfl
  · exact hg s _

theorem cmp_same (m : TxlMsg) (status : Nat) : g (s.cmp m status) = g s := (txlSend_same g hg _).trans (hg s _)

theorem cmpd_same (m : TxlMsg) (st : Nat) (bs : List Byte) : g (s.cmpd m st bs) = g s := (txlSend_same g hg _).trans (hg s _)

end

theorem binvs_txlReturn (s : State) : s.txlReturn.txl.binvs = s.txl.binvs := by
  rw [txlReturn]
  split
  · rfl
  · exact (Txl.pair_same _).1.trans (Txl.returnCredits_same ..).1

/-- The module once message `m` is taken and its slots are free. -/
def received (s : State) (m : TxlMsg) (rest : List TxlMsg) : State := { s with txl := { s.txl with rx := rest }.freed m }

theorem serveTxl_taken {s : State} {opcs : List Nat} {tag : Nat} {m : TxlMsg} {rest : List TxlMsg} (h : takeTxl opcs tag s.txl.rx = some (m, rest))
    (k : State → TxlMsg → State) : s.serveTxl opcs tag k = (k (s.received m rest) m).txlReturn := by
  rw [serveTxl, h]
  rfl

section
variable {s u : State} {m : TxlMsg} {rest : List TxlMsg} (hu : u = { s with txl := { s.txl with rx := rest }.freed m })
include hu

theorem serveTxl_received {opcs : List Nat} {tag : Nat} (h : takeTxl opcs tag s.txl.rx = some (m, rest)) (k : State → TxlMsg → State) :
    s.serveTxl opcs tag k = (k u m).txlReturn := hu ▸ serveTxl_taken h k

theorem decodeTxl_received (a : Nat) : u.decodeTxl a = s.decodeTxl a := hu ▸ rfl

end

/-- A message about a line that the directory does not hold. -/
theorem withLine_stale {u v : State} {m : TxlMsg} {w va pa : Nat} {coh : Bool} (ht : u.decodeTxl m.addr = .window w va)
    (htr : u.translateFor va .forWindow = (v, .ok pa coh)) (hl : v.lineOf m.addr (.ok pa coh) = none) (k : State → DirEntry → State) :
    u.withLine m k = v.cmpStale m := by
  rw [withLine, ht]
  dsimp only
  rw [htr, hl]

/-- A message about a line that the directory holds. -/
theorem withLine_held {u v : State} {m : TxlMsg} {w va : Nat} {tr : Trans} {d : DirEntry} (ht : u.decodeTxl m.addr = .window w va)
    (htr : u.translateFor va .forWindow = (v, tr)) (hl : v.lineOf m.addr tr = some d) (k : State → DirEntry → State) :
    u.withLine m k = k v d := by
  rw [withLine, ht]
  dsimp only
  rw [htr, hl]

/-! ### Translated requests -/

section
variable {u v : State} {m : TxlMsg} {w va pa : Nat} {coh : Bool}

theorem windowReq_barred (h : winRight w m.opc = false) : u.windowReq m w va = u.cmp m 2 := by
  rw [windowReq, h]
  rfl

variable (hr : winRight w m.opc = true)
include hr

theorem windowReq_noCoh (ht : u.translateFor va .forWindow = (v, .ok pa false)) (hopc : m.opc = 2 ∨ m.opc = 3) : u.windowReq m w va = v.cmp m 3 := by
  have hcached : ((decide (m.opc = 2) || decide (m.opc = 3)) && !false) = true := by
    rcases hopc with h | h
    · simp [h]
    · simp [h]
  rw [windowReq, hr, Bool.not_true, if_neg Bool.false_ne_true, ht]
  exact if_pos hcached

theorem windowReq_starts (ht : u.translateFor va .forWindow = (v, .ok pa coh)) (hopc : m.opc ≠ 2 ∧ m.opc ≠ 3 ∨ coh = true) :
    u.windowReq m w va = v.startReq m pa coh := by
  have hfree : ¬((decide (m.opc = 2) || decide (m.opc = 3)) && !coh) = true := by
    rcases hopc with ⟨h2, h3⟩ | h
    · simp [h2, h3]
    · simp [h]
  rw [windowReq, hr, Bool.not_true, if_neg Bool.false_ne_true, ht]
  exact if_neg hfree

omit hr in
/-- A request that has no line to recall and no way to wait for just enters those in progress. -/
theorem startReq_enters (h : m.opc = 1 ∨ m.opc = 4 ∧ coh = false ∨ (m.opc = 2 ∨ m.opc = 3) ∧ v.setFull (pa / 64) = false) :
    v.startReq m pa coh = { v with txl := { v.txl with reqs := v.txl.reqs ++ [{ msg := m, pa := pa, coh := coh }] } } := by
  have hfull (x : Txl) : ({ v with txl := x } : State).setFull (pa / 64) = v.setFull (pa / 64) := rfl
  rw [startReq]
  dsimp only
  rcases h with h | ⟨h, hc⟩ | ⟨h | h, hf⟩
  · rw [h]
    rfl
  · rw [h, if_pos rfl, hc]
    rfl
  · rw [h, if_neg (by decide), if_neg (by decide), hfull, hf]
    rfl
  · rw [h, if_neg (by decide), if_neg (by decide), hfull, hf]
    rfl

end

/-! ### Lines given up -/

/-- The directory after a line is given up rests on the directory, the BINVs outstanding and the requests in progress. -/
theorem giveWay_congr {s t : State} (hd : t.desk.directory = s.desk.directory) (hb : t.txl.binvs = s.txl.binvs) (hq : t.txl.reqs = s.txl.reqs)
    (line : Nat) : (t.giveWay line).desk.directory = (s.giveWay line).desk.directory := by
  have hdrop : (t.dirDrop line).desk.directory = (s.dirDrop line).desk.directory := congrArg (List.filter _) hd
  have hentry (l : Nat) : (t.dirDrop line).dirEntry l = (s.dirDrop line).dirEntry l := congrArg (List.find? _) hdrop
  rw [giveWay, giveWay]
  dsimp only
  simp only [hentry, hb, hq]
  split
  · exact hdrop
  · exact congrArg (· ++ _) hdrop

theorem giveWay_free {s : State} {line : Nat} (h : ∀ b ∈ s.txl.binvs, b.line = line → b.evictFor = none) : s.giveWay line = s.dirDrop line := by
  have hfind : (s.txl.binvs.find? fun b => b.line = line && b.evictFor.isSome) = none := by
    refine List.find?_eq_none.2 fun b hb hp => ?_
    obtain ⟨hl, he⟩ := (Bool.and_eq_true _ _).mp hp
    rw [h b hb (of_decide_eq_true hl)] at he
    exact Bool.false_ne_true he
  rw [giveWay, hfind]
  rfl

theorem giveWay_same {β : Type} (g : State → β) (hg : ∀ (s : State) d x, g { s with desk := { s.desk with directory := d }, txl := x } = g s)
    (s : State) (line : Nat) : g (s.giveWay line) = g s := by
  rw [giveWay]
  dsimp only
  split
  · exact hg s _ s.txl
  · exact (hg (s.dirDrop line) _ _).trans (hg s _ s.txl)

theorem binvs_giveWay (s : State) (line : Nat) : (s.giveWay line).txl.binvs = s.txl.binvs := by
  rw [giveWay]
  dsimp only
  split <;> rfl

/-- The line that a BIRSP brings is written. -/
def lineReturned (s : State) (line : Nat) (data : List Byte) : State := if data.isEmpty then s else s.deskPut (64 * line) (padTo 64 data)

theorem lineReturned_leaves (s : State) (line : Nat) (data : List Byte) :
    (s.lineReturned line data).desk.mem = (if data.isEmpty then s.desk.mem else s.desk.mem.writeBytes (64 * line) (padTo 64 data)) ∧
    (s.lineReturned line data).desk.directory = s.desk.directory ∧ (s.lineReturned line data).txl = s.txl := by
  rw [lineReturned]
  split <;> exact ⟨rfl, rfl, rfl⟩

/-! ### Requests that complete -/

section
variable {s u : State} {tag : Nat} {q : TxlReq} (hu : u = { s with txl := { s.txl with reqs := s.txl.reqs.erase q } })
include hu

theorem completeReq_performs (hq : s.txl.reqs.find? (fun q => q.msg.tag = tag) = some q)
    (hline : ¬(decide (q.msg.opc = 4) && q.coh && s.linesHeld q.pa 64 true) = true)
    (hway : ¬((decide (q.msg.opc = 2) || decide (q.msg.opc = 3)) && s.setFull (q.pa / 64)) = true) : s.completeReq tag = u.performReq q := by
  rw [completeReq, hq]
  dsimp only
  rw [if_neg hline, if_neg hway, hu]

variable (he : s.desk.ecc = []) (hl : s.desk.link = []) (ha : s.desk.astray = [])
include he hl ha

theorem deskRead_progress (a len : Nat) : u.deskRead a len = (u, []) := by
  exact readBlocks_clean (s := u) (by rw [hu]; exact he) (by rw [hu]; exact hl) (by rw [hu]; exact ha) _

/-- A line that no block in error meets, and that the companion does not hold, is granted. -/
theorem grantLine_new (hd : s.dirEntry (q.pa / 64) = none) :
    (u.grantLine q).desk.directory = s.desk.directory ++ [⟨q.pa / 64, grantState q.msg.opc, q.msg.addr⟩] ∧ (u.grantLine q).desk.mem = s.desk.mem := by
  have hentry : u.dirEntry (q.pa / 64) = none := by rw [hu]; exact hd
  have hdesk : u.desk = s.desk := by rw [hu]
  rw [grantLine]
  dsimp only
  rw [deskRead_progress hu he hl ha, hentry]
  rw [← hdesk]
  exact ⟨cmpd_same (fun t => t.desk.directory) (fun _ _ => rfl) _ _ _ _, cmpd_same (fun t => t.desk.mem) (fun _ _ => rfl) _ _ _ _⟩

theorem writeLine_clean (pa mask : Nat) (data : List Byte) :
    u.writeLine pa mask data = (u.deskPut pa (mergeLine mask 0 (u.deskBytes pa 64) (padTo 64 data)), true) := by
  rw [writeLine, deskRead_progress hu he hl ha, ite_self]
  rfl

end

end State

/-- Settles O51: what is taken is served by `windowReq_barred`, `windowReq_noCoh`, `windowReq_starts` or `withLine`, and a request that completes
by its opcode. -/
theorem txlRequests : Obligations.TxlRequests := by
  refine ⟨fun tag s u m rest hu => ⟨fun h => ⟨fun ht => ?_, fun off ht hoff => ?_, fun w va v pa coh ht hr htr => ?_⟩,
    fun h => ⟨fun off ht => ?_, fun w va v pa ht hr htr => ?_, fun w va v pa ht hr htr hf => ?_⟩,
    fun h => ⟨fun ht => ?_, fun w va ht hr => ?_, fun w va v pa ht hr htr hf => ?_⟩,
    fun h => ⟨fun ht => ?_, fun off ht hoff hl => ?_, fun ht hb => ?_, fun w va v pa ht hr htr => ?_⟩,
    fun h => ⟨fun ht => ?_, fun w va v pa coh ht htr hl => ?_, fun w va v tr d ht htr hl => ?_⟩,
    fun h => ⟨fun ht => ?_, fun w va v pa coh ht htr hl => ?_, fun w va v tr d ht htr hl => ?_⟩, fun h b d hb hdone hd => ?_⟩,
    fun tag s u q hq he hl ha hu => ⟨fun h1 => ?_, fun h2 hf hd => ?_, fun h3 hf hd => ?_, fun h23 hf => ?_, fun h4 hc hl => ?_, fun w va h4 hc ht => ?_⟩⟩
  case refine_1 =>
    rw [exec_rdu, execRdu, State.serveTxl_received hu h, State.rdu, State.decodeTxl_received hu, ht]
  case refine_2 =>
    rw [exec_rdu, execRdu, State.serveTxl_received hu h, State.rdu, State.decodeTxl_received hu, ht]
    dsimp only
    rw [State.controlRead, State.controlLine, if_pos hoff, if_pos hoff, hu]
  case refine_3 =>
    have hopc : m.opc = 1 := List.mem_singleton.1 (takeTxl_some h).1
    rw [exec_rdu, execRdu, State.serveTxl_received hu h, State.rdu, State.decodeTxl_received hu, ht]
    dsimp only
    rw [State.windowReq_starts (by rw [hopc, hr]) htr (Or.inl (by rw [hopc]; decide)), State.startReq_enters (Or.inl hopc)]
  case refine_4 =>
    rw [exec_rds, execRds, State.serveTxl_received hu h, State.readCached, State.decodeTxl_received hu, ht]
  case refine_5 =>
    have hopc : m.opc = 2 := List.mem_singleton.1 (takeTxl_some h).1
    rw [exec_rds, execRds, State.serveTxl_received hu h, State.readCached, State.decodeTxl_received hu, ht]
    dsimp only
    rw [State.windowReq_noCoh (by rw [hopc, hr]) htr (Or.inl hopc)]
  case refine_6 =>
    have hopc : m.opc = 2 := List.mem_singleton.1 (takeTxl_some h).1
    rw [exec_rds, execRds, State.serveTxl_received hu h, State.readCached, State.decodeTxl_received hu, ht]
    dsimp only
    rw [State.windowReq_starts (by rw [hopc, hr]) htr (Or.inr rfl), State.startReq_enters (Or.inr (Or.inr ⟨Or.inl hopc, hf⟩))]
  case refine_7 =>
    rw [exec_rdx, execRdx, State.serveTxl_received hu h, State.readCached, State.decodeTxl_received hu, ht]
  case refine_8 =>
    have hopc : m.opc = 3 := List.mem_singleton.1 (takeTxl_some h).1
    rw [exec_rdx, execRdx, State.serveTxl_received hu h, State.readCached, State.decodeTxl_received hu, ht]
    dsimp only
    rw [State.windowReq_barred (by rw [hopc, hr])]
  case refine_9 =>
    have hopc : m.opc = 3 := List.mem_singleton.1 (takeTxl_some h).1
    rw [exec_rdx, execRdx, State.serveTxl_received hu h, State.readCached, State.decodeTxl_received hu, ht]
    dsimp only
    rw [State.windowReq_starts (by rw [hopc, hr]) htr (Or.inr rfl), State.startReq_enters (Or.inr (Or.inr ⟨Or.inr hopc, hf⟩))]
  case refine_10 =>
    rw [exec_wr, execWr, State.serveTxl_received hu h, State.wr, State.decodeTxl_received hu, ht]
  case refine_11 =>
    have hheld : u.linesHeld (s.obj 0x2E01 0 + off) 64 true = false := by rw [hu]; exact hl
    have hobj : u.obj 0x2E01 0 = s.obj 0x2E01 0 := by rw [hu]; rfl
    rw [exec_wr, execWr, State.serveTxl_received hu h, State.wr, State.decodeTxl_received hu, ht]
    dsimp only
    rw [if_pos hoff, hobj, hheld, if_neg Bool.false_ne_true]
  case refine_12 =>
    rw [exec_wr, execWr, State.serveTxl_received hu h, State.wr, State.decodeTxl_received hu, ht]
    dsimp only
    rw [if_neg (by decide), State.controlWrite, if_pos rfl, if_pos hb]
  case refine_13 =>
    have hopc : m.opc = 4 := List.mem_singleton.1 (takeTxl_some h).1
    rw [exec_wr, execWr, State.serveTxl_received hu h, State.wr, State.decodeTxl_received hu, ht]
    dsimp only
    rw [State.windowReq_starts (by rw [hopc, hr]) htr (Or.inl (by rw [hopc]; decide)), State.startReq_enters (Or.inr (Or.inl ⟨hopc, rfl⟩))]
  case refine_14 =>
    rw [exec_wb, execWb, State.serveTxl_received hu h, State.wb, State.withLine, State.decodeTxl_received hu, ht]
  case refine_15 =>
    rw [exec_wb, execWb, State.serveTxl_received hu h, State.wb, State.withLine_stale ((State.decodeTxl_received hu _).trans ht) htr hl, State.cmpStale]
  case refine_16 =>
    rw [exec_wb, execWb, State.serveTxl_received hu h, State.wb, State.withLine_held ((State.decodeTxl_received hu _).trans ht) htr hl]
    have hdir : ((((v.deskPut (64 * d.line) (padTo 64 m.data)).giveWay d.line).binvDone d.line).cmp m 0).txlReturn.desk.directory =
        (v.giveWay d.line).desk.directory := by
      rw [State.txlReturn_same (fun t => t.desk.directory) fun _ _ => rfl, State.cmp_same (fun t => t.desk.directory) fun _ _ => rfl]
      exact State.giveWay_congr (s := v) (t := v.deskPut (64 * d.line) (padTo 64 m.data)) rfl rfl rfl d.line
    refine ⟨_, rfl, ?_, ?_, hdir, fun hfree => hdir.trans (by rw [State.giveWay_free hfree]; rfl)⟩
    · rw [State.txlReturn_same State.nibs fun _ _ => rfl, State.cmp_same State.nibs fun _ _ => rfl]
      exact State.giveWay_same State.nibs (fun _ _ _ => rfl) _ _
    · rw [State.txlReturn_same (fun t => t.desk.mem) fun _ _ => rfl, State.cmp_same (fun t => t.desk.mem) fun _ _ => rfl]
      exact State.giveWay_same (fun t => t.desk.mem) (fun _ _ _ => rfl) _ _
  case refine_17 =>
    rw [exec_cln, execCln, State.serveTxl_received hu h, State.cln, State.withLine, State.decodeTxl_received hu, ht]
  case refine_18 =>
    rw [exec_cln, execCln, State.serveTxl_received hu h, State.cln, State.withLine_stale ((State.decodeTxl_received hu _).trans ht) htr hl, State.cmpStale]
  case refine_19 =>
    rw [exec_cln, execCln, State.serveTxl_received hu h, State.cln, State.withLine_held ((State.decodeTxl_received hu _).trans ht) htr hl]
    have hdir : ((v.giveWay d.line).cmp m 0).txlReturn.desk.directory = (v.giveWay d.line).desk.directory := by
      rw [State.txlReturn_same (fun t => t.desk.directory) fun _ _ => rfl, State.cmp_same (fun t => t.desk.directory) fun _ _ => rfl]
    refine ⟨_, rfl, ?_, hdir, fun hfree => hdir.trans (by rw [State.giveWay_free hfree]; rfl)⟩
    rw [State.txlReturn_same (fun t => t.desk.mem) fun _ _ => rfl, State.cmp_same (fun t => t.desk.mem) fun _ _ => rfl]
    exact State.giveWay_same (fun t => t.desk.mem) (fun _ _ _ => rfl) _ _
  case refine_20 =>
    have hbinvs : u.txl.binvs = s.txl.binvs := by rw [hu]; exact (Txl.freed_same ..).1
    have hreqs : u.txl.reqs = s.txl.reqs := by rw [hu]; exact (Txl.freed_same ..).2
    have hdesk : u.desk = s.desk := by rw [hu]
    have hentry : (u.dirEntry b.line).isNone = false := by
      rw [State.dirEntry, hdesk, ← State.dirEntry, hd]
      rfl
    obtain ⟨hput, hsame⟩ := u.lineReturned_leaves b.line m.data
    have hserve : exec (.birsp tag) s = .next (({ (u.lineReturned b.line m.data).giveWay b.line with
        txl := { ((u.lineReturned b.line m.data).giveWay b.line).txl with
          binvs := ((u.lineReturned b.line m.data).giveWay b.line).txl.binvs.filter fun x => x ≠ b } } : State).txlReturn) := by
      rw [exec_birsp, execBirsp, State.serveTxl_received hu h, State.birsp, hbinvs, hb]
      dsimp only
      rw [hdone, if_neg Bool.false_ne_true, hentry, if_neg Bool.false_ne_true]
      rfl
    have hdir : (u.lineReturned b.line m.data).desk.directory = s.desk.directory := by rw [hsame.1, hdesk]
    have hgive : ((u.lineReturned b.line m.data).giveWay b.line).desk.directory = (s.giveWay b.line).desk.directory :=
      State.giveWay_congr hdir (by rw [hsame.2, hbinvs]) (by rw [hsame.2, hreqs]) _
    refine ⟨_, hserve, ?_, ?_, fun hfree => ?_, ?_⟩
    · rw [State.binvs_txlReturn]
      dsimp only
      rw [State.binvs_giveWay, hsame.2, hbinvs]
    · rw [State.txlReturn_same (fun t => t.desk.directory) fun _ _ => rfl]
      exact hgive
    · rw [State.txlReturn_same (fun t => t.desk.directory) fun _ _ => rfl]
      exact hgive.trans (by rw [State.giveWay_free hfree]; rfl)
    · rw [State.txlReturn_same (fun t => t.desk.mem) fun _ _ => rfl]
      refine (State.giveWay_same (fun t => t.desk.mem) (fun _ _ _ => rfl) _ _).trans ?_
      rw [hput, hdesk, ← (s.lineReturned_leaves b.line m.data).1, State.lineReturned]
  case refine_21 =>
    rw [exec_txlRequestCompletion, execTxlRequestCompletion, State.completeReq_performs hu hq (by simp [h1]) (by simp [h1]), State.performReq, h1]
    dsimp only
    rw [State.deskRead_progress hu he hl ha]
    exact congrArg (fun d => Host.Outcome.next (u.cmpd q.msg 0 (d.mem.readBytes q.pa 64))) (show u.desk = s.desk by rw [hu])
  case refine_22 =>
    rw [exec_txlRequestCompletion, execTxlRequestCompletion, State.completeReq_performs hu hq (by simp [h2]) (by simp [hf]), State.performReq, h2]
    obtain ⟨hdir, hmem⟩ := State.grantLine_new hu he hl ha hd
    rw [h2] at hdir
    exact ⟨_, rfl, hdir, hmem⟩
  case refine_23 =>
    rw [exec_txlRequestCompletion, execTxlRequestCompletion, State.completeReq_performs hu hq (by simp [h3]) (by simp [hf]), State.performReq, h3]
    obtain ⟨hdir, hmem⟩ := State.grantLine_new hu he hl ha hd
    rw [h3] at hdir
    exact ⟨_, rfl, hdir, hmem⟩
  case refine_24 =>
    rw [exec_txlRequestCompletion, execTxlRequestCompletion, State.completeReq, hq]
    dsimp only
    rw [if_neg (by rcases h23 with h | h <;> simp [h]), if_pos (by rcases h23 with h | h <;> simp [h, hf])]
  case refine_25 =>
    rw [exec_txlRequestCompletion, execTxlRequestCompletion, State.completeReq, hq]
    dsimp only
    rw [if_pos (by simp [h4, hc, hl])]
  case refine_26 =>
    rw [exec_txlRequestCompletion, execTxlRequestCompletion, State.completeReq_performs hu hq (by simp [hc]) (by simp [h4]), State.performReq, h4]
    dsimp only
    rw [show u.decodeTxl q.msg.addr = s.decodeTxl q.msg.addr by rw [hu]; rfl, ht]
    dsimp only
    rw [State.writeLine_clean hu he hl ha]
    refine ⟨_, rfl, (State.cmp_same (fun t => t.desk.mem) (fun _ _ => rfl) _ _ _).trans ?_⟩
    exact congrArg (fun d => d.mem.writeBytes q.pa (mergeLine q.msg.arg 0 (d.mem.readBytes q.pa 64) (padTo 64 q.msg.data))) (show u.desk = s.desk by rw [hu])

end Sys2Proof.Machine
end

section
/-! Proof of the statement on the Tamyx Link (14 R407-R413, R418, R425). -/

namespace Sys2Proof.Machine

/-! ### What sending leaves of what was received -/

/-- What the receiver of the link keeps: the FSEQ expected, NAK, the companion's NAK, the flits not acknowledged and the messages. -/
def Txl.heard (x : Txl) : Nat × Bool × Bool × Nat × List TxlMsg := (x.expect, x.nak, x.nakLevel, x.fresh, x.rx)

namespace Txl

theorem heard_pair (x : Txl) : x.pair.heard = x.heard := by
  rw [pair]
  split <;> rfl

theorem heard_returnCredits (n : Nat) (x : Txl) : (returnCredits n x).heard = x.heard := by
  induction n generalizing x with
  | zero => rfl
  | succ n ih =>
    rw [returnCredits]
    split
    · rfl
    · exact ih x.control

theorem heard_flush (now : Nat) (ms : List (TxlMsg × Bool)) (noReq noRsp : Bool) (x : Txl) : (flush now noReq noRsp ms x).heard = x.heard := by
  induction ms generalizing noReq noRsp x with
  | nil => rfl
  | cons e ms ih =>
    obtain ⟨m, prompt⟩ := e
    rw [flush]
    generalize (if m.isBinv then noReq else noRsp) = blocked
    cases !blocked && x.affords m prompt
    · exact ih _ _ { x with out := x.out ++ [(m, prompt)] }
    · exact ih _ _ (x.put m now)

theorem heard_spent (x : Txl) (m : TxlMsg) : (x.spent m).heard = x.heard := by
  rw [spent]
  split <;> rfl

theorem heard_freed (x : Txl) (m : TxlMsg) : (x.freed m).heard = x.heard := by
  rw [freed]
  split <;> rfl

theorem heard_foldl {f : Txl → TxlMsg → Txl} (hf : ∀ x m, (f x m).heard = x.heard) (ms : List TxlMsg) (x : Txl) : (ms.foldl f x).heard = x.heard := by
  induction ms generalizing x with
  | nil => rfl
  | cons m ms ih => exact (ih _).trans (hf x m)

theorem mem_wire_pair {x : Txl} {f : TxlSent} (h : f ∈ x.wire) : f ∈ x.pair.wire := by
  rw [pair]
  split
  · exact h
  · exact List.mem_append_left _ h

theorem mem_wire_control (x : Txl) : ⟨x.header 2 0 x.creditReturn, []⟩ ∈ x.control.wire := List.mem_append_right _ List.mem_cons_self

end Txl

namespace State

theorem heard_txlSend (s : State) : s.txlSend.txl.heard = s.txl.heard := by
  rw [txlSend]
  split
  · rfl
  · exact (Txl.heard_pair _).trans (Txl.heard_flush ..)

theorem heard_txlReturn (s : State) : s.txlReturn.txl.heard = s.txl.heard := by
  rw [txlReturn]
  split
  · rfl
  · exact (Txl.heard_pair _).trans (Txl.heard_returnCredits ..)

/-! ### A flit arrives -/

/-- The module with the bytes of a flit that FEC corrected counted. -/
def corrected (s : State) (n : Nat) : State := if n = 0 then s else s.bump 0x80E0 0 n

theorem corrected_same {β : Type} (g : State → β) (hg : ∀ (s : State) i n, g (s.bump i 0 n) = g s) (s : State) (n : Nat) :
    g (s.corrected n) = g s := by
  rw [corrected]
  split
  · rfl
  · exact hg ..

theorem obj_corrected {s : State} {n : Nat} (h : n ≠ 0) : (s.corrected n).obj 0x80E0 0 = (s.obj 0x80E0 0 + n) % 2 ^ 64 := by
  rw [corrected, if_neg h, obj_bump]

theorem obj_corrected_rejected (s : State) (n : Nat) : (s.corrected n).obj 0x80E1 0 = s.obj 0x80E1 0 := by
  rw [corrected]
  split
  · rfl
  · exact obj_bump_index (i := 0x80E0) (u := 0) _ (by decide) (by decide) (by decide) _

theorem takeFlit_up {s : State} (h : s.txl.link = .up) {b : List Byte} {u : State} (hu : s.corrected (readFlit b).corrected = u) :
    s.takeFlit b =
      match (readFlit b).good with
      | none => u.rejectFlit
      | some f => if field f.hdr 31 30 = 1 && field f.hdr 29 20 ≠ u.txl.expect then u.rejectFlit else
        (if field f.hdr 31 30 = 1 then (({ u with txl := u.txl.takeHeader f.hdr } : State).acceptFlit f.slots).txlReturn
          else { u with txl := u.txl.takeHeader f.hdr }).txlSend := by
  rw [takeFlit, if_neg (not_not_intro h), ← hu]
  rfl

theorem rejectFlit_leaves (s : State) : s.rejectFlit.txl.nak = true ∧ s.rejectFlit.txl.expect = s.txl.expect ∧ s.rejectFlit.txl.rx = s.txl.rx ∧
    s.rejectFlit.obj 0x80E1 0 = (s.obj 0x80E1 0 + 1) % 2 ^ 64 ∧
    (s.txl.nak = false → ⟨{ s.txl with nak := true }.header 2 0 s.txl.creditReturn, []⟩ ∈ s.rejectFlit.txl.wire) := by
  have hh : s.rejectFlit.txl.heard = { s.txl with nak := true }.heard := by
    rw [rejectFlit]
    dsimp only
    split
    · rfl
    · exact Txl.heard_pair _
  simp only [Txl.heard, Prod.mk.injEq] at hh
  obtain ⟨hexp, hnak, -, -, hrx⟩ := hh
  refine ⟨hnak, hexp, hrx, ?_, fun h => ?_⟩
  · rw [rejectFlit, obj_bump]
    rfl
  · rw [rejectFlit]
    dsimp only
    rw [h, if_neg Bool.false_ne_true]
    exact Txl.mem_wire_pair (Txl.mem_wire_control { s.txl with nak := true })

section
variable {s : State} (hup : s.txl.link = .up) {b : List Byte}
include hup

theorem takeFlit_rejects (h : (readFlit b).good = none ∨
      ∃ f, (readFlit b).good = some f ∧ field f.hdr 31 30 = 1 ∧ field f.hdr 29 20 ≠ s.txl.expect) :
    s.takeFlit b = (s.corrected (readFlit b).corrected).rejectFlit := by
  have hx : (s.corrected (readFlit b).corrected).txl = s.txl := corrected_same State.txl (fun _ _ _ => rfl) ..
  rw [takeFlit_up hup rfl]
  rcases h with h | ⟨f, h, ht, hs⟩
  · rw [h]
  · rw [h]
    dsimp only
    rw [hx, if_pos (by simp [ht, hs])]

theorem takeFlit_takes {f : TxlSent} (h : (readFlit b).good = some f) (ht : field f.hdr 31 30 = 1) (hs : field f.hdr 29 20 = s.txl.expect) :
    s.takeFlit b = (({ s.corrected (readFlit b).corrected with txl := s.txl.takeHeader f.hdr } : State).acceptFlit f.slots).txlReturn.txlSend := by
  have hx : (s.corrected (readFlit b).corrected).txl = s.txl := corrected_same State.txl (fun _ _ _ => rfl) ..
  rw [takeFlit_up hup rfl, h]
  dsimp only
  rw [hx, if_neg (by simp [hs]), if_pos ht]

theorem takeFlit_reads {f : TxlSent} (h : (readFlit b).good = some f) (ht : field f.hdr 31 30 ≠ 1) :
    s.takeFlit b = ({ s.corrected (readFlit b).corrected with txl := s.txl.takeHeader f.hdr } : State).txlSend := by
  have hx : (s.corrected (readFlit b).corrected).txl = s.txl := corrected_same State.txl (fun _ _ _ => rfl) ..
  rw [takeFlit_up hup rfl, h]
  dsimp only
  rw [hx, if_neg (by simp [ht]), if_neg ht]

end

theorem heard_takeHeader (x : Txl) (h : Nat) : (x.takeHeader h).heard = (x.expect, x.nak, bit h 8, x.fresh, x.rx) := rfl

theorem heard_acceptFlit (s : State) (slots : List Byte) : (s.acceptFlit slots).txl.heard =
    ((s.txl.expect + 1) % 1024, false, s.txl.nakLevel, s.txl.fresh + 1, s.txl.rx ++ (flitMsgs 15 15 (padTo 240 slots)).1) := by
  rw [acceptFlit]
  split
  · exact (Txl.heard_foldl Txl.heard_freed _ _).trans (Txl.heard_foldl Txl.heard_spent _ _)
  · exact (Txl.heard_foldl Txl.heard_freed _ _).trans (Txl.heard_foldl Txl.heard_spent _ _)

theorem acceptFlit_same {β : Type} (g : State → β) (hg : ∀ (s : State) x, g { s with txl := x } = g s) (hb : ∀ (s : State) k, g (s.bump 0x80E3 0 k) = g s)
    (s : State) (slots : List Byte) : g (s.acceptFlit slots) = g s := by
  rw [acceptFlit]
  split
  · exact hg ..
  · exact (hb ..).trans (hg ..)

/-- What a flit with bytes corrected counts at 0x80E0. -/
theorem obj_takeFlit_corrected {s : State} (hup : s.txl.link = .up) {b : List Byte} (h : (readFlit b).corrected ≠ 0) :
    (s.takeFlit b).obj 0x80E0 0 = (s.obj 0x80E0 0 + (readFlit b).corrected) % 2 ^ 64 := by
  have hx (t : State) (x : Txl) : ({ t with txl := x } : State).obj 0x80E0 0 = t.obj 0x80E0 0 := rfl
  have hsend (t : State) : t.txlSend.obj 0x80E0 0 = t.obj 0x80E0 0 := txlSend_same (fun t => t.obj 0x80E0 0) hx t
  have hreturn (t : State) : t.txlReturn.obj 0x80E0 0 = t.obj 0x80E0 0 := txlReturn_same (fun t => t.obj 0x80E0 0) hx t
  have hreject (t : State) : t.rejectFlit.obj 0x80E0 0 = t.obj 0x80E0 0 :=
    (obj_bump_index (i := 0x80E1) (u := 0) _ (by decide) (by decide) (by decide) _).trans (hx ..)
  have haccept (t : State) (sl : List Byte) : (t.acceptFlit sl).obj 0x80E0 0 = t.obj 0x80E0 0 :=
    acceptFlit_same (fun t => t.obj 0x80E0 0) hx (fun _ k => obj_bump_index (i := 0x80E3) (u := 0) _ (by decide) (by decide) (by decide) k) t sl
  rw [← obj_corrected h, takeFlit_up hup rfl]
  split
  · exact hreject _
  · split
    · exact hreject _
    · split
      · rw [hsend, hreturn, haccept, hx]
      · rw [hsend, hx]

/-! ### The link goes down -/

theorem txlDown_leaves (s : State) : s.txlDown.txl.link = .down ∧ s.txlDown.desk.directory = [] ∧ s.txlDown.txl.kept = [] ∧ s.txlDown.txl.binvs = [] ∧
    s.txlDown.obj 0x80E5 0 = (s.obj 0x80E5 0 + 1) % 2 ^ 64 ∧ s.txlDown.desk.mem = s.desk.mem ∧ s.txlDown.txl.rspBuf = s.txl.rspBuf := by
  refine ⟨rfl, rfl, rfl, rfl, ?_, rfl, rfl⟩
  rw [txlDown, obj_bump]
  rfl

theorem loseTxl_up {s : State} (h : s.txl.link = .up) : s.loseTxl = s.txlDown := by rw [loseTxl, h]

theorem exec_txlFlitTimeout_late {s : State} (h : ∃ k ∈ s.txl.kept, k.sent + 10000 ≤ s.now) : exec .txlFlitTimeout s = .next s.txlDown := by
  rw [exec_txlFlitTimeout, execTxlFlitTimeout, if_pos]
  simpa using h

theorem exec_binvTimeout_late {s : State} (h : ∃ b ∈ s.txl.binvs, b.done = false ∧ b.sent + s.obj 0x4E00 0 ≤ s.now) :
    exec .binvTimeout s = .next s.txlDown := by
  rw [exec_binvTimeout, execBinvTimeout, if_pos]
  simpa using h

/-! ### The mailbox buffers -/

theorem clearRsp_idle {s : State} (h : s.txl.rspWait = []) : s.clearRsp = { s with txl := { s.txl with rsp := false } } := by
  rw [clearRsp, placeRsp]
  dsimp only
  rw [h]

theorem clearRsp_next {s : State} {m : List Byte} {ms : List (List Byte)} (h : s.txl.rspWait = m :: ms) : s.clearRsp =
    { s with txl := { s.txl with rsp := true, rspWait := ms, rspBuf := Memory.writeBytes [] 0 (padTo mailboxSize m) } } := by
  rw [clearRsp, placeRsp]
  dsimp only
  rw [h]

theorem clearEvt_idle {s : State} (h : s.txl.evtWait = []) : s.clearEvt = { s with txl := { s.txl with evt := false } } := by
  rw [clearEvt, placeEvt]
  dsimp only
  rw [h]

theorem clearEvt_next {s : State} {m : List Byte} {ms : List (List Byte)} (h : s.txl.evtWait = m :: ms) : s.clearEvt =
    { s with txl := { s.txl with evt := true, evtWait := ms, evtBuf := Memory.writeBytes [] 0 (padTo mailboxSize m) } } := by
  rw [clearEvt, placeEvt]
  dsimp only
  rw [h]

end State

/-- Settles O52: each flit by what `takeFlit` makes of it, with what sending leaves of the receiver's side; the rest by cases of
the link's own conditions. -/
theorem txlLink : Obligations.TxlLink := by
  unfold Obligations.TxlLink
  refine ⟨fun b s hup => ⟨fun h => ⟨_, rfl, State.obj_takeFlit_corrected hup h⟩, fun h => ⟨_, rfl, ?_⟩, fun f h ht hs => ⟨_, rfl, ?_⟩,
    fun f h ht => ⟨_, rfl, ?_⟩⟩, fun s => ⟨fun h => ?_, fun hs hk => ?_, fun h => ?_, fun h => ?_, fun c h => ?_, fun r d q hl hb => ⟨fun h => ?_, fun hr hd => ?_⟩,
    fun hl hb => ?_, fun hl hw => ?_, fun m ms hl hw => ?_, fun hl hw => ?_, fun m ms hl hw => ?_⟩⟩
  · have hx : (s.corrected (readFlit b).corrected).txl = s.txl := State.corrected_same State.txl (fun _ _ _ => rfl) ..
    rw [State.takeFlit_rejects hup h, ← hx, ← State.obj_corrected_rejected s (readFlit b).corrected]
    exact State.rejectFlit_leaves _
  · rw [State.takeFlit_takes hup h ht hs]
    have hh := (State.heard_txlSend _).trans ((State.heard_txlReturn _).trans
      (State.heard_acceptFlit ({ s.corrected (readFlit b).corrected with txl := s.txl.takeHeader f.hdr } : State) f.slots))
    simp only [Txl.heard, Prod.mk.injEq] at hh
    obtain ⟨hexp, hnak, -, hfresh, hrx⟩ := hh
    refine ⟨hexp, hnak, hfresh, hrx, ?_, ?_⟩
    · rw [State.txlSend_same State.nibs fun _ _ => rfl, State.txlReturn_same State.nibs fun _ _ => rfl,
        State.acceptFlit_same State.nibs (fun _ _ => rfl) fun _ _ => rfl]
      exact State.corrected_same State.nibs (fun _ _ _ => rfl) ..
    · rw [State.txlSend_same State.desk fun _ _ => rfl, State.txlReturn_same State.desk fun _ _ => rfl,
        State.acceptFlit_same State.desk (fun _ _ => rfl) fun _ _ => rfl]
      exact State.corrected_same State.desk (fun _ _ _ => rfl) ..
  · rw [State.takeFlit_reads hup h ht]
    have hh := (State.heard_txlSend ({ s.corrected (readFlit b).corrected with txl := s.txl.takeHeader f.hdr } : State)).trans
      (State.heard_takeHeader s.txl f.hdr)
    simp only [Txl.heard, Prod.mk.injEq] at hh
    obtain ⟨hexp, -, hlevel, -, hrx⟩ := hh
    exact ⟨hrx, hexp, hlevel⟩
  · rw [exec_txlAckAdvance, execTxlAckAdvance, State.txlAck]
    dsimp only
    rw [if_pos (by simpa using h)]
  · rw [exec_txlReplay, execTxlReplay, State.txlReplay]
    dsimp only
    rw [hs, Bool.not_true, if_neg Bool.false_ne_true, if_neg (by simpa using hk)]
  · rw [exec_txlReplay, execTxlReplay, State.txlReplay]
    rw [h, Bool.not_false, if_pos rfl]
  · rw [exec_txlLinkDown, execTxlLinkDown, State.loseTxl, h]
  · have hdown : exec c s = .next s.txlDown := by
      rcases h with ⟨rfl, h⟩ | ⟨rfl, h⟩ | ⟨rfl, h⟩
      · rw [exec_txlLinkDown, execTxlLinkDown, State.loseTxl_up h]
      · exact State.exec_txlFlitTimeout_late h
      · exact State.exec_binvTimeout_late h
    exact ⟨_, hdown, State.txlDown_leaves s⟩
  · rw [exec_txlLinkUp, execTxlLinkUp, State.txlUp, if_neg (by simp [hl, hb]), if_pos (by simpa using h)]
  · rw [exec_txlLinkUp, execTxlLinkUp, State.txlUp, if_neg (by simp [hl, hb]), if_neg (by simp; omega)]
    exact ⟨_, rfl, rfl, rfl, rfl, rfl, rfl, rfl⟩
  · rw [exec_mailboxSubmit, execMailboxSubmit, State.submitMailbox, if_neg (by simp [hl, hb])]
  · rw [exec_mailboxRspClear, execMailboxRspClear, if_pos hl, State.clearRsp_idle hw]
  · rw [exec_mailboxRspClear, execMailboxRspClear, if_pos hl, State.clearRsp_next hw]
  · rw [exec_mailboxEvtClear, execMailboxEvtClear, if_pos hl, State.clearEvt_idle hw]
  · rw [exec_mailboxEvtClear, execMailboxEvtClear, if_pos hl, State.clearEvt_next hw]

end Sys2Proof.Machine
end

section
/-! Proof of the statement on the management port, SMBus and PMBus (14 R426-R429; 15 R440; 16 R453, R455). -/

namespace Sys2Proof.Machine

namespace State

/-! ### The management port -/

section
variable {s : State} (hr : s.boot.phase = .running)
include hr

theorem exec_mgmtFrame (f : MgmtFrame) : exec (.mgmtFrameReceive f) s = .next ((s.bump 0x80F0 0 1).serveFrame f) := by
  rw [exec_mgmtFrameReceive, execMgmtFrameReceive, takeMgmt, if_neg (not_not_intro hr)]

omit hr in
theorem obj_counted {i : Nat} (u : Nat) (hi : i ≠ 0x80F0) (hu : u < 256) : (s.bump 0x80F0 0 1).obj i u = s.obj i u :=
  obj_bump_index (i := 0x80F0) (u := 0) _ hi (by decide) hu _

theorem exec_arp (ip : List Byte) : exec (.mgmtFrameReceive (.arp ip)) s =
    .next (if ip = s.blob 0x1001 2 4 then (s.bump 0x80F0 0 1).mgmtSend (.arp ip) else s.bump 0x80F0 0 1) := exec_mgmtFrame hr _

theorem exec_lap_served {dst : List Byte} (hdst : s.ownAddress dst = true) (ip : List Byte) (sp : Nat) (m : List Byte) :
    exec (.mgmtFrameReceive (.lap (.udp ip sp) dst (s.obj 0x1001 1) false m)) s = .next ((s.bump 0x80F0 0 1).lapArrive (.udp ip sp) m) := by
  have hown : (s.bump 0x80F0 0 1).ownAddress dst = true := hdst
  rw [exec_mgmtFrame hr, serveFrame, if_neg (by simp [hown, obj_counted])]

theorem exec_lap_dropped {src : Source} {dst : List Byte} {port : Nat} {frag : Bool} (h : s.ownAddress dst = false ∨ port ≠ s.obj 0x1001 1 ∨ frag = true)
    (m : List Byte) : exec (.mgmtFrameReceive (.lap src dst port frag m)) s = .next ((s.bump 0x80F0 0 1).bump 0x80F1 0 1) := by
  have hown : (s.bump 0x80F0 0 1).ownAddress dst = s.ownAddress dst := rfl
  have hport : (s.bump 0x80F0 0 1).obj 0x1001 1 = s.obj 0x1001 1 := obj_counted 1 (by decide) (by decide)
  have hbarred : (frag || !s.ownAddress dst || decide (port ≠ s.obj 0x1001 1) || decide (src = .mailbox)) = true := by
    rcases h with h | h | h
    · simp [h]
    · simp [h]
    · simp [h]
  rw [exec_mgmtFrame hr, serveFrame, hown, hport, if_pos hbarred, dropFrame]

theorem exec_ptp (p : PtpFrame) : exec (.mgmtFrameReceive (.ptp p)) s =
    .next (if (p.ipv6 = true ↔ s.obj 0x4702 0 = 1) then (s.bump 0x80F0 0 1).takePtp p else (s.bump 0x80F0 0 1).bump 0x80F1 0 1) := by
  have hver : (s.bump 0x80F0 0 1).obj 0x4702 0 = s.obj 0x4702 0 := obj_counted 0 (by decide) (by decide)
  rw [exec_mgmtFrame hr, serveFrame, hver, dropFrame]
  congr 1
  exact ite_congr (propext (by cases p.ipv6 <;> simp)) (fun _ => rfl) fun _ => rfl

theorem exec_autonegotiation (f : Bool) :
    exec (.mgmtAutonegotiation f) s = .next (s.setObj 0x2F02 0 (if s.obj 0x2F01 0 = 1 && f then 1 else 0)) := by
  rw [exec_mgmtAutonegotiation, execMgmtAutonegotiation, if_neg (not_not_intro hr)]

/-! ### The buses -/

theorem busRead_answers (r : List Byte) : s.busRead true r = s.busReply (some r) := by
  rw [busRead, if_pos (by simp [hr])]

end

theorem busRead_refuses (s : State) (r : List Byte) : s.busRead false r = s.busReply none := rfl

end State

/-- A block starts with its count. -/
theorem busBlock_of_length {b : List Byte} {n : Nat} (h : b.length = n) : busBlock b = BitVec.ofNat 8 n :: b := by
  rw [busBlock, h]
  rfl

/-- Settles O53: each frame by the row of `serveFrame`, each read by `busRead` with and without PEC. -/
theorem managementPorts : Obligations.ManagementPorts := by
  unfold Obligations.ManagementPorts
  refine ⟨fun s hr => ⟨State.exec_mgmtFrame hr _, fun ip h => ?_, fun ip h => ?_, fun ip sp dst m hd => State.exec_lap_served hr hd ip sp m,
    fun src dst port frag m h => State.exec_lap_dropped hr h m, fun p h => ?_, fun p h => ?_, State.exec_autonegotiation hr⟩,
    fun s sensors a b c hr => ?_, fun s c h => ?_, fun s hr => ⟨⟨_, bytesLE 6 s.free, rfl, ?_, length_bytesLE .., rfl⟩, ?_⟩, fun s sensors a b c => ?_,
    fun s code => rfl⟩
  · rw [State.exec_arp hr, if_pos h]
  · rw [State.exec_arp hr, if_neg h]
  · rw [State.exec_ptp hr, if_pos h]
  · rw [State.exec_ptp hr, if_neg h]
  · have hread (r : List Byte) : (.next (s.busRead true r) : Out) = .next (s.busReply (some r)) := by rw [State.busRead_answers hr]
    have hserial : (.next (s.busRead true (busBlock (bytesLE 8 s.fuses.serial))) : Out) = .next (s.busReply (some (8 :: bytesLE 8 s.fuses.serial))) := by
      rw [State.busRead_answers hr, busBlock_of_length (length_bytesLE ..)]
      rfl
    have hrecovery : exec (.recoveryState true) s = .next (s.busReply (some (bytesLE 2 (unsigned 16 (s.recoveryState : Nat))))) := by
      rw [exec_recoveryState, execRecoveryState, hr]
      exact hread _
    simp only [List.forall_mem_cons]
    exact ⟨hread _, hrecovery, hread _, hread _, hread _, hserial, hread _, hread _, hread _, hread _, hread _, hread _, hread _, hread _, by simp⟩
  · rw [exec_recoveryState, execRecoveryState, h]
    rfl
  · rw [State.busRead_answers (s := s.took) hr, busBlock_of_length (n := 16) (by simp [length_padTo, State.blob])]
    rfl
  · rw [exec_clearFaults, execClearFaults, if_pos (by simp [hr])]
  · have hrecovery : exec (.recoveryState false) s = .next (s.busReply none) := by
      rw [exec_recoveryState, execRecoveryState]
      split <;> rfl
    simp only [List.forall_mem_cons]
    exact ⟨rfl, hrecovery, rfl, rfl, rfl, rfl, rfl, rfl, rfl, rfl, rfl, rfl, rfl, rfl, rfl, by simp⟩

end Sys2Proof.Machine
end

section
/-! Proof of the statement on boot and the firmware commands (15 R431-R441). -/

namespace Sys2Proof.Machine

namespace State

variable (s : State)

/-! ### Power-up -/

theorem pin_setPin (p : Nat) (x : Pin) : (s.setPin p x).pin p = x := SMap.get_set_same _ _ _ _

theorem powerUp_off (h : s.boot.phase = .off) : s.powerUp.boot.phase = .held ∧ s.powerUp.pins.pwrGood = true ∧ s.powerUp.pins.tripped = false ∧
    (s.powerUp.pin 3).level = true ∧ s.powerUp.fuses = s.fuses ∧ s.powerUp.flash = s.flash := by
  have hpin : s.powerUp.pin 3 = (s.setPin 3 { s.pin 3 with level := true, armed := false, since := s.now }).pin 3 := by
    rw [powerUp, h]
    rfl
  rw [hpin, pin_setPin, powerUp, h]
  exact ⟨rfl, rfl, rfl, rfl, rfl, rfl⟩

theorem leaveReset_boots {s : State} (hh : s.boot.phase = .held) (ho : s.heldOutside = false) :
    s.leaveReset = { s with boot := { s.boot with phase := .booting, started := s.now } } := by
  rw [leaveReset, if_pos (by simp [hh, ho])]

theorem heldOutside_free {s : State} (hl : (s.pin 3).level = false) (hp : s.pins.pwrGood = true) (ht : s.tap.instr = .idcode) :
    s.heldOutside = false := by
  rw [pin] at hl
  rw [heldOutside, hl, hp, ht]
  rfl

theorem powerUp_held {s : State} (h : s.boot.phase = .held) :
    s.powerUp = ({ s with pins := { s.pins with pwrGood := true } } : State).leaveReset := by rw [powerUp, h]

/-! ### The boot sequence -/

section
variable {β : Type} (g : State → β)

theorem trainDesk_same (hg : ∀ (t : State) d os, g { t with desk := d, objs := os } = g t) : g s.trainDesk = g s := by
  have hdesk (t : State) d : g { t with desk := d } = g t := hg t d t.objs
  rw [trainDesk]
  dsimp only
  split
  · exact hdesk ..
  · split
    · exact hdesk ..
    · exact (hg _ _ _).trans (hdesk s _)

theorem startDesk_same (hg : ∀ (t : State) d r os, g { t with desk := d, recovery := r, objs := os } = g t) : g s.startDesk = g s := by
  have hsave (t : State) : g t.saveHeader = g t := t.saveHeader_same g fun t d k => hg t d { t.recovery with savedMs := k } t.objs
  have hset (t : State) (i u v : Nat) : g (t.setObj i u v) = g t := hg t t.desk t.recovery _
  have hrec (t : State) r : g { t with recovery := r } = g t := hg t t.desk r t.objs
  rw [startDesk]
  dsimp only
  split
  · rw [hset, hset, hrec]
  · rw [hsave, hset, hset, hrec]

theorem startLinks_same (hu : ∀ (t : State) q (f : Quill → Quill), (∀ x, (f x).port = x.port) → g (t.updQuill q f) = g t)
    (he : ∀ (t : State) a x f, g { t with agent := a, txl := x, fresh := f } = g t) : g s.startLinks = g s :=
  foldl_same g _ (fun t q => by
    split
    · exact t.trainQuill_same q g (fun t f => hu t q f) he false
    · rfl) _ s

end

theorem trainDesk_leaves : s.trainDesk.desk.eccOn = decide (s.obj 0x2620 0 = 1) ∧ s.trainDesk.desk.selfRefresh = false := by
  have hset (t : State) (i u v : Nat) : (t.setObj i u v).desk = t.desk := rfl
  rw [trainDesk]
  generalize decide (s.obj 0x2620 0 = 1) = on
  dsimp only
  split
  · rename_i h
    exact ⟨h.symm, rfl⟩
  · split
    · exact ⟨rfl, rfl⟩
    · rw [hset]
      exact ⟨rfl, rfl⟩

theorem startDesk_leaves : s.startDesk.desk.eccOn = s.desk.eccOn ∧ s.startDesk.desk.selfRefresh = s.desk.selfRefresh := by
  have hsave (t : State) : t.saveHeader.desk.eccOn = t.desk.eccOn ∧ t.saveHeader.desk.selfRefresh = t.desk.selfRefresh := by
    rw [saveHeader]
    dsimp only
    split <;> exact ⟨rfl, rfl⟩
  have hset (t : State) (i u v : Nat) : (t.setObj i u v).desk = t.desk := rfl
  rw [startDesk]
  dsimp only
  split
  · rw [hset, hset]
    exact ⟨rfl, rfl⟩
  · obtain ⟨he, hr⟩ := hsave _
    rw [he, hr, hset, hset]
    exact ⟨rfl, rfl⟩

/-- The enable of a quill is read as it was before desk memory started. -/
theorem obj_startDesk_enable {q : Nat} (hq : q < 16) : s.trainDesk.startDesk.obj 0x6041 q = s.obj 0x6041 q := by
  have hset (t : State) (i u v : Nat) (hi : 0x6041 ≠ i) (hu : u < 256) : (t.setObj i u v).obj 0x6041 q = t.obj 0x6041 q :=
    t.obj_setObj_index hi hu (by omega) v
  have hsave (t : State) : t.saveHeader.obj 0x6041 q = t.obj 0x6041 q := t.saveHeader_same (fun t => t.obj 0x6041 q) fun _ _ _ => rfl
  have hrec (t : State) r : ({ t with recovery := r } : State).obj 0x6041 q = t.obj 0x6041 q := rfl
  have hdesk (t : State) d : ({ t with desk := d } : State).obj 0x6041 q = t.obj 0x6041 q := rfl
  have hstart (t : State) : t.startDesk.obj 0x6041 q = t.obj 0x6041 q := by
    rw [startDesk]
    dsimp only
    split
    · rw [hset _ _ _ _ (by decide) (by decide), hset _ _ _ _ (by decide) (by decide), hrec]
    · rw [hsave, hset _ _ _ _ (by decide) (by decide), hset _ _ _ _ (by decide) (by decide), hrec]
  rw [hstart, trainDesk]
  generalize decide (s.obj 0x2620 0 = 1) = on
  dsimp only
  split
  · rw [hdesk]
  · split
    · rw [hdesk]
    · rw [hset _ _ _ _ (by decide) (by decide), hdesk]

/-- A quill's state and enable after it trains, where it is enabled. -/
def enabledTrains (x : (LinkState × FnCode) × Bool) : (LinkState × FnCode) × Bool := if x.2 then ((.training, .opening), true) else x

/-- The state of quill `q`, with its enable. -/
def linkOf (q : Nat) : (LinkState × FnCode) × Bool := (((s.quill q).link, (s.quill q).fn.code), decide (s.obj 0x6041 q = 1))

theorem linkOf_startLinks {q : Nat} (hq : q < 16) : s.startLinks.linkOf q = enabledTrains (s.linkOf q) := by
  refine foldl_at (fun t => t.linkOf q) enabledTrains (fun t k => if t.obj 0x6041 k = 1 then t.trainQuill k false else t) q (fun t => ?_) (fun t a ha => ?_)
    _ List.nodup_range (List.mem_range.2 hq) s
  · have hobj : (t.trainQuill q false).obj 0x6041 q = t.obj 0x6041 q :=
      t.trainQuill_same q (fun t => t.obj 0x6041 q) (fun _ _ _ => rfl) (fun _ _ _ _ => rfl) false
    rw [enabledTrains]
    split
    · rename_i h
      rw [linkOf, linkOf, hobj, quill_trainQuill, h]
      rfl
    · rename_i h
      rw [linkOf, if_neg]
      simpa using h
  · split
    · exact t.trainQuill_same a (fun t => t.linkOf q) (fun t f _ => by rw [linkOf, quill_updQuill_other _ _ _ ha.symm]; rfl)
        (fun _ _ _ _ => rfl) false
    · rfl

/-- The enabled quills train. -/
theorem quill_startLinks {q : Nat} (hq : q < 16) (h : s.obj 0x6041 q = 1) :
    (s.startLinks.quill q).link = .training ∧ (s.startLinks.quill q).fn.code = .opening := by
  have hl := s.linkOf_startLinks hq
  simp only [linkOf, h, enabledTrains, decide_true, if_true, Prod.mk.injEq] at hl
  exact hl.1

/-- Stage two runs, before the measurements and the domains. -/
def stageTwo (k rejected : Nat) : State :=
  let h := (s.flash.image k).readBytes 0 8192
  { s with
    boot := { phase := .running, slot := k, rejected := rejected, fwver := hdrNat h 8 4, svn := hdrNat h 0xC 4, key := hdrNat h 6 1 }
    flash := { s.flash with boots := s.flash.boots + 1 }
    quires := s.quires.filterMap fun e => if e.2.locked then none else some (e.1, { e.2 with running := true })
    quills := if s.time.refOk then [] else (List.range 16).map fun q => (q, { laneLock := false })
    time := { refOk := s.time.refOk, st := if s.time.refOk then 0 else 4 }
    margin := { s.margin with profile := s.obj 0x2900 0 } }

/-- The measurements of the image that runs (R441). -/
def measured (h : List Byte) : State := ((s.extend 0 (slice h 0x20 32)).extend 0 (sha3 (h.take 0x8A0))).extend 1 (slice h 0x40 32)

theorem measured_same {β : Type} (g : State → β) (hg : ∀ (t : State) bs, g { t with blobs := bs } = g t) (h : List Byte) : g (s.measured h) = g s :=
  (hg _ _).trans ((hg _ _).trans (hg _ _))

theorem blob_setBlob (i u n : Nat) (v : List Byte) (hn : v.length ≤ n) : (s.setBlob i u v).blob i u n = padTo n v := by
  rw [blob, setBlob]
  dsimp only
  rw [SMap.get_set_same]
  split
  · rename_i h
    have hz : v = List.replicate v.length 0 := List.eq_replicate_iff.2 ⟨rfl, fun b hb => of_decide_eq_true (List.all_eq_true.1 h b hb)⟩
    rw [hz, padTo, padTo]
    simp [hn]
  · rfl

theorem length_sha3 (bs : List Byte) : (sha3 bs).length = 32 := by
  rw [sha3]
  simp only [List.length_flatMap, length_bytesLE]
  rfl

theorem meas_extend (k : Nat) (d : List Byte) : (s.extend k d).meas k = padTo 32 (sha3 (s.meas k ++ d)) :=
  s.blob_setBlob _ _ 32 _ (Nat.le_of_eq (length_sha3 _))

theorem meas_extend_other {j k : Nat} (h : j ≠ k) (d : List Byte) : (s.extend k d).meas j = s.meas j := by
  rw [meas, meas, blob, blob, extend, setBlob, SMap.get_set_other _ _ _ _ _ (by rw [objKey, objKey]; omega)]

theorem meas_measured (h : List Byte) : (s.measured h).meas 1 = padTo 32 (sha3 (s.meas 1 ++ slice h 0x40 32)) := by
  rw [measured, meas_extend, meas_extend_other _ (by decide), meas_extend_other _ (by decide)]

/-- A retired part holds its compute domain (R404). -/
def resumed (s : State) : State :=
  if s.flash.retired.isEmpty then s
  else ({ s with recovery := { s.recovery with retired := some (hdrNat s.flash.retired 1 1) } } : State).holdCompute

/-- The domains start. -/
def domainsUp (s : State) : State := s.trainDesk.startDesk.startLinks.resumed

theorem startUp_eq (k rejected : Nat) :
    s.startUp k rejected = ((s.stageTwo k rejected).measured ((s.flash.image k).readBytes 0 8192)).domainsUp := by
  rw [startUp, domainsUp, resumed, measured, stageTwo]

theorem resumed_same {β : Type} (g : State → β) (hg : ∀ (t : State) ns b a x f os qs,
    g { t with nibs := ns, binding := b, agent := a, txl := x, fresh := f, objs := os, quires := qs } = g t)
    (hr : ∀ (t : State) r, g { t with recovery := r } = g t) : g s.resumed = g s := by
  rw [resumed]
  split
  · rfl
  · exact (holdCompute_same _ g hg).trans (hr _ _)

theorem domainsUp_same {β : Type} (g : State → β) (hg : ∀ (t : State) ns b a x f os qs d r qu, g { t with
    nibs := ns, binding := b, agent := a, txl := x, fresh := f, objs := os, quires := qs, desk := d, recovery := r, quills := qu } = g t) :
    g s.domainsUp = g s := by
  rw [domainsUp, resumed_same _ g (fun t ns b a x f os qs => hg t ns b a x f os qs t.desk t.recovery t.quills)
      (fun t r => hg t t.nibs t.binding t.agent t.txl t.fresh t.objs t.quires t.desk r t.quills),
    startLinks_same _ g (fun t q f _ => hg t t.nibs t.binding t.agent t.txl t.fresh t.objs t.quires t.desk t.recovery (t.updQuill q f).quills)
      (fun t a x f => hg t t.nibs t.binding a x f t.objs t.quires t.desk t.recovery t.quills),
    startDesk_same _ g (fun t d r os => hg t t.nibs t.binding t.agent t.txl t.fresh os t.quires d r t.quills),
    trainDesk_same _ g (fun t d os => hg t t.nibs t.binding t.agent t.txl t.fresh os t.quires d t.recovery t.quills)]

theorem desk_domainsUp : s.domainsUp.desk.eccOn = decide (s.obj 0x2620 0 = 1) ∧ s.domainsUp.desk.selfRefresh = false := by
  have hdesk (t : State) : t.startLinks.resumed.desk = t.desk :=
    (resumed_same _ State.desk (fun _ _ _ _ _ _ _ _ => rfl) fun _ _ => rfl).trans
      (startLinks_same _ State.desk (fun _ _ _ _ => rfl) fun _ _ _ _ => rfl)
  obtain ⟨he, hr⟩ := startDesk_leaves s.trainDesk
  obtain ⟨hte, htr⟩ := s.trainDesk_leaves
  rw [domainsUp, hdesk, he, hr, hte, htr]
  exact ⟨rfl, rfl⟩

theorem quill_domainsUp {q : Nat} (hq : q < 16) (h : s.obj 0x6041 q = 1) :
    (s.domainsUp.quill q).link = .training ∧ (s.domainsUp.quill q).fn.code = .opening := by
  have hheld (t : State) : t.resumed.quill q = t.quill q := resumed_same _ (fun t => t.quill q) (fun _ _ _ _ _ _ _ _ => rfl) fun _ _ => rfl
  rw [domainsUp, hheld]
  exact quill_startLinks _ hq ((s.obj_startDesk_enable hq).trans h)

theorem bootUp_chosen {s : State} (h : s.boot.phase = .booting) {fl : Flash} {k code : Nat} (hc : chooseSlot s.fuses s.flash = (fl, some k, code)) :
    s.bootUp = ({ s with flash := fl } : State).startUp k code := by
  rw [bootUp, if_neg (not_not_intro h), hc]

theorem bootUp_failed {s : State} (h : s.boot.phase = .booting) {fl : Flash} {code : Nat} (hc : chooseSlot s.fuses s.flash = (fl, none, code)) :
    s.bootUp = { s with flash := fl, boot := { s.boot with phase := .failed code, rejected := code } } := by
  rw [bootUp, if_neg (not_not_intro h), hc]

/-! ### Firmware commands -/

/-- A command's end: its result is the module's, and its status is at 0x2D21. -/
theorem fwEnd_job {s : State} {cmd arg : Nat} (h : s.boot.job = some (cmd, arg)) {ok : Bool} {t : State} {code : Nat}
    (hr : s.fwRun cmd arg ok = (t, code)) : s.fwEnd ok = ({ t with boot := { t.boot with job := none } } : State).setObj 0x2D21 0 code := by
  rw [fwEnd, h]
  dsimp only
  rw [hr]

theorem exec_firmwareCommandComplete_job {s : State} {cmd arg : Nat} (h : s.boot.job = some (cmd, arg)) {ok : Bool} {t : State} {code : Nat}
    (hr : s.fwRun cmd arg ok = (t, code)) : ∃ u, exec (.firmwareCommandComplete ok) s = .next u ∧ u.boot.job = none ∧ u.obj 0x2D21 0 = code ∧
      u.flash = t.flash ∧ u.fuses = t.fuses :=
  ⟨_, congrArg Host.Outcome.next (fwEnd_job h hr), rfl, obj_setObj .., rfl, rfl⟩

/-! INSTALL. -/

theorem fwRun_install_refused {c : Nat} (hc : imageCode s.fuses s.newImage (s.obj 0x4D01 0) = c) (h0 : c ≠ 0) (arg : Nat) (ok : Bool) :
    s.fwRun 3 arg ok = (s, c) := by
  rw [fwRun]
  dsimp only
  rw [hc, if_pos h0]

theorem fwRun_install_done (hc : imageCode s.fuses s.newImage (s.obj 0x4D01 0) = 0) (arg : Nat) :
    s.fwRun 3 arg true = ({ s with flash := s.flash.install s.boot.slot s.newImage (s.obj 0x4D01 0) }, 2) := by
  rw [fwRun]
  dsimp only
  rw [hc, if_neg (not_not_intro rfl), if_pos rfl]

theorem fwRun_install_failed (hc : imageCode s.fuses s.newImage (s.obj 0x4D01 0) = 0) (arg : Nat) :
    ∃ m, s.fwRun 3 arg false = ({ s.took with flash := s.flash.setImage (otherSlot s.boot.slot) m }, 0x16) := by
  rw [fwRun]
  dsimp only
  rw [hc, if_neg (not_not_intro rfl), if_neg Bool.false_ne_true]
  exact ⟨_, rfl⟩

end State

theorem Flash.setImage_slots (f : Flash) (k : Nat) (m : Memory) : (f.setImage k m).slotA = f.slotA ∧ (f.setImage k m).slotB = f.slotB := by
  rw [setImage]
  split <;> exact ⟨rfl, rfl⟩

/-- Settles O54: power-up by phase, the boot sequence by what each of its stages leaves, the commands by `fwRun`. -/
theorem bootAndFirmware : Obligations.BootAndFirmware := by
  unfold Obligations.BootAndFirmware
  refine ⟨fun s => ⟨fun h => ?_, fun h hl ht => ?_⟩, fun s => ⟨fun h => ?_, fun h fl k code hc => ?_, fun h fl code hc => ?_⟩,
    fun s ok => ⟨fun h => ?_, fun arg h => ?_, fun arg h => ?_, fun arg h => ?_, fun arg c h hc => ?_⟩⟩
  · exact ⟨_, rfl, s.powerUp_off h⟩
  · have hfree : ({ s with pins := { s.pins with pwrGood := true } } : State).heldOutside = false := State.heldOutside_free hl rfl ht
    exact ⟨_, congrArg Host.Outcome.next ((State.powerUp_held h).trans
      (State.leaveReset_boots (s := { s with pins := { s.pins with pwrGood := true } }) h hfree)), rfl, rfl, rfl⟩
  · rw [exec_bootSequence, execBootSequence, State.bootUp, if_pos h]
  · rw [exec_bootSequence, execBootSequence, State.bootUp_chosen h hc, State.startUp_eq]
    generalize hu : ((({ s with flash := fl } : State).stageTwo k code).measured (((({ s with flash := fl } : State).flash.image k).readBytes 0 8192))) = u
    have hsame {β : Type} (g : State → β) (hg : ∀ (t : State) bs, g { t with blobs := bs } = g t) :
        g u = g (({ s with flash := fl } : State).stageTwo k code) := hu ▸ State.measured_same _ g hg _
    have hboot : u.domainsUp.boot = (({ s with flash := fl } : State).stageTwo k code).boot :=
      (State.domainsUp_same _ State.boot fun _ _ _ _ _ _ _ _ _ _ _ => rfl).trans (hsame State.boot fun _ _ => rfl)
    have hflash : u.domainsUp.flash = (({ s with flash := fl } : State).stageTwo k code).flash :=
      (State.domainsUp_same _ State.flash fun _ _ _ _ _ _ _ _ _ _ _ => rfl).trans (hsame State.flash fun _ _ => rfl)
    have hfuses : u.domainsUp.fuses = s.fuses :=
      (State.domainsUp_same _ State.fuses fun _ _ _ _ _ _ _ _ _ _ _ => rfl).trans (hsame State.fuses fun _ _ => rfl)
    have hmargin : u.domainsUp.margin = (({ s with flash := fl } : State).stageTwo k code).margin :=
      (State.domainsUp_same _ State.margin fun _ _ _ _ _ _ _ _ _ _ _ => rfl).trans (hsame State.margin fun _ _ => rfl)
    have hmeas : u.domainsUp.meas 1 = u.meas 1 := State.domainsUp_same _ (fun t => t.meas 1) fun _ _ _ _ _ _ _ _ _ _ _ => rfl
    have hobj (i v : Nat) : u.obj i v = s.obj i v := hsame (fun t => t.obj i v) fun _ _ => rfl
    obtain ⟨hecc, hrefresh⟩ := u.desk_domainsUp
    refine ⟨_, rfl, ?_, ?_, ?_, ?_, hflash, hfuses, ?_, hrefresh, fun q hq hq1 => u.quill_domainsUp hq ((hobj _ _).trans hq1), ?_, ?_⟩
    · rw [hboot]
      rfl
    · rw [hboot]
      rfl
    · rw [hboot]
      rfl
    · rw [hboot]
      rfl
    · rw [hecc, hobj]
      exact decide_eq_true_eq
    · rw [hmargin]
      rfl
    · rw [hmeas, ← hu, State.meas_measured]
      rfl
  · exact ⟨_, congrArg Host.Outcome.next (State.bootUp_failed h hc), rfl, rfl, rfl⟩
  · rw [exec_firmwareCommandComplete, execFirmwareCommandComplete, State.fwEnd, h]
  · cases ok with
    | true =>
      obtain ⟨u, hu, hjob, hst, hflash, -⟩ := State.exec_firmwareCommandComplete_job (ok := true) h rfl
      exact ⟨u, hu, hjob, hst, hflash⟩
    | false =>
      obtain ⟨u, hu, hjob, hst, hflash, -⟩ := State.exec_firmwareCommandComplete_job (ok := false) h rfl
      exact ⟨u, hu, hjob, hst, hflash⟩
  · obtain ⟨u, hu, -, hst, hflash, hfuses⟩ := State.exec_firmwareCommandComplete_job (ok := ok) h rfl
    exact ⟨u, hu, hst, hfuses, hflash⟩
  · obtain ⟨u, hu, -, hst, -, hfuses⟩ := State.exec_firmwareCommandComplete_job (ok := ok) h rfl
    refine ⟨u, hu, hst, ?_, ?_⟩
    · rw [hfuses]
      dsimp only
      split
      · rename_i hin
        exact List.contains_iff_mem.1 hin
      · exact List.mem_append_right _ List.mem_cons_self
    · rw [hfuses]
  · by_cases h0 : c = 0
    · have hok : imageCode s.fuses s.newImage (s.obj 0x4D01 0) = 0 := hc.symm.trans h0
      cases ok with
      | true =>
        obtain ⟨u, hu, hjob, hst, hflash, -⟩ := State.exec_firmwareCommandComplete_job h (s.fwRun_install_done hok arg)
        exact ⟨u, hu, hjob, fun hn => absurd h0 hn, fun _ _ => ⟨hst, hflash⟩, fun _ hf => absurd hf.symm Bool.false_ne_true⟩
      | false =>
        obtain ⟨m, hm⟩ := s.fwRun_install_failed hok arg
        obtain ⟨u, hu, hjob, hst, hflash, -⟩ := State.exec_firmwareCommandComplete_job h hm
        obtain ⟨ha, hb⟩ := s.flash.setImage_slots (otherSlot s.boot.slot) m
        refine ⟨u, hu, hjob, fun hn => absurd h0 hn, fun _ hf => absurd hf Bool.false_ne_true, fun _ _ => ⟨hst, ?_, ?_⟩⟩
        · rw [hflash]
          exact ha
        · rw [hflash]
          exact hb
    · obtain ⟨u, hu, hjob, hst, hflash, -⟩ := State.exec_firmwareCommandComplete_job h (s.fwRun_install_refused hc.symm h0 arg ok)
      exact ⟨u, hu, hjob, fun _ => ⟨hst, hflash⟩, fun hn => absurd hn h0, fun hn => absurd hn h0⟩

end Sys2Proof.Machine
end

section
/-! Proof of the statement on the side-band pins and the power events (07 R231; 13 R394, R396; 16 R449-R453). -/

namespace Sys2Proof.Machine

namespace State

/-! ### Pins that raise an event -/

section
variable {s : State}

theorem holdIn_event (ha : (s.pin 1).armed = true) (hs : (s.pin 1).stuck = false) : s.holdIn =
    if (s.asserted 1).obj 0x4F11 0 = 1 && (s.asserted 1).binding.fn.code = .on then
      { s.asserted 1 with pins := { (s.asserted 1).pins with holdAt := some ((s.asserted 1).now + 10000) } }
    else s.asserted 1 := by
  rw [holdIn, assertPin_event ha hs]
  simp only [Bool.true_and]

theorem ppsIn_event (ha : (s.pin 2).armed = true) (hs : (s.pin 2).stuck = false) (edge : Nat) : s.ppsIn edge =
    if s.pins.lastPps.any fun t => edge < t + 500000000 then (s.asserted 2).bump 0x80F4 0 1 else (s.asserted 2).acceptPps edge := by
  rw [ppsIn, assertPin_event ha hs]
  rfl

end

section
variable (s : State)

theorem pin_bump (p i u k : Nat) : (s.bump i u k).pin p = s.pin p := rfl

/-- What an accepted edge of PPS_IN tells time. -/
theorem acceptPps_leaves (edge : Nat) : (s.acceptPps edge).obj 0x8043 0 = unsigned 64 ((edge : Int) - 200) ∧
    (s.acceptPps edge).pins.lastPps = some edge ∧ (s.acceptPps edge).time.ptp.edge = some edge ∧ (s.acceptPps edge).time.ptp.edgeSeen = s.real ∧
    (s.acceptPps edge).time.ptp.fallen = false ∧ (s.acceptPps edge).obj 0x80F4 0 = s.obj 0x80F4 0 ∧ (s.acceptPps edge).pin 2 = s.pin 2 := by
  have hread (i u : Nat) : (s.acceptPps edge).obj i u = (s.setObj 0x8043 0 (unsigned 64 ((edge : Int) - 200))).obj i u := rfl
  rw [hread, hread, obj_setObj, obj_setObj_index (i := 0x8043) (u := 0) _ (by decide) (by decide) (by decide)]
  exact ⟨rfl, rfl, rfl, rfl, rfl, rfl, rfl⟩

/-! ### A part reset from outside -/

/-- A blot leaves of the pins all but the pulse on BLOT_OUT_N. -/
theorem blot_pins_same {β : Type} (g : Pins → β) (hg : ∀ (p : Pins) t, g { p with blotOutUntil := t } = g p) (r : Nat) :
    g (s.blot r).pins = g s.pins := by
  have hrelay (t : State) (i : Nat) : (t.relayBlot i none).pins = t.pins := t.relayBlot_same State.pins (fun _ _ _ => rfl) i none
  have htold : g (s.blotTold r).pins = g s.pins := by
    rw [blotTold]
    dsimp only
    rw [event_pins]
    split
    · rw [hrelay, bump_pins]
    · dsimp only
      rw [hg, hrelay, bump_pins]
  cases h : s.mayBlot
  · rw [s.blot_eq_self h]
  · rw [s.blot_eq h, beginAbort_same _ State.pins fun _ _ _ _ _ _ _ _ _ _ _ => rfl, htold]

/-- A running job is blotted with reason RESET. -/
def resetBlot : State := if s.binding.fn.code = .on then s.blot 10 else s

/-- A record of the reset begins, unless one has just been written or is being written. -/
def resetRecord : State := if s.recentRecord || s.recovery.record.isSome then s else s.beginRecord 2 7 s.now

/-- A part reset is counted and reported. -/
def partReported (t : ResetStep) : State :=
  let u := (s.bump 0x80A5 t.step 1).saveHeader
  u.event 0x0C (t.cause <<< 8 + t.step)
    ((t.nib % 2 ^ 16) <<< 48 + (if t.step = 1 then t.unit <<< 44 else 0) + u.recovery.newestSeq % 2 ^ 32)

/-- The step that a part reset from outside takes. -/
def pinStep : ResetStep := ⟨4, 0xFFFF, 0, 7, s.now⟩

/-- The module as a part reset from outside begins. -/
def pinResetBegun : State := s.resetBlot.resetRecord.partReported s.resetBlot.resetRecord.pinStep

theorem pinReset_eq (h : s.boot.phase ≠ .off) : s.pinReset = s.pinResetBegun.beginPart s.resetBlot.resetRecord.pinStep := by
  rw [pinReset]
  split
  · contradiction
  · rfl

section
variable {β : Type} (g : State → β)

theorem partReported_same (hg : ∀ (t : State) d r a x f os, g { t with desk := d, recovery := r, agent := a, txl := x, fresh := f, objs := os } = g t)
    (t : ResetStep) : g (s.partReported t) = g s := by
  have hevent (t : State) (c i d : Nat) : g (t.event c i d) = g t :=
    t.eventIf_same g (fun t a x f => hg t t.desk t.recovery a x f t.objs) true c i d
  have hsave (t : State) : g t.saveHeader = g t :=
    t.saveHeader_same g fun t d k => hg t d { t.recovery with savedMs := k } t.agent t.txl t.fresh t.objs
  have hbump (t : State) (i u k : Nat) : g (t.bump i u k) = g t := hg t t.desk t.recovery t.agent t.txl t.fresh _
  rw [partReported]
  rw [hevent, hsave, hbump]

theorem resetRecord_same (hg : ∀ (t : State) d f r, g { t with desk := d, fresh := f, recovery := r } = g t) : g s.resetRecord = g s := by
  rw [resetRecord]
  split
  · rfl
  · exact beginRecord_same s _ _ _ g fun t d f r => hg t d f _

/-- What a part reset's beginning tells nothing of. -/
theorem pinResetBegun_same (hg : ∀ (t : State) d f r a x os, g { t with desk := d, fresh := f, recovery := r, agent := a, txl := x, objs := os } = g t)
    (hb : g s.resetBlot = g s) : g s.pinResetBegun = g s := by
  rw [pinResetBegun, partReported_same _ g fun t d r a x f os => hg t d f r a x os,
    resetRecord_same _ g fun t d f r => hg t d f r t.agent t.txl t.objs, hb]

theorem resetBlot_same (hg : ∀ (s : State) ns m f qs b a x r d p os, g { s with
    nibs := ns, mesh := m, fresh := f, quills := qs, binding := b, agent := a, txl := x, recovery := r, desk := d, pins := p, objs := os } =
      g s) : g s.resetBlot = g s := by
  rw [resetBlot]
  split
  · exact s.blot_same g hg 10
  · rfl

end

theorem pins_resetBlot {β : Type} (g : Pins → β) (hg : ∀ (p : Pins) t, g { p with blotOutUntil := t } = g p) :
    g s.resetBlot.pins = g s.pins := by
  rw [resetBlot]
  split
  · exact s.blot_pins_same g hg 10
  · rfl

theorem quill_resetBlot {β : Type} (g : Quill → β) (hg : ∀ (x : Quill) bs ow aw ao ho ed, g { x with
    blots := bs, ruled := { x.ruled with owed := ow, awaiting := aw, awaitOld := ao, holding := ho, edge := ed } } = g x) (q : Nat) :
    g (s.resetBlot.quill q) = g (s.quill q) := by
  rw [resetBlot]
  split
  · exact s.blot_quill_same g hg 10 q
  · rfl

/-- The beginning of a part reset from outside leaves what that reset keeps. -/
theorem pinResetBegun_leaves : s.pinResetBegun.boot = s.boot ∧ s.pinResetBegun.fuses = s.fuses ∧ s.pinResetBegun.pending = s.pending ∧
    s.pinResetBegun.time = s.time ∧ s.pinResetBegun.tap = s.tap ∧ s.pinResetBegun.smbus = s.smbus ∧
    s.pinResetBegun.pins.inputs = s.pins.inputs ∧ s.pinResetBegun.pins.pwrGood = s.pins.pwrGood ∧
    ∀ q, (s.pinResetBegun.quill q).link = (s.quill q).link :=
  ⟨s.pinResetBegun_same State.boot (fun _ _ _ _ _ _ _ => rfl) (s.resetBlot_same _ fun _ _ _ _ _ _ _ _ _ _ _ _ => rfl),
    s.pinResetBegun_same State.fuses (fun _ _ _ _ _ _ _ => rfl) (s.resetBlot_same _ fun _ _ _ _ _ _ _ _ _ _ _ _ => rfl),
    s.pinResetBegun_same State.pending (fun _ _ _ _ _ _ _ => rfl) (s.resetBlot_same _ fun _ _ _ _ _ _ _ _ _ _ _ _ => rfl),
    s.pinResetBegun_same State.time (fun _ _ _ _ _ _ _ => rfl) (s.resetBlot_same _ fun _ _ _ _ _ _ _ _ _ _ _ _ => rfl),
    s.pinResetBegun_same State.tap (fun _ _ _ _ _ _ _ => rfl) (s.resetBlot_same _ fun _ _ _ _ _ _ _ _ _ _ _ _ => rfl),
    s.pinResetBegun_same State.smbus (fun _ _ _ _ _ _ _ => rfl) (s.resetBlot_same _ fun _ _ _ _ _ _ _ _ _ _ _ _ => rfl),
    s.pinResetBegun_same (fun t => t.pins.inputs) (fun _ _ _ _ _ _ _ => rfl) (s.pins_resetBlot Pins.inputs fun _ _ => rfl),
    s.pinResetBegun_same (fun t => t.pins.pwrGood) (fun _ _ _ _ _ _ _ => rfl) (s.pins_resetBlot Pins.pwrGood fun _ _ => rfl),
    fun q => s.pinResetBegun_same (fun t => (t.quill q).link) (fun _ _ _ _ _ _ _ => rfl) (s.quill_resetBlot Quill.link (fun _ _ _ _ _ _ _ => rfl) q)⟩

/-! ### The part reset itself -/

/-- A part reset that meets late counts says so. -/
def partCounted : State := if s.recovery.headerRead then s else { s with recovery := { s.recovery with lateParts := s.recovery.lateParts + 1 } }

theorem partCounted_same {β : Type} (g : State → β) (hg : ∀ (t : State) r, g { t with recovery := r } = g t) : g s.partCounted = g s := by
  rw [partCounted]
  split
  · rfl
  · exact hg ..

theorem beginPart_now (h : s.farewells = []) (t : ResetStep) : s.beginPart t = s.partCounted.resetPart := by
  have hf : s.partCounted.farewells = [] := (s.partCounted_same State.farewells fun _ _ => rfl).trans h
  rw [beginPart]
  dsimp only
  rw [← partCounted, hf]

theorem beginPart_later {q : Nat} {qs : List Nat} (h : s.farewells = q :: qs) (t : ResetStep) : s.beginPart t =
    ((q :: qs).foldl sayFarewell s.partCounted).setSteps (s.partCounted.recovery.steps.filter (·.step ≠ 4) ++ [{ t with start := s.now }]) := by
  have hf : s.partCounted.farewells = q :: qs := (s.partCounted_same State.farewells fun _ _ => rfl).trans h
  have hnow : s.partCounted.now = s.now := s.partCounted_same State.now fun _ _ => rfl
  rw [beginPart]
  dsimp only
  rw [← partCounted, hf, hnow]

theorem mem_farewells {q : Nat} (hr : s.time.refOk = true) (hq : q < 16) (h : (s.quill q).link = .up) : q ∈ s.farewells := by
  rw [farewells, if_pos hr]
  exact List.mem_filter.2 ⟨List.mem_range.2 hq, decide_eq_true h⟩

theorem farewells_none (h : s.time.refOk = false ∨ ∀ q, q < 16 → (s.quill q).link ≠ .up) : s.farewells = [] := by
  rw [farewells]
  split
  · rename_i hr
    rcases h with h | h
    · exact absurd (h.symm.trans hr) Bool.false_ne_true
    · exact List.filter_eq_nil_iff.2 fun q hq => by simpa using h q (List.mem_range.1 hq)
  · rfl

theorem nodup_farewells : s.farewells.Nodup := by
  rw [farewells]
  split
  · exact List.nodup_range.filter _
  · exact List.nodup_nil

/-- Each quill told says GOING_DOWN for 16 strokes. -/
theorem quill_sayFarewells {q : Nat} {qs : List Nat} (hn : qs.Nodup) (hq : q ∈ qs) :
    ((qs.foldl sayFarewell s).quill q).link = .closing ∧ ((qs.foldl sayFarewell s).quill q).port.farewell = 16 := by
  have h := foldl_at (fun t => ((t.quill q).link, (t.quill q).port.farewell)) (fun _ => (LinkState.closing, 16)) sayFarewell q
    (fun t => by rw [sayFarewell, setLink, updPort, quill_updQuill, quill_updQuill])
    (fun t a ha => by rw [sayFarewell, setLink, updPort, quill_updQuill_other _ _ _ ha.symm, quill_updQuill_other _ _ _ ha.symm]) qs hn hq s
  exact ⟨congrArg Prod.fst h, congrArg Prod.snd h⟩

theorem quill_resetPart {k : Nat} (hk : k < 16) : (s.resetPart.quill k).link = .down := by
  have hunlocked : ∀ k < 16, (SMap.get ({} : Quill) ((List.range 16).map fun q => (q, ({ laneLock := false } : Quill))) k).link = .down := by decide
  rw [quill, resetPart]
  dsimp only
  split
  · rfl
  · exact hunlocked k hk

/-- A part reset from outside of a module with quills that are UP. -/
theorem pinReset_farewell (hb : s.boot.phase ≠ .off) {q : Nat} (hr : s.time.refOk = true) (hq : q < 16) (h : (s.quill q).link = .up) :
    (s.pinReset.quill q).link = .closing ∧ (s.pinReset.quill q).port.farewell = 16 ∧ s.pinReset.boot = s.boot ∧
      ∃ k ∈ s.pinReset.recovery.steps, k.step = 4 := by
  obtain ⟨hboot, -, -, htime, -, -, -, -, hlink⟩ := s.pinResetBegun_leaves
  have hmem : q ∈ s.pinResetBegun.farewells := mem_farewells _ (by rw [htime, hr]) hq ((hlink q).trans h)
  have hnodup := s.pinResetBegun.nodup_farewells
  rw [pinReset_eq s hb]
  cases hf : s.pinResetBegun.farewells with
  | nil => exact absurd (hf ▸ hmem) List.not_mem_nil
  | cons p ps =>
    rw [hf] at hmem hnodup
    obtain ⟨hclosing, hstrokes⟩ := quill_sayFarewells s.pinResetBegun.partCounted hnodup hmem
    have hboots : ((p :: ps).foldl sayFarewell s.pinResetBegun.partCounted).boot = s.boot :=
      (foldl_same State.boot sayFarewell (fun _ _ => rfl) _ _).trans ((partCounted_same _ State.boot fun _ _ => rfl).trans hboot)
    rw [beginPart_later _ hf]
    generalize (p :: ps).foldl sayFarewell s.pinResetBegun.partCounted = u at hclosing hstrokes hboots ⊢
    exact ⟨hclosing, hstrokes, hboots, _, List.mem_append_right _ List.mem_cons_self, rfl⟩

/-- A part reset from outside of a module without quills that are UP. -/
theorem pinReset_held (hb : s.boot.phase ≠ .off) (h : s.time.refOk = false ∨ ∀ q, q < 16 → (s.quill q).link ≠ .up) (hheld : s.heldOutside = true) :
    s.pinReset.boot.phase = .held ∧ s.pinReset.nibs = [] ∧ s.pinReset.mesh = [] ∧ s.pinReset.binding = {} ∧ s.pinReset.agent = {} ∧
      s.pinReset.fuses = s.fuses ∧ s.pinReset.pending = s.pending ∧ s.pinReset.time.st = 4 ∧
      (∀ k, k < 16 → (s.pinReset.quill k).link = .down) ∧ s.pinReset.pins.pwrGood = s.pins.pwrGood ∧ s.pinReset.smbus = s.smbus := by
  obtain ⟨-, hfuses, hpending, htime, htap, hsmbus, hinputs, hgood, hlink⟩ := s.pinResetBegun_leaves
  have hnone : s.pinResetBegun.farewells = [] := farewells_none _ (by rw [htime]; exact h.imp_right fun hup q hq hl => hup q hq ((hlink q).symm.trans hl))
  have hout : s.pinResetBegun.partCounted.heldOutside = true := by
    rw [partCounted_same _ State.heldOutside fun _ _ => rfl, heldOutside, hinputs, hgood, htap, ← heldOutside, hheld]
  rw [pinReset_eq s hb, beginPart_now _ hnone, ← hfuses, ← hpending, ← hgood, ← hsmbus,
    ← partCounted_same s.pinResetBegun State.fuses fun _ _ => rfl, ← partCounted_same s.pinResetBegun State.pending fun _ _ => rfl,
    ← partCounted_same s.pinResetBegun (fun t => t.pins.pwrGood) fun _ _ => rfl, ← partCounted_same s.pinResetBegun State.smbus fun _ _ => rfl]
  generalize s.pinResetBegun.partCounted = u at hout
  refine ⟨?_, rfl, rfl, rfl, rfl, rfl, rfl, rfl, fun k hk => u.quill_resetPart hk, rfl, rfl⟩
  rw [resetPart]
  dsimp only
  rw [hout]
  rfl

/-! ### Power events -/

theorem bit_latchStatus (i : Nat) : bit (s.latchStatus i).smbus.status i = true := by
  rw [latchStatus]
  dsimp only
  split
  · assumption
  · rename_i h
    have hbit (x : Nat) : bit x i = x.testBit i := by simp [bit, field]
    rw [hbit] at h
    rw [hbit, Nat.add_comm, Nat.testBit_two_pow_add_eq, Bool.eq_false_iff.2 h, Bool.not_false]

end

/-- The two ways a part reset comes from outside: MOD_RST_N, or an input under-voltage. -/
theorem exec_outsideReset {s : State} {c : Instr}
    (hc : (c = .modRstNAssert ∧ (s.pin 3).armed = true ∧ (s.pin 3).stuck = false) ∨ c = .inputUndervoltage) :
    ∃ u : State, exec c s = .next u.pinReset ∧ u.boot = s.boot ∧ u.time = s.time ∧ u.quills = s.quills ∧ u.heldOutside = true ∧
      u.fuses = s.fuses ∧ u.pending = s.pending ∧ (c = .inputUndervoltage → u.pins.pwrGood = false ∧ bit u.smbus.status 0 = true) := by
  rcases hc with ⟨rfl, ha, hs⟩ | rfl
  · have hpin : SMap.get ({} : Pin) (s.asserted 3).pins.inputs 3 = { s.pin 3 with level := true, since := s.now, armed := false } := s.pin_asserted 3
    refine ⟨s.asserted 3, ?_, rfl, rfl, rfl, ?_, rfl, rfl, fun h => nomatch h⟩
    · rw [exec_modRstNAssert, execModRstNAssert, resetIn, assertPin_event ha hs]
      rfl
    · rw [heldOutside, hpin]
      rfl
  · refine ⟨({ s with pins := { s.pins with pwrGood := false } } : State).latchStatus 0, rfl, rfl, rfl, rfl, ?_, rfl, rfl,
      fun _ => ⟨rfl, bit_latchStatus _ 0⟩⟩
    rw [heldOutside]
    exact Bool.or_eq_true_iff.2 (.inl (Bool.or_eq_true_iff.2 (.inr rfl)))

/-! ### Releases -/

/-- The module with the level of MOD_RST_N deasserted. -/
def released (s : State) : State := s.setPin 3 { s.pin 3 with level := false, since := s.now }

theorem resetRelease_boots {s : State} (hh : s.boot.phase = .held) (hg : s.pins.pwrGood = true) (ht : s.tap.instr = .idcode) :
    s.resetRelease = { s.released with boot := { s.boot with phase := .booting, started := s.now } } :=
  leaveReset_boots (s := s.released) hh (heldOutside_free (congrArg Pin.level (s.pin_setPin 3 _)) hg ht)

theorem resetRelease_running {s : State} (hr : s.boot.phase = .running) : s.resetRelease = s.released := by
  have hphase : s.released.boot.phase = .running := hr
  rw [resetRelease, ← released, leaveReset, hphase]
  rfl

theorem rearm_input {s : State} {p : Nat} (h : p ≠ 3) : s.rearm p =
    s.setPin p { s.pin p with level := false, since := if (s.pin p).level then s.now else (s.pin p).since, armed := !(s.pin p).stuck } := by
  rw [rearm, if_neg h]

end State

/-- Settles O55: each pin by what its event does, a part reset from outside by what its beginning leaves. -/
theorem pinsAndPower : Obligations.PinsAndPower := by
  unfold Obligations.PinsAndPower
  refine ⟨fun s ha hs => ⟨_, rfl, ?_⟩, fun s edge ha hs => ⟨_, rfl, ?_⟩, fun s hb => ⟨fun c q hc hr hq hl => ?_, fun c hc hup => ?_⟩,
    fun s => ⟨fun hh hg ht => ?_, fun hr => ?_, ⟨_, rfl, ?_⟩, ⟨_, rfl, ?_⟩⟩, fun p s => ⟨fun hp => ?_, fun hp hl hs hlate => ?_, fun hearly => ?_⟩⟩
  · have hset : (s.asserted 1).obj 0x4F11 0 = s.obj 0x4F11 0 := s.obj_asserted 1 (by decide)
    have hpin : ((s.asserted 1).pin 1).armed = false := congrArg Pin.armed (s.pin_asserted 1)
    have hcount : (s.asserted 1).obj 0x80F2 2 = (s.obj 0x80F2 2 + 1) % 2 ^ 64 := State.obj_bump ..
    rw [State.holdIn_event ha hs]
    split
    · rename_i h
      obtain ⟨hask, hon⟩ := (Bool.and_eq_true _ _).mp h
      refine ⟨hpin, hcount, rfl, ?_⟩
      rw [if_pos ⟨hset.symm.trans (of_decide_eq_true hask), of_decide_eq_true hon⟩]
      rfl
    · rename_i h
      refine ⟨hpin, hcount, rfl, ?_⟩
      rw [if_neg]
      · rfl
      · exact fun ⟨hask, hon⟩ => h ((Bool.and_eq_true _ _).mpr ⟨decide_eq_true (hset.trans hask), decide_eq_true hon⟩)
  · have hpin : ((s.asserted 2).pin 2).armed = false := congrArg Pin.armed (s.pin_asserted 2)
    have hread : (s.asserted 2).obj 0x80F4 0 = s.obj 0x80F4 0 := s.obj_asserted 2 (by decide)
    have htime : (s.asserted 2).time = s.time := rfl
    have hreal : (s.asserted 2).real = s.real := rfl
    rw [State.ppsIn_event ha hs, ← hread, ← htime, ← hreal]
    generalize s.asserted 2 = u at hpin
    split
    · rename_i h
      refine ⟨hpin, fun e _ _ => ⟨State.obj_bump .., rfl⟩, fun hn => ?_⟩
      rw [hn, Option.any_none] at h
      exact absurd h Bool.false_ne_true
    · rename_i h
      obtain ⟨hlast, hpps, hedge, hseen, hfallen, hearly, hkept⟩ := u.acceptPps_leaves edge
      refine ⟨(congrArg Pin.armed hkept).trans hpin, fun e he hlt => absurd ?_ h, fun _ => ⟨hlast, hpps, hedge, hseen, hfallen, hearly⟩⟩
      rw [he, Option.any_some]
      exact decide_eq_true hlt
  · obtain ⟨u, he, hboot, htime, hquills, -⟩ := State.exec_outsideReset hc
    obtain ⟨hclosing, hstrokes, hboots, hstep⟩ := u.pinReset_farewell (q := q) (by rwa [hboot]) (by rw [htime, hr]) hq (by rw [State.quill, hquills]; exact hl)
    exact ⟨_, he, hclosing, hstrokes, hboots.trans hboot, hstep⟩
  · obtain ⟨u, he, hboot, htime, hquills, hheld, hfuses, hpending, hlow⟩ := State.exec_outsideReset hc
    obtain ⟨hphase, hnibs, hmesh, hbinding, hagent, hf, hp, hst, hlinks, hgood, hsmbus⟩ := u.pinReset_held (by rwa [hboot])
      (by rw [htime]; exact hup.imp_right fun h q hq => by rw [State.quill, hquills]; exact h q hq) hheld
    refine ⟨_, he, hphase, hnibs, hmesh, hbinding, hagent, hf.trans hfuses, hp.trans hpending, hst, hlinks, fun hc => ?_⟩
    rw [hgood, hsmbus]
    exact hlow hc
  · exact ⟨_, congrArg Host.Outcome.next (State.resetRelease_boots hh hg ht), rfl, rfl, congrArg Pin.level (s.pin_setPin 3 _)⟩
  · exact ⟨_, congrArg Host.Outcome.next (State.resetRelease_running hr), rfl, congrArg Pin.level (s.pin_setPin 3 _), rfl⟩
  · exact ⟨rfl, rfl, rfl, rfl, s.bit_latchStatus 1, rfl⟩
  · exact ⟨rfl, rfl, rfl, rfl, s.bit_latchStatus 2, rfl⟩
  · rw [exec_sidebandRearm, execSidebandRearm, State.rearm_input fun h => hp (Fin.ext h)]
    refine ⟨_, rfl, ?_, ?_, ?_, rfl⟩
    · rw [State.pin_setPin]
    · rw [State.pin_setPin]
    · rw [State.pin_setPin]
  · have hval : (p : Nat) ≠ 3 := fun h => hp (Fin.ext h)
    rw [exec_sidebandStuck, execSidebandStuck, State.stick, if_neg (by simp [hval, hl, hs]; omega)]
    refine ⟨_, rfl, ?_, ?_, State.obj_bump ..⟩
    · rw [State.pin_bump, State.pin_setPin]
    · rw [State.pin_bump, State.pin_setPin]
  · rw [exec_sidebandStuck, execSidebandStuck, State.stick, if_pos (by simp [hearly])]

end Sys2Proof.Machine
end

section
/-! Proof of the statement on the pattern checkers and the TAP (16 R463-R465). -/

namespace Sys2Proof.Machine

namespace State

section
variable (s : State) (q lane : Nat)

/-! ### The pattern checkers -/

theorem locked_setLock (b : Bool) : (SMap.get ({} : LaneTest) ((s.setLock q lane b).quill q).lanes lane).locked = b := by
  have hset (t : State) (v : Nat) : (t.setObj 0x6066 q v).quill q = t.quill q := rfl
  rw [setLock, hset, quill_updQuill, SMap.upd, SMap.get_set_same]

theorem obj_setLock (b : Bool) : (s.setLock q lane b).obj 0x6066 q = setField (s.obj 0x6066 q) lane lane (if b then 1 else 0) := obj_setObj ..

variable {s q lane} (hc : s.checking q lane = true)
include hc

/-- A checker that seeks lock and sees 64 symbols. -/
theorem lockLane_seeks {syms : List (BitVec 2)} (hl : (SMap.get ({} : LaneTest) (s.quill q).lanes lane).locked = false) (hn : 64 ≤ syms.length) :
    s.lockLane q lane syms = if field (s.obj 0x6060 q) 6 4 = 6 then (if s.free % 2 = 0 then s.took else s.took.setLock q lane true)
      else if followsPattern (patternTaps (field (s.obj 0x6060 q) 6 4)) (syms.flatMap grayBits) then s.setLock q lane true else s := by
  rw [lockLane, hc, hl, if_neg]
  simpa using hn

theorem loseLane_locked (hl : (SMap.get ({} : LaneTest) (s.quill q).lanes lane).locked = true) (n : Nat) :
    s.loseLane q lane n = if n < 64 then s.bump (0x6061 + lane) q n else
      (((s.bump (0x6061 + lane) q n).setLock q lane false).setObj 0x6066 q
        (setField (((s.bump (0x6061 + lane) q n).setLock q lane false).obj 0x6066 q) 31 16
          (min 65535 (field (((s.bump (0x6061 + lane) q n).setLock q lane false).obj 0x6066 q) 31 16 + 1)))) := by
  rw [loseLane, hc, hl]
  rfl

/-- Sixty-four errors are counted and drop lock. -/
theorem loseLane_drops (hlane : lane < 4) (hq : q < 256) (hl : (SMap.get ({} : LaneTest) (s.quill q).lanes lane).locked = true) {n : Nat} (hn : 64 ≤ n) :
    (SMap.get ({} : LaneTest) ((s.loseLane q lane n).quill q).lanes lane).locked = false ∧
    (s.loseLane q lane n).obj (0x6061 + lane) q = (s.obj (0x6061 + lane) q + n) % 2 ^ 64 := by
  have hset (t : State) (v : Nat) : (t.setObj 0x6066 q v).quill q = t.quill q := rfl
  have hupd (t : State) (f : Quill → Quill) : (t.updQuill q f).obj (0x6061 + lane) q = t.obj (0x6061 + lane) q := rfl
  have hne : 0x6061 + lane ≠ 0x6066 := by omega
  rw [loseLane_locked hc hl, if_neg (Nat.not_lt.2 hn), hset, locked_setLock, obj_setObj_index _ hne hq hq, setLock, obj_setObj_index _ hne hq hq, hupd,
    obj_bump]
  exact ⟨rfl, rfl⟩

end

section
variable (s : State)

/-! ### The TAP -/

theorem leaveReset_same {β : Type} (g : State → β) (hg : ∀ (t : State) b, g { t with boot := b } = g t) (s : State) : g s.leaveReset = g s := by
  rw [leaveReset]
  split
  · exact hg ..
  · rfl

theorem tap_loadJtag (i : JtagInstr) (c : Nat) : (s.loadJtag i c).tap = { s.tap with instr := i, irCapture := c } :=
  leaveReset_same State.tap (fun _ _ => rfl) _

theorem loadJtag_same {β : Type} (g : State → β) (hg : ∀ (t : State) b p, g { t with boot := b, tap := p } = g t) (i : JtagInstr) (c : Nat) :
    g (s.loadJtag i c) = g s := (leaveReset_same g (fun t b => hg t b t.tap) _).trans (hg s s.boot _)

theorem jtagDrive_leaves (i : JtagInstr) : (s.jtagDrive i).nibs = s.nibs ∧
    (s.jtagDrive i).tap.instr = if (s.pin 3).level ∧ s.pins.pwrGood then i else .bypass := by
  rw [jtagDrive]
  split
  · rename_i h
    rw [if_pos (by simpa using h), tap_loadJtag]
    exact ⟨loadJtag_same s State.nibs (fun _ _ _ => rfl) _ _, rfl⟩
  · rename_i h
    rw [if_neg (by simpa using h), tap_loadJtag]
    exact ⟨loadJtag_same s State.nibs (fun _ _ _ => rfl) _ _, rfl⟩

end
end State

/-- A shift is a product, in the words of the statement. -/
theorem shiftLeft_eq_mul (a b : Nat) : a <<< b = a * 2 ^ b := Nat.shiftLeft_eq a b

/-- Settles O56: the checkers by lock and pattern, the TAP by what `loadJtag` leaves. -/
theorem testPorts : Obligations.TestPorts := by
  unfold Obligations.TestPorts
  refine ⟨fun q lane syms s hc hn hl => ⟨fun h6 => ?_, fun h6 hp => ?_, fun h6 hp => ?_⟩, fun q lane n s hc hl => ⟨fun hn => ?_, fun hn => ?_⟩,
    fun s pins pre code => ⟨⟨_, rfl, ?_, ?_⟩, ⟨_, rfl, ?_, ?_⟩, ⟨_, rfl, ?_, rfl, rfl⟩, ⟨_, rfl, ?_⟩, ⟨_, rfl, ?_⟩, ?_⟩⟩
  · rw [exec_checkerLock, execCheckerLock, State.lockLane_seeks hc hl hn, if_pos h6]
    split
    · exact ⟨_, rfl, rfl, .inl rfl⟩
    · exact ⟨_, rfl, rfl, .inr (State.locked_setLock ..)⟩
  · rw [exec_checkerLock, execCheckerLock, State.lockLane_seeks hc hl hn, if_neg h6, hp, if_neg Bool.false_ne_true]
  · rw [exec_checkerLock, execCheckerLock, State.lockLane_seeks hc hl hn, if_neg h6, if_pos hp]
    exact ⟨_, rfl, State.locked_setLock .., State.obj_setLock ..⟩
  · rw [exec_checkerLockLoss, execCheckerLockLoss, State.loseLane_locked hc hl, if_pos hn]
  · exact ⟨_, rfl, State.loseLane_drops hc lane.isLt (by omega) hl hn⟩
  · exact congrArg Tap.instr (s.tap_loadJtag ..)
  · exact s.loadJtag_same State.nibs (fun _ _ _ => rfl) _ _
  · exact congrArg Tap.instr (s.tap_loadJtag ..)
  · have hfuses : (s.loadJtag .idcode 1).fuses = s.fuses := s.loadJtag_same State.fuses (fun _ _ _ => rfl) _ _
    rw [State.jtagIdcode]
    dsimp only
    rw [State.idcode, hfuses]
    rw [shiftLeft_eq_mul _ 28, shiftLeft_eq_mul _ 12, show 0x2D3 <<< 1 = 0x2D3 * 2 from rfl]
  · exact congrArg Tap.instr (s.tap_loadJtag ..)
  · exact congrArg Tap.instr (s.tap_loadJtag ..)
  · exact State.leaveReset_same State.tap (fun _ _ => rfl) _
  · have hdrive (i : JtagInstr) : ∃ t, (.next (s.jtagDrive i) : Out) = .next t ∧ t.nibs = s.nibs ∧
        t.tap.instr = if (s.pin 3).level ∧ s.pins.pwrGood then i else .bypass := ⟨_, rfl, s.jtagDrive_leaves i⟩
    simp only [List.forall_mem_cons]
    exact ⟨hdrive _, hdrive _, hdrive _, hdrive _, hdrive _, by simp⟩

end Sys2Proof.Machine
end

section
/-! Proof of the statements on the commands that are a session's write of one object (12 R355-R360, R371). -/

namespace Sys2Proof.Machine

/-- A number's bytes spell it. -/
theorem natLE_bytesLE {n v : Nat} (h : v < 256 ^ n) : natLE (bytesLE n v) = v := by
  induction n generalizing v with
  | zero =>
    rw [Nat.pow_zero, Nat.lt_one_iff] at h
    rw [h]
    rfl
  | succ n ih =>
    have hdiv : v / 256 < 256 ^ n := Nat.div_lt_of_lt_mul (by rwa [Nat.mul_comm, ← Nat.pow_succ])
    rw [bytesLE, natLE, ih hdiv, BitVec.toNat_ofNat]
    omega

/-- A number is one that the rules of its own group of objects allow. -/
def numInRange (index sub n : Nat) : Bool :=
  if index < 0x4000 then rangeBasic index sub n else if index < 0x6000 then rangeExpert index n else rangeArray index sub n

section
variable {e : ObjEntry} {index sub n size : Nat} (hs : e.type.size ≠ 0) (hb : e.type ≠ .bool) (hn : n < 256 ^ size)
include hs hb hn

/-- A numeric value is in range where its own group of objects allows it. -/
theorem objectInRange_num : objectInRange e index sub (bytesLE size n) = numInRange index sub n := by
  have hbool : (decide (e.type = .bool) && decide (1 < n)) = false := by simp [hb]
  rw [objectInRange]
  rw [natLE_bytesLE hn, if_neg hs, hbool, if_neg Bool.false_ne_true]
  rfl

end

namespace State

section
variable {s : State} {sess index sub : Nat} {v : List Byte}

theorem ledgerWrite_barred (h : s.writeBar sess index sub v.length ≠ .ok) :
    s.ledgerWrite sess index sub v = (s, s.writeBar sess index sub v.length) := by
  rw [ledgerWrite]
  rw [if_pos h]

variable (h : s.writeBar sess index sub v.length = .ok) {e : ObjEntry} (hl : lookupObj index sub = some e)
  (hv : objectInRange e index sub v = true)
include h hl hv

/-- A write that nothing bars acts by its object's right. -/
theorem ledgerWrite_acts : s.ledgerWrite sess index sub v =
    match e.right with
    | .ro => (s, .readOnly)
    | .rws => s.stageValue sess index sub v
    | .wo => s.writeCommand sess index sub v
    | .rwp => s.writePersisted sess index sub v
    | _ => s.writeNow sess index sub v := by
  rw [ledgerWrite]
  rw [if_neg (not_not_intro h), hl]
  dsimp only
  rw [hv]
  rfl

theorem ledgerWrite_command (hr : e.right = .wo) : s.ledgerWrite sess index sub v = s.writeCommand sess index sub v := by
  rw [ledgerWrite_acts h hl hv, hr]

theorem ledgerWrite_persisted (hr : e.right = .rwp) : s.ledgerWrite sess index sub v = s.writePersisted sess index sub v := by
  rw [ledgerWrite_acts h hl hv, hr]

theorem ledgerWrite_now (hr : e.right = .rw) : s.ledgerWrite sess index sub v = s.writeNow sess index sub v := by
  rw [ledgerWrite_acts h hl hv, hr]

end

/-! ### What a command's row does -/

/-- Command `i` of session `sess` is a write of `len` bytes to object `index:sub`, whose effect is `r`. -/
def WritesAs (s : State) (sess : SessionId) (i : Instr) (index sub len : Nat) (r : State × LapStatus) : Prop :=
  (s.writeBar sess.toNat index sub len = .ok → exec i s = .next (State.commit sess r)) ∧
  (s.writeBar sess.toNat index sub len ≠ .ok → exec i s = .next (State.commit sess (s, s.writeBar sess.toNat index sub len)))

section
variable {s : State} {sess : SessionId} {i : Instr} {index sub len : Nat} {v : List Byte} {r : State × LapStatus}
  (he : exec i s = .next (State.commit sess (s.ledgerWrite sess.toNat index sub v))) (hn : v.length = len)
include he hn

theorem writesAs_of_effect (h : s.writeBar sess.toNat index sub v.length = .ok → s.ledgerWrite sess.toNat index sub v = r) :
    s.WritesAs sess i index sub len r := by
  subst hn
  exact ⟨fun hb => by rw [he, h hb], fun hb => by rw [he, ledgerWrite_barred hb]⟩

variable {e : ObjEntry} (hl : lookupObj index sub = some e) (hv : objectInRange e index sub v = true)
include hl hv

theorem writesAs_command (hr : e.right = .wo) (h : s.writeCommand sess.toNat index sub v = r) : s.WritesAs sess i index sub len r :=
  writesAs_of_effect he hn fun hb => (ledgerWrite_command hb hl hv hr).trans h

theorem writesAs_now (hr : e.right = .rw) (h : s.writeNow sess.toNat index sub v = r) : s.WritesAs sess i index sub len r :=
  writesAs_of_effect he hn fun hb => (ledgerWrite_now hb hl hv hr).trans h

theorem writesAs_persisted (hr : e.right = .rwp) (h : s.writePersisted sess.toNat index sub v = r) : s.WritesAs sess i index sub len r :=
  writesAs_of_effect he hn fun hb => (ledgerWrite_persisted hb hl hv hr).trans h

end

/-! ### The objects of the rows -/

section
variable {s : State} {sess : SessionId} {i : Instr} {index sub size n : Nat} {r : State × LapStatus} {e : ObjEntry}
  (he : exec i s = .next (s.writeNum sess index sub size n)) (hl : lookupObj index sub = some e) (hs : e.type.size ≠ 0)
  (hb : e.type ≠ .bool) (hn : n < 256 ^ size) (hv : numInRange index sub n = true)
include he hl hs hb hn hv

/-- A number written to an object that commands. -/
theorem writesAs_numCommand (hr : e.right = .wo) (h : ∀ v, natLE v = n → s.writeCommand sess.toNat index sub v = r) :
    s.WritesAs sess i index sub size r :=
  writesAs_command he (length_bytesLE ..) hl ((objectInRange_num hs hb hn).trans hv) hr (h _ (natLE_bytesLE hn))

/-- A number written to an object that holds it. -/
theorem writesAs_numNow (hr : e.right = .rw) (h : ∀ v, natLE v = n → s.writeNow sess.toNat index sub v = r) :
    s.WritesAs sess i index sub size r :=
  writesAs_now he (length_bytesLE ..) hl ((objectInRange_num hs hb hn).trans hv) hr (h _ (natLE_bytesLE hn))

end

theorem lookupObj_enable : ∀ q : QuillId, lookupObj 0x6041 q = some ⟨0x6041, 0x6041, 0, 15, .u8, 0, .rw, false, 1⟩ := by decide +kernel

theorem lookupObj_test : ∀ q : QuillId, lookupObj 0x6060 q = some ⟨0x6060, 0x6060, 0, 15, .u32, 0, .rw, true, 0⟩ := by decide +kernel

section
variable {s : State} {sess : SessionId} {i : Instr} {n : Nat}

theorem writesAs_stage (he : exec i s = .next (s.writeNum sess 0x9000 1 1 n)) (h1 : 1 ≤ n) (h5 : n ≤ 5) :
    s.WritesAs sess i 0x9000 1 1 (s.stageCommand sess.toNat n) :=
  writesAs_numCommand (e := ⟨0x9000, 0x9000, 1, 1, .u8, 0, .wo, false, 0⟩) he (by decide +kernel) (by decide) (by decide) (by omega)
    (by simp [numInRange, rangeArray, h1, h5]) rfl fun v hv => by rw [writeCommand, hv]

theorem writesAs_resolve (he : exec i s = .next (s.writeNum sess 0x4622 0 1 n)) (hn : n < 256) (hr : field n 7 6 = 1 ∨ field n 7 6 = 2) :
    s.WritesAs sess i 0x4622 0 1 (s.writeResolve n) :=
  writesAs_numCommand (e := ⟨0x4622, 0x4622, 0, 0, .u8, 0, .wo, true, 0⟩) he (by decide +kernel) (by decide) (by decide) hn
    (by simpa [numInRange, rangeExpert] using hr) rfl fun v hv => by rw [writeCommand, hv]

theorem writesAs_reset (he : exec i s = .next (s.writeNum sess 0x4C03 0 4 n)) (hn : n < 2 ^ 32) (hr : resetWordOk n = true) :
    s.WritesAs sess i 0x4C03 0 4 (orState s (s.requestReset (field n 31 24) (field n 13 0))) :=
  writesAs_numCommand (e := ⟨0x4C03, 0x4C03, 0, 0, .u32, 0, .wo, true, 0⟩) he (by decide +kernel) (by decide) (by decide) hn
    (by simpa [numInRange, rangeExpert] using hr) rfl fun v hv => by rw [writeCommand, hv]

theorem writesAs_firmware (he : exec i s = .next (s.writeNum sess 0x2D20 0 2 n)) (hn : n < 2 ^ 16) (hr : fwWordOk n = true) :
    s.WritesAs sess i 0x2D20 0 2 (s.writeFirmware n) :=
  writesAs_numCommand (e := ⟨0x2D20, 0x2D20, 0, 0, .u16, 0, .wo, true, 0⟩) he (by decide +kernel) (by decide) (by decide) hn
    (by simpa [numInRange, rangeBasic] using hr) rfl fun v hv => by rw [writeCommand, hv]

theorem writesAs_unstick (he : exec i s = .next (s.writeNum sess 0x4F10 0 1 n)) (h1 : 1 ≤ n) (h4 : n ≤ 4) :
    s.WritesAs sess i 0x4F10 0 1 (s.unstick n, .ok) :=
  writesAs_numCommand (e := ⟨0x4F10, 0x4F10, 0, 0, .u8, 0, .wo, true, 0⟩) he (by decide +kernel) (by decide) (by decide) (by omega)
    (by simp [numInRange, rangeExpert, h1, h4]) rfl fun v hv => by rw [writeCommand, hv]

theorem writesAs_enable {q : QuillId} (he : exec i s = .next (s.writeNum sess 0x6041 q.val 1 n)) (h1 : n ≤ 1) :
    s.WritesAs sess i 0x6041 q.val 1 (s.writeEnable q n, .ok) :=
  writesAs_numNow he (lookupObj_enable q) (by decide) (by decide) (by omega) (by simp [numInRange, rangeArray, h1]) rfl fun v hv => by
    rw [writeNow, hv]
    rfl

theorem writesAs_test {q : QuillId} (he : exec i s = .next (s.writeNum sess 0x6060 q.val 4 n)) (hn : n < 2 ^ 32) (hr : testWordOk n = true) :
    s.WritesAs sess i 0x6060 q.val 4 (s.writeTest q n) :=
  writesAs_numNow he (lookupObj_test q) (by decide) (by decide) hn (by simpa [numInRange, rangeArray] using hr) rfl fun v hv => by
    rw [writeNow, hv]
    rfl

theorem writesAs_blotterMove {base : BitVec 64} (he : exec i s = .next (s.writeNum sess 0x4C01 0 8 base.toNat)) : s.WritesAs sess i 0x4C01 0 8
    ((s.took.notePersist (objKey 0x4C01 0) s.flashTakes).moveBlotter base.toNat, if s.flashTakes then .ok else .flash) := by
  have hn : base.toNat < 256 ^ 8 := base.isLt
  have hnow (t : State) : t.writeNow sess.toNat 0x4C01 0 (bytesLE 8 base.toNat) = (t.moveBlotter base.toNat, .ok) := by
    rw [writeNow, natLE_bytesLE hn]
    rfl
  refine writesAs_persisted (e := ⟨0x4C01, 0x4C01, 0, 0, .u64, 0, .rwp, true, 1063004405760⟩) he (length_bytesLE ..) (by decide +kernel)
    ((objectInRange_num (by decide) (by decide) hn).trans rfl) rfl ?_
  rw [writePersisted, hnow]
  cases s.flashTakes <;> rfl

/-- A write of 1 to an object that acts when 1 is written. -/
theorem writesAs_one {index sub : Nat} {e : ObjEntry} {r : State × LapStatus} (he : exec i s = .next (s.writeNum sess index sub 1 1))
    (hl : lookupObj index sub = some e) (hv : objectInRange e index sub (bytesLE 1 1) = true) (hr : e.right = .wo)
    (h : s.writeCommand sess.toNat index sub (bytesLE 1 1) = s.writeOne index sub) (hone : s.writeOne index sub = r) :
    s.WritesAs sess i index sub 1 r :=
  writesAs_command he (length_bytesLE ..) hl hv hr (h.trans hone)

theorem writesAs_meas2 {v : List Byte} (he : exec i s = .next (State.commit sess (s.ledgerWrite sess.toNat 0x2D04 0 v))) (hv : v.length = 32) :
    s.WritesAs sess i 0x2D04 0 32 (s.extend 2 v, .ok) :=
  writesAs_command (e := ⟨0x2D04, 0x2D04, 0, 0, .blob, 32, .wo, false, 0⟩) he hv (by decide +kernel) rfl rfl rfl

theorem writesAs_quote {v : List Byte} (he : exec i s = .next (State.commit sess (s.ledgerWrite sess.toNat 0x2D10 0 v))) (hv : v.length = 32) :
    s.WritesAs sess i 0x2D10 0 32 (s.keepQuote sess.toNat v, .ok) :=
  writesAs_command (e := ⟨0x2D10, 0x2D10, 0, 0, .blob, 32, .wo, false, 0⟩) he hv (by decide +kernel) rfl rfl rfl

end

/-- A reset request of a step with its nib. -/
theorem field_resetWord {k n : Nat} (hk : k < 256) (hn : n < 2 ^ 14) : field (k * 2 ^ 24 + n) 31 24 = k ∧ field (k * 2 ^ 24 + n) 13 0 = n ∧
    field (k * 2 ^ 24 + n) 23 14 = 0 := by
  simp only [field, Nat.shiftRight_eq_div_pow]
  omega

theorem field_resolveWord {k e : Nat} (hk : k < 4) (he : e < 64) : field (k * 64 + e) 7 6 = k := by
  simp only [field, Nat.shiftRight_eq_div_pow]
  omega

theorem field_fwWord {k e : Nat} (hk : k < 256) (he : e < 256) : field (k * 256 + e) 15 8 = k ∧ field (k * 256 + e) 7 0 = e := by
  simp only [field, Nat.shiftRight_eq_div_pow]
  omega

theorem writesAs_nibReset {s : State} {sess : SessionId} {nib : BitVec 14} (hn : nib.toNat < 8448) :
    s.WritesAs sess (.nibResetRequest sess nib) 0x4C03 0 4 (orState s (s.requestReset 2 nib.toNat)) := by
  obtain ⟨hstep, hnib, hzero⟩ := field_resetWord (k := 2) (n := nib.toNat) (by decide) nib.isLt
  have h := writesAs_reset (s := s) (sess := sess) (i := .nibResetRequest sess nib) (n := 2 * 2 ^ 24 + nib.toNat) rfl (by omega)
    (by simp only [resetWordOk, hstep, hnib, hzero, hn, decide_true, Bool.and_true])
  rwa [hstep, hnib] at h

theorem writesAs_revoke {s : State} {sess : SessionId} {key : Byte} (hk : key.toNat ≤ 3) :
    s.WritesAs sess (.fwRevoke sess key) 0x2D20 0 2 (s.writeFirmware (0x400 + key.toNat)) := by
  obtain ⟨hcmd, harg⟩ := field_fwWord (k := 4) (e := key.toNat) (by decide) key.isLt
  exact writesAs_firmware rfl (by omega) (by simp only [fwWordOk]; simp [hcmd, harg, hk])

/-! ### Steps and link tests -/

theorem exec_stepRequest_writes (sess : SessionId) (cycles : List (QuireId × Nat)) (s : State) :
    exec (.stepRequest ⟨sess, cycles⟩) s = .next ((s.countCycles cycles).writeNum sess 0x4705 0 1 1) := rfl

theorem testRow_eq (s : State) (sess : SessionId) (q : QuillId) {v : BitVec 32} {mode : Nat} (h : field v.toNat 1 0 = mode) :
    s.testRow sess q v mode = .next (s.writeNum sess 0x6060 q.val 4 v.toNat) := by rw [testRow, if_pos h]

theorem testRow_illFormed (s : State) (sess : SessionId) (q : QuillId) {v : BitVec 32} {mode : Nat} (h : field v.toNat 1 0 ≠ mode) :
    s.testRow sess q v mode = .fault .illFormed := by rw [testRow, if_neg h]

end State

/-- Settles O57: each row by the object it writes. -/
theorem sessionWrites : Obligations.SessionWrites := by
  unfold Obligations.SessionWrites
  refine ⟨fun sess q entry nib base key pin t0 t1 t2 v32 s hnib hkey hpin hpin4 hv ht0 hm0 ht1 hm1 ht2 hm2 => ?_, fun sess cycles s => ?_,
    fun sess q t s => ⟨s.testRow_illFormed sess q, s.testRow_illFormed sess q, s.testRow_illFormed sess q⟩⟩
  · change ∀ p : Instr × Nat × Nat × Nat × State × LapStatus, p ∈ _ → s.WritesAs sess p.1 p.2.1 p.2.2.1 p.2.2.2.1 p.2.2.2.2
    have hresume : field (64 + entry.toNat) 7 6 = 1 := State.field_resolveWord (k := 1) (by decide) entry.isLt
    have habort : field (128 + entry.toNat) 7 6 = 2 := State.field_resolveWord (k := 2) (by decide) entry.isLt
    simp only [List.forall_mem_cons]
    exact ⟨State.writesAs_stage rfl (by decide) (by decide), State.writesAs_stage rfl (by decide) (by decide),
      State.writesAs_stage rfl (by decide) (by decide), State.writesAs_stage rfl (by decide) (by decide),
      State.writesAs_stage rfl (by decide) (by decide), State.writesAs_resolve rfl (by omega) (.inl hresume),
      State.writesAs_resolve rfl (by omega) (.inr habort),
      State.writesAs_one (e := ⟨0x4623, 0x4623, 0, 0, .bool, 0, .wo, true, 0⟩) rfl (by decide +kernel) (by decide) rfl rfl rfl,
      State.writesAs_enable rfl (by decide), State.writesAs_enable rfl (by decide),
      State.writesAs_one (e := ⟨0x2B12, 0x2B12, 0, 0, .bool, 0, .wo, false, 0⟩) rfl (by decide +kernel) (by decide) rfl rfl rfl,
      State.writesAs_one (e := ⟨0x2B15, 0x2B15, 0, 0, .bool, 0, .wo, false, 0⟩) rfl (by decide +kernel) (by decide) rfl rfl rfl,
      State.writesAs_one (e := ⟨0x4C04, 0x4C04, 0, 0, .bool, 0, .wo, true, 0⟩) rfl (by decide +kernel) (by decide) rfl rfl rfl,
      State.writesAs_nibReset hnib,
      State.writesAs_reset (n := 3 * 2 ^ 24) rfl (by decide) (by decide), State.writesAs_reset (n := 4 * 2 ^ 24) rfl (by decide) (by decide),
      State.writesAs_one (e := ⟨0x4C05, 0x4C05, 0, 0, .bool, 0, .wo, true, 0⟩) rfl (by decide +kernel) (by decide) rfl rfl rfl,
      State.writesAs_blotterMove rfl,
      State.writesAs_firmware rfl (by decide) (by decide), State.writesAs_firmware rfl (by decide) (by decide),
      State.writesAs_firmware rfl (by decide) (by decide), State.writesAs_revoke hkey,
      State.writesAs_meas2 rfl hv, State.writesAs_quote rfl hv,
      State.writesAs_one (e := ⟨0x1001, 0x1001, 32, 32, .bool, 0, .wo, true, 0⟩) rfl (by decide +kernel) (by decide) rfl rfl rfl,
      State.writesAs_unstick rfl hpin hpin4,
      State.writesAs_test (s.testRow_eq sess q hm0) t0.isLt ht0, State.writesAs_test (s.testRow_eq sess q hm1) t1.isLt ht1,
      State.writesAs_test (s.testRow_eq sess q hm2) t2.isLt ht2, State.writesAs_meas2 rfl hv, by simp⟩
  · have hlookup : lookupObj 0x4705 0 = some ⟨0x4705, 0x4705, 0, 0, .bool, 0, .wo, true, 0⟩ := by decide +kernel
    refine ⟨fun hb => ?_, fun hb => ?_⟩
    · rw [State.exec_stepRequest_writes, State.writeNum, State.ledgerWrite_command hb hlookup (by decide) rfl]
      rfl
    · rw [State.exec_stepRequest_writes, State.writeNum, State.ledgerWrite_barred hb]
      rfl

end Sys2Proof.Machine
end

section
/-! Proof of the statement on what a session's writes of one object do (06 R187, R197; 09 R282; 11 R348; 12 R371; 13 R387; 15 R439, R441). -/

namespace Sys2Proof.Machine
namespace State

section
variable {s : State}

/-! ### Fault entries -/

theorem entry_setEntry (s : State) (i : Nat) (e : FaultEntry) : SMap.get (none : Option FaultEntry) (s.setEntry i e).desk.entries i = some e := by
  rw [setEntry]
  exact SMap.get_set_same none s.desk.entries i (some e)

/-- The resumed entry is RESUMED, and its transfer goes on from the entry's chunk. -/
theorem resolve_resumes {e : Nat} {x : FaultEntry} {i : Nat} {u : Transfer} (he : SMap.get none s.desk.entries e = some x)
    (hi : s.entryTransfer e x = some i) (hu : ((s.nib x.virt).resQueue x.rq)[i]? = some u) :
    SMap.get none (s.resolve e 1).desk.entries e = some { x with st := 2 } ∧
    (((s.resolve e 1).nib x.virt).resQueue x.rq)[i]? = some { u with
      st := .active, next := x.chunk, done := u.done.filter fun c => c < x.chunk, flight := u.flight.filter fun c => c.idx < x.chunk } := by
  have htransfer : (s.setEntry e { x with st := 2 }).entryTransfer e x = some i := hi
  have hnib : (s.setEntry e { x with st := 2 }).nib x.virt = s.nib x.virt := rfl
  have hentries : SMap.get none (s.setEntry e { x with st := 2 }).desk.entries e = some { x with st := 2 } := entry_setEntry ..
  rw [resolve, he]
  dsimp only
  rw [if_pos rfl, htransfer]
  dsimp only
  rw [if_pos rfl]
  generalize s.setEntry e { x with st := 2 } = v at hnib hentries
  refine ⟨hentries, getElem?_updTransfer _ ?_⟩
  rw [nib_updNib, Nib.resQueue, Nib.setResQueue, SMap.get_set_same, List.getElem?_mapIdx, hnib, hu]
  dsimp only [Option.map_some]
  rw [if_neg (Nat.lt_irrefl i)]

theorem entryHeld_of {e : Nat} {x : FaultEntry} (he : SMap.get none s.desk.entries e = some x) (hx : x.st = 1) : s.entryHeld e = true := by
  rw [entryHeld, he]
  exact decide_eq_true hx

theorem writeResolve_resumes {e : Nat} (he : e < 64) (hh : s.entryHeld e = true) : s.writeResolve (64 + e) = (s.resolve e 1, .ok) := by
  have hentry : field (64 + e) 5 0 = e := by
    simp only [field, Nat.shiftRight_eq_div_pow]
    omega
  have haction : field (64 + e) 7 6 = 1 := field_resolveWord (k := 1) (by decide) he
  rw [writeResolve]
  rw [hentry, haction, if_pos hh]

/-! ### Quills -/

theorem stopTest_same {β : Type} (g : State → β) (q : Nat) (hg : ∀ (t : State) v, g (t.setObj 0x6060 q v) = g t) : g (s.stopTest q) = g s := by
  rw [stopTest]
  split
  · rfl
  · exact hg ..

/-- A quill that is OFF, enabled, trains. -/
theorem writeEnable_trains {q : Nat} (hq : q < 256) (h : (s.quill q).fn.code = .off) : ((s.writeEnable q 1).quill q).link = .training ∧
    ((s.writeEnable q 1).quill q).fn = { code := .opening } ∧ (s.writeEnable q 1).obj 0x6041 q = 1 := by
  have hset (t : State) (i v : Nat) : (t.setObj i q v).quill q = t.quill q := rfl
  have hquill : ((s.setObj 0x6041 q 1).stopTest q).quill q = s.quill q := (stopTest_same (fun t => t.quill q) q fun _ _ => rfl).trans (hset ..)
  have hobj : ((s.setObj 0x6041 q 1).stopTest q).obj 0x6041 q = 1 :=
    (stopTest_same (fun t => t.obj 0x6041 q) q fun t v => t.obj_setObj_index (by decide) hq hq v).trans (obj_setObj ..)
  rw [writeEnable]
  rw [if_pos rfl]
  generalize (s.setObj 0x6041 q 1).stopTest q = u at hquill hobj
  have hcode : (u.quill q).fn.code = .off := by rw [hquill, h]
  have htrain : u.enableQuill q = u.trainQuill q false := by
    rw [enableQuill]
    rw [hcode]
  rw [htrain, quill_trainQuill, u.trainQuill_same q (fun t => t.obj 0x6041 q) (fun _ _ _ => rfl) (fun _ _ _ _ => rfl) false]
  exact ⟨rfl, rfl, hobj⟩

/-! ### The place engine and firmware -/

theorem placeBegin_starts (hc : s.binding.fn.code = .off) (hr : s.place.running = false) : s.placeBegin = some { s with place :=
    { running := true, next := 0, base := s.obj 0x2B10 0, count := s.obj 0x2B11 0, status := 1, fault := s.place.fault } } := by
  rw [placeBegin, if_neg (by simp [hc, hr])]

theorem placeBegin_refused (hc : s.binding.fn.code ≠ .off) : s.placeBegin = none := by
  rw [placeBegin, if_pos (by simp [hc])]

/-- REVOKE of key `k`. -/
theorem writeFirmware_revoke {k : Nat} (hk : k < 256) : s.writeFirmware (0x400 + k) = if s.fwRefused 4 k then (s, .state) else (s.fwBegin 4 k, .ok) := by
  obtain ⟨hcmd, harg⟩ := field_fwWord (k := 4) (e := k) (by decide) hk
  rw [writeFirmware]
  rw [show 0x400 + k = 4 * 256 + k from rfl, hcmd, harg]

end
end State

/-- Settles O58: each write by its row of O57, and its effect by the lemma about that effect. -/
theorem sessionWriteEffects : Obligations.SessionWriteEffects := by
  unfold Obligations.SessionWriteEffects
  refine fun sess s => ⟨fun hb hst => ?_, fun e x i u hb he hx hi hu => ?_, fun hb => ?_, fun q hb hoff => ?_, fun hb => ⟨fun hc hr => ?_, fun hc => ?_⟩,
    fun hb hmay => ?_, fun k hk hb => ⟨fun hr => ?_, fun hr => ?_⟩, fun v hv hb => ?_⟩
  · have hopen : s.stageCommand sess.toNat 1 =
        (s.updStaging fun g => { g with st := .open_, owner := sess.toNat, vals := [], firstFail := 0 }, .ok) := by
      rw [State.stageCommand, if_pos rfl, State.stageOpen, hst]
    refine ⟨_, (State.writesAs_stage (i := .stageOpen sess) (n := 1) rfl (by decide) (by decide)).1 hb, ?_⟩
    rw [hopen]
    exact ⟨rfl, rfl⟩
  · obtain ⟨hentry, htransfer⟩ := State.resolve_resumes he hi hu
    refine ⟨_, (State.writesAs_resolve (i := .resumeTransfer sess e) rfl (by omega) (.inl (State.field_resolveWord (k := 1) (by decide) e.isLt))).1 hb, ?_⟩
    rw [State.writeResolve_resumes e.isLt (State.entryHeld_of he hx)]
    exact ⟨hentry, htransfer⟩
  · exact ⟨_, (State.writesAs_one (i := .translationFlush sess) (e := ⟨0x4623, 0x4623, 0, 0, .bool, 0, .wo, true, 0⟩)
      rfl (by decide +kernel) (by decide) rfl rfl rfl).1 hb, rfl, rfl, rfl⟩
  · have htrains := State.writeEnable_trains (q := q) (by omega) hoff
    refine ⟨_, (State.writesAs_enable (i := .quillEnable sess q) rfl (by decide)).1 hb, ?_⟩
    generalize s.writeEnable q 1 = t at htrains ⊢
    exact htrains
  · refine ⟨_, (State.writesAs_one (i := .placeStart sess) (e := ⟨0x2B12, 0x2B12, 0, 0, .bool, 0, .wo, false, 0⟩)
      rfl (by decide +kernel) (by decide) rfl rfl (congrArg (orState s) (State.placeBegin_starts hc hr))).1 hb, rfl⟩
  · exact ⟨_, (State.writesAs_one (i := .placeStart sess) (e := ⟨0x2B12, 0x2B12, 0, 0, .bool, 0, .wo, false, 0⟩)
      rfl (by decide +kernel) (by decide) rfl rfl (congrArg (orState s) (State.placeBegin_refused hc))).1 hb, rfl, rfl⟩
  · refine ⟨_, (State.writesAs_one (i := .hostBlot sess) (r := (s.blot 9, .ok)) (e := ⟨0x4C04, 0x4C04, 0, 0, .bool, 0, .wo, true, 0⟩)
      rfl (by decide +kernel) (by decide) rfl rfl rfl).1 hb, ?_⟩
    have hcode := s.blot_code hmay 9
    have habort := s.blot_abort hmay 9
    generalize s.blot 9 = t at hcode habort ⊢
    exact ⟨hcode, habort⟩
  · refine ⟨_, (State.writesAs_revoke hk).1 hb, ?_⟩
    rw [State.writeFirmware_revoke k.isLt, hr, if_neg Bool.false_ne_true]
    have hobj : (s.fwBegin 4 k.toNat).obj 0x2D21 0 = 1 := State.obj_setObj ..
    have hjob : (s.fwBegin 4 k.toNat).boot.job = some (4, k.toNat) := rfl
    generalize s.fwBegin 4 k.toNat = t at hobj hjob
    exact ⟨hjob, hobj⟩
  · refine ⟨_, (State.writesAs_revoke hk).1 hb, ?_⟩
    rw [State.writeFirmware_revoke k.isLt, hr, if_pos rfl]
    exact ⟨rfl, rfl, rfl⟩
  · have hmeas := s.meas_extend 2 v
    have hother (j : Nat) (hj : j ≠ 2) := s.meas_extend_other hj v
    refine ⟨_, (State.writesAs_meas2 (i := .meas2Extend sess v) rfl hv).1 hb, ?_⟩
    have hnibs : (s.extend 2 v).nibs = s.nibs := rfl
    generalize s.extend 2 v = t at hmeas hother hnibs ⊢
    exact ⟨hmeas, hother 0 (by decide), hother 1 (by decide), hother 3 (by decide), hnibs⟩

end Sys2Proof.Machine
end
